-- ==== Sys2Proof/Word.lean ====
section
/-!
DEFINITION. The words the manual names: bytes, register words, the microframe number, and the sparse table type
in which the state keeps numbered things (ports, functions, queues, sources ...).
-/
namespace Sys2Proof

/-- One byte (R19, R20: byte strings in the order in which they cross the wire). -/
abbrev Byte := BitVec 8

/-- A 32-bit register or structure word (R14, R19). -/
abbrev Word := BitVec 32

/-- The 14-bit microframe number (R12), which wraps from 0x3FFF to 0. -/
abbrev Mfn := BitVec 14

/-- A 64-bit host address or other 64-bit quantity. -/
abbrev Addr := BitVec 64

/-- A sparse table: pairs of a number and an entry, the numbers strictly rising, and no entry equal to what an
unlisted number reads as (`Machine.Tab.wf`). The operations stand in Machine/Tab.lean. -/
abbrev Tab (α : Type) := List (Nat × α)

end Sys2Proof
end

