-- ==== Sys2Proof/Syntax.lean ====
section
/-!
DEFINITION. The commands: one constructor for each row of the opcode table, with the row's operands, and the types of the
operands. A command carries what the outside world gives with it: what a read returns, what a measurement finds.
-/
namespace Sys2Proof

/-- What a memory read of the device was for (R49). -/
inductive ReadFor where
  /-- a WQ's ring entry -/
  | ring (n : Fin 64)
  /-- an admin command -/
  | admin
  /-- a data buffer, index table or packet list of the descriptor at a count of a WQ -/
  | data (n : Fin 64) (count : Word)
  deriving DecidableEq, Repr

/-- How a memory read failed, the completion timeout apart (R49). -/
inductive ReadFailure where
  | unsupportedRequest | completerAbort | poisoned
  deriving DecidableEq, Repr

/-- How a packet from the device was received (R206). -/
inductive RxQuality where
  /-- well formed, its check field and CRC good -/
  | good
  /-- a data packet whose CRC16 fails -/
  | badCrc
  /-- its PID fails its check field -/
  | badPid
  /-- a bit-stuff violation, an invalid EOP, or too few bits -/
  | malformed
  deriving DecidableEq, Repr

/-- The filtered line states (R232). -/
inductive Line where
  | se0 | j | k
  deriving DecidableEq, Repr

/-- What a lane reads as it takes a task (R326). -/
inductive LaneRead where
  | good
  /-- an uncorrectable word in the flow's context -/
  | contextLost
  /-- an uncorrectable word in the task's record -/
  | recordLost
  deriving DecidableEq, Repr

/-- A word of Garnet that the scrubber reads, by what it belongs to (R274, R296). -/
inductive GarnetWord where
  /-- the `i`-th cell that an endpoint's channel holds, or its tag -/
  | cell (ep : Fin 8192) (i : Nat)
  | freeCell
  /-- the `i`-th oldest spill entry of a CQ -/
  | spill (f : Fin 128) (n : Fin 16) (i : Nat)
  /-- the window of a homed function -/
  | homed (f : Fin 128) (off : Nat)
  /-- the `i`-th oldest message of an instance -/
  | message (h : Fin 4096) (i : Nat)
  /-- the fetched payload of a service descriptor -/
  | payload (f : Fin 128) (n : Fin 64) (count : Word)
  /-- the running image, or the staging copy -/
  | image (staging : Bool)
  | relocation
  /-- SRAM bank group 1 to 15, less one -/
  | sram (g : Fin 15)
  deriving DecidableEq, Repr

/-- What the receiving side of a crossing finds of a word (R24). -/
inductive CrossWord where
  | good
  /-- a single-symbol error, corrected -/
  | corrected
  /-- a data word that cannot be corrected, on its way to this word of Garnet -/
  | data (w : GarnetWord)
  /-- a control word that cannot be corrected, sent by the block with this fault source; `again`: sent for the second time -/
  | control (src : Fin 1024) (again : Bool)
  deriving DecidableEq, Repr

/-- The state of the PCIe link that rules read (R391, R451, R457). -/
inductive LinkSt where
  | down | l0 | l1 | l12 | l23
  deriving DecidableEq, Repr

/-- What a retention signature is computed over (R461): an SRAM bank group 0x0E0 + g, or an island, by the bit of its class
in PWR_RETLOST1 and its index in the class: a port's engine by the port, the spare of cluster k by 128 + k, a cluster by its
number, any other island by 0. -/
inductive SigOf where
  | group (g : Fin 16)
  | island (cls : Fin 9) (k : Fin 144)
  deriving DecidableEq, Repr

/-- How self-test's stage 2 ends (R459 steps 1 to 3, R462, R464). -/
inductive PowerFound where
  | good
  /-- the regulator whose PG is missing in all four attempts -/
  | regulator (r : Fin 4)
  /-- OSC_OK does not arrive -/
  | oscillator
  /-- the core PLL fails twice -/
  | pll
  deriving DecidableEq, Repr

/-- What a stage of self-test finds (R496, R503 to R507); each stage reads its own fields. -/
structure PostFound where
  /-- a main-path stage passes -/
  ok : Bool := true
  /-- stage 1: calibration slots, by record type, whose TYPE, LEN or CRC does not check (R541) -/
  calBad : List (Fin 256) := []
  /-- stage 2 -/
  power : PowerFound := .good
  /-- stage 3: it failed for the fabric island itself (R501) -/
  fabric : Bool := false
  /-- stage 3: soft SRAM repairs made (R503) -/
  soft : Nat := 0
  /-- stage 3: lanes whose store bank is unrepairable; stage 7: lanes that fail (R503, R507) -/
  lanes : List (Fin 32) := []
  /-- stage 6: cells retired, rows repaired and not repaired, the relocation window unusable (R505) -/
  cells : Nat := 0
  rowsRep : Nat := 0
  rowsBad : Nat := 0
  reloc : Bool := false
  /-- stage 8: the network island fails (R507) -/
  network : Bool := false
  /-- stage 9: clusters whose PLL or island fails, whose monitor fails; engines, spares and PHYs that fail (R506) -/
  clusters : List (Fin 16) := []
  monitors : List (Fin 16) := []
  engines : List (Fin 128) := []
  spares : List (Fin 16) := []
  phys : List (Fin 128) := []
  /-- stage 10: the duration of the self-test in ms (R517) -/
  ms : Fin 65536 := 0
  deriving DecidableEq, Repr

/-- The SecTAG of a received frame, and whether its ICV verifies under the key of the SA it names (R402). -/
structure RxSec where
  sci : BitVec 64
  an : Fin 4
  /-- the packet number, its upper half recovered with the XPN suites -/
  pn : BitVec 64
  icvOk : Bool
  deriving DecidableEq, Repr

/-- A received Ethernet frame, but for what its EtherType announces (R399, R400, R402). -/
structure EthFrame where
  fcsOk : Bool
  da : BitVec 48
  sa : BitVec 48
  /-- the VLAN tag: PCP and VID -/
  tag : Option (Fin 8 × Fin 4096)
  sec : Option RxSec
  /-- the EtherType after any VLAN tag and MACsec processing -/
  etype : BitVec 16
  /-- its length from DA to FCS, the SecTAG, the ICV and a VLAN tag not counted -/
  len : Fin 65536
  deriving DecidableEq, Repr

/-- A record of a received DATA frame (R409): its header, and the bytes of its body that the frame holds. -/
structure RecIn where
  rtype : Byte
  q : Byte
  rlen : BitVec 16
  arg : Word
  body : List Byte
  deriving DecidableEq, Repr

/-- A received CRQ frame (R407), but for its VER and KIND. -/
structure RxFrame where
  eth : EthFrame
  resume : Bool
  ackreq : Bool
  assoc : BitVec 16
  seq : Word
  ack : Word
  win : BitVec 16
  recs : List RecIn
  deriving DecidableEq, Repr

/-- The rails that are not switched (R592, R593). -/
inductive Rail where
  | aon | ret | dram
  deriving DecidableEq, Repr

/-- The commands that the block takes, one constructor for each row of the opcode table. -/
inductive Instr where
  /-- DEVICE_MICROFRAME_EDGE (R12): The scheduler island makes the device microframe edge every 125 µs and MFN advances by
  one, wrapping at 0x3FFF. -/
  | deviceMicroframeEdge
  /-- CROSSING_WORD_RECEIVED (R24): A word arrives across an island crossing and its code is checked; a symbol error is
  corrected, and uncorrectable data is passed on poisoned. -/
  | crossingWordReceived (w : CrossWord)
  /-- REGISTER_WRITE (R15): A write to a register that has no row of its own takes effect field by field according to the
  field types, LOCK bits and reserved-bit rules. -/
  | registerWrite (f : Fin 128) (bar4 : Bool) (off : Fin 0x2000000) (len : Fin 4097) (w : Word) (hi : Word)
  /-- RESERVED_OFFSET_ACCESS (R38): An access to a reserved offset or to VF BAR padding reads 0 or has no effect, and a
  malformed register-space access completes with Unsupported Request. -/
  | reservedOffsetAccess (f : Fin 128) (bar : Fin 3) (off : Fin 0x2000000) (len : Fin 4097) (write : Bool)
  /-- BAR2_WRITE_REFUSED (R40): A BAR2 write TLP that breaks the alignment, length or slot conditions has no effect, is
  logged as Unsupported Request and counts in DBIGN. -/
  | bar2WriteRefused (f : Fin 128) (off : Fin 16384) (len : Fin 4097)
  /-- UNDECODED_VF_ACCESS (R618): A memory request to a VF aperture that no function decodes completes with Unsupported
  Request, or has no effect if posted, and is logged in PF0's AER registers. -/
  | undecodedVfAccess (n : Fin 128) (write : Bool)
  /-- VF_ENABLE_SET (R55): VF Enable goes from 0 to 1 with NumVFs 1–127, and the VFs are created with the default vector,
  queue, quota and lane-share allocation. -/
  | vfEnableSet
  /-- VF_ENABLE_CLEAR (R56): VF Enable goes from 1 to 0: the VFs are reset, unhomed, their shared sources and ports return
  to PF0, and their resources return to the free stock. -/
  | vfEnableClear
  /-- NUMVFS_WRITE (R52): A write of NumVFs takes effect only while VF Enable is 0 and the value does not exceed TotalVFs. -/
  | numvfsWrite (w : Fin 65536)
  /-- HOST_READ_FAILED (R49): A memory read for a function ends in Unsupported Request, Completer Abort or poisoned data,
  and the data descriptor, WQ or AQ is failed accordingly. -/
  | hostReadFailed (f : Fin 128) (r : ReadFor) (e : ReadFailure)
  /-- HOST_READ_COMPLETION_TIMEOUT (R49): A memory read for a function reaches its PCIe completion timeout and is handled as
  a failed read. -/
  | hostReadCompletionTimeout (f : Fin 128) (r : ReadFor)
  /-- VF_FLR (R73): An FLR of a VF is initiated: its configuration space and MSI-X table reset and its work is abandoned
  without completions. -/
  | vfFlr (f : Fin 128)
  /-- PF0_FLR (R72): An FLR of PF0 resets PF0 and every VF, clears VF Enable and returns the VFs' ports to PF0. -/
  | pf0Flr
  /-- CONVENTIONAL_RESET (R72): A PERST#, hot reset or link down in ACTIVE or DOZE resets the PCIe core and every function
  as a PF0 FLR, and the link retrains. -/
  | conventionalReset
  /-- FLR_COMPLETE (R74): An FLR completes within 1 ms and Transactions Pending clears. -/
  | flrComplete (f : Fin 128)
  /-- FUNCTION_RESET_COMPLETE (R74): A function reset completes, sets FN_STATUS.RESET_DONE and raises private source 21. -/
  | functionResetComplete (f : Fin 128)
  /-- BUS_MASTER_ENABLE_WRITE (R75): A change of a function's Bus Master Enable starts or ends the hold on its DMA. -/
  | busMasterEnableWrite (f : Fin 128) (b : Bool)
  /-- PM_STATE_WRITE (R391): A write of PF0's power state to D3hot or D0 puts every function to sleep or wakes it for event
  delivery. -/
  | pmStateWrite (d3 : Bool)
  /-- MSIX_CONTROL_WRITE (R384): A write of MSI-X Enable or Function Mask sets or ends a hold on the function's vectors,
  sending held messages when the last hold ends. -/
  | msixControlWrite (f : Fin 128) (en : Bool) (mask : Bool)
  /-- MSIX_ENTRY_WRITE (R384): A write of an MSI-X table entry's Mask bit sets or ends the hold on that vector and its PBA
  bit. -/
  | msixEntryWrite (f : Fin 128) (v : Fin 64) (k : Fin 4) (w : Word)
  /-- RESHAPE_ACCEPTANCE (R68): The scheduler accepts a RESHAPE once earlier RESHAPEs on the same functions or ports are
  done; a port move sets MOVING, or a grant or withdrawal takes effect. -/
  | reshapeAcceptance (i : Fin 65536)
  /-- PORT_MOVE_CUT (R68): At the edge of the cut microframe the source's descriptors on the port complete with RESHAPED and
  its bound WQs are drained and stopped. -/
  | portMoveCut (p : Fin 128)
  /-- PORT_MOVE_HANDOVER (R68): After the WQ drain the source receives detach messages, ownership passes to the target with
  attach messages, MOVING clears and the RESHAPE completes. -/
  | portMoveHandover (p : Fin 128)
  /-- WQ_DOORBELL (R94): A PCOUNT write to a DOORBELL or PUSH WQ is accepted, ignored or refused with BADCOUNT under the
  producer-count check. -/
  | wqDoorbell (f : Fin 128) (n : Fin 64) (p : Word) (rest : List Word)
  /-- PUSH_SLOT_WRITE (R98): A write to INLINE, PUSH0 or PUSH1 of a PUSH WQ's slot fills the slot buffer and sets a field
  valid when all its 32 bytes are written. -/
  | pushSlotWrite (f : Fin 128) (n : Fin 64) (o : Fin 24) (ws : List Word)
  /-- POLL_DOORBELL (R97): A PCOUNT write to a POLL-mode WQ makes a poll due at once and restarts the interval. -/
  | pollDoorbell (f : Fin 128) (n : Fin 64) (p : Word)
  /-- POLL_INTERVAL_EXPIRY (R93): A POLL-mode WQ's poll interval expires and a poll of the slot at its consumer count falls
  due. -/
  | pollIntervalExpiry (f : Fin 128) (n : Fin 64)
  /-- RING_READ_ISSUE (R104): At a read opportunity the queue front end picks a function and WQ by weighted round robin and
  issues one ring read. -/
  | ringReadIssue
  /-- RING_READ_RETURN (R90): A WQ entry read returns; with the right PHASE it is consumed into the binding, otherwise it is
  read again or left. -/
  | ringReadReturn (f : Fin 128) (n : Fin 64) (bs : List Byte)
  /-- PHASE_REREAD (R92): One µs after a wrong-PHASE read the entry is read again, and a third wrong PHASE stops the WQ with
  error PHASE. -/
  | phaseReread (f : Fin 128) (n : Option (Fin 64))
  /-- CQ_CONSUMER_DOORBELL (R115): A CCOUNT write returns consumed CQ entries, or is refused with BADCONS, and spill entries
  move into freed slots. -/
  | cqConsumerDoorbell (f : Fin 128) (n : Fin 16) (w : Word)
  /-- CQ_SPILL_DRAIN_TIMEOUT (R109): Ten ms after a CQ deletion or withdrawal began draining its spill, the remaining
  entries are discarded and counted in LOST. -/
  | cqSpillDrainTimeout (f : Fin 128) (n : Fin 16)
  /-- AQ_ENABLE (R123): Q_AQ_CFG.ENABLE goes from 0 to 1 and the size exponents are checked; bad sizes set BADSIZE. -/
  | aqEnable (f : Fin 128) (w : Word)
  /-- AQ_READY (R123): The AQ becomes ready within 10 µs of enable with all counts 0, and ENUM then sends the function's
  attach messages. -/
  | aqReady (f : Fin 128)
  /-- AQ_DISABLE (R123): Q_AQ_CFG.ENABLE goes from 1 to 0: no more commands are fetched and later admin completions are
  discarded. -/
  | aqDisable (f : Fin 128) (w : Word)
  /-- AQ_SUBMISSION_DOORBELL (R124): A SQPCOUNT write publishes admin commands, or stops the AQ with BADCOUNT. -/
  | aqSubmissionDoorbell (f : Fin 128) (w : Word)
  /-- AQ_COMPLETION_DOORBELL (R124): A CQCCOUNT write returns admin completion entries, or sets BADCONS. -/
  | aqCompletionDoorbell (f : Fin 128) (w : Word)
  /-- ADMIN_FETCH (R125): When the current command has finished and a completion slot is free, the next admin command is
  read, served round robin across functions. -/
  | adminFetch
  /-- ADMIN_COMMAND_READ_RETURN (R425): An admin command read returns and the command is checked and started, or the AQ
  stops on a PHASE or read error. -/
  | adminCommandReadReturn (f : Fin 128) (bs : List Byte)
  /-- IDENTIFY (R431): Admin command that writes the 128-byte identity and resource record. -/
  | identify (f : Fin 128)
  /-- CREATE_CQ (R107): Admin command that creates a CQ with its ring and spill area. -/
  | createCq (f : Fin 128)
  /-- DELETE_CQ (R109): Admin command that deletes a CQ with no bound WQ after draining its spill for up to 10 ms. -/
  | deleteCq (f : Fin 128)
  /-- CREATE_WQ (R106): Admin command that creates a WQ bound to an endpoint context or service instance. -/
  | createWq (f : Fin 128)
  /-- DELETE_WQ (R108): Admin command that stops a WQ, completes its descriptors in progress with CANCELLED and removes it. -/
  | deleteWq (f : Fin 128)
  /-- RESTART_WQ (R110): Admin command that restarts a stopped WQ at a given count. -/
  | restartWq (f : Fin 128)
  /-- SET_CHANNEL (R282): Admin command that sets a channel's quota, marks and pool-wait limit. -/
  | setChannel (f : Fin 128)
  /-- BIND_SERVICE (R332): Admin command that binds an interface or root port to a service instance and runs the service's
  bind sequence. -/
  | bindService (f : Fin 128)
  /-- UNBIND_SERVICE (R335): Admin command that cancels an instance's work, sends its unbind actions and returns its
  interfaces to RAW. -/
  | unbindService (f : Fin 128)
  /-- PORT_CONTROL (R202): Admin command from the owning function that issues RESET, SUSPEND or RESUME to a port. -/
  | portControl (f : Fin 128)
  /-- FUNCTION_RESET (R73): PF0 admin command that resets one function's work while keeping its configuration space and
  MSI-X table. -/
  | functionReset
  /-- SET_FN_ARB (R105): PF0 admin command that sets a function's fetch-arbitration weight and burst from the next refill. -/
  | setFnArb
  /-- RESHAPE (R66): PF0 admin command that moves ports or grants and withdraws resources between functions as a long
  operation. -/
  | reshape
  /-- POWER_STATE (R447): PF0 admin command that enters DOZE, NAP or DEEP, or puts a cluster to sleep or wakes it. -/
  | powerState
  /-- NET_HOME (R403): PF0 admin command that homes a VF's queues in a pool window served by an association. -/
  | netHome
  /-- NET_UNHOME (R406): PF0 admin command that ends homing, sends CLOSE and resets the function. -/
  | netUnhome
  /-- SELFTEST (R509): PF0 admin command that starts an in-service ENGINE, LANE, DRAMREGION or MONITOR test as a long
  operation. -/
  | selftest
  /-- PERIPH_DOWNLOAD (R434): Admin command that sends a payload in chunks to a RAW endpoint as a long operation. -/
  | periphDownload (f : Fin 128) (payload : List Byte)
  /-- CAL_MEASURE (R430): PF0 admin command that measures a cluster's monitor gain and offset as a long operation. -/
  | calMeasure
  /-- CAL_WRITE (R539): PF0 admin command that writes one calibration record into the store. -/
  | calWrite (payload : List Byte)
  /-- IMAGE_STAGE (R551): PF0 admin command that copies an image into the staging slot and checks it. -/
  | imageStage (payload : List Byte)
  /-- IMAGE_APPLY (R552): PF0 admin command that puts the staged image in force for one or all functions. -/
  | imageApply
  /-- LONG_SUSPEND (R439): Admin command that asks a long operation to suspend at its next safe point. -/
  | longSuspend (f : Fin 128)
  /-- LONG_RESUME (R439): Admin command that resumes a suspended long operation or withdraws a pending suspend. -/
  | longResume (f : Fin 128)
  /-- LONG_CANCEL (R439): Admin command that moves a long operation to CANCELLING. -/
  | longCancel (f : Fin 128)
  /-- QUERY_OP (R437): Admin command that writes one operation record, or a list of them. -/
  | queryOp (f : Fin 128)
  /-- LONG_OP_SAFE_POINT (R438): A long operation reaches a safe point and, with SUSPREQ set, enters SUSPENDED. -/
  | longOpSafePoint (i : Fin 65536)
  /-- LONG_OP_DONE (R438): A long operation finishes its last unit, its ending steps or an ending error, reaches DONE and
  its completion falls due. -/
  | longOpDone (i : Fin 65536) (fail : Option (Nat × Nat)) (found : List Word)
  /-- SCRUB_PERIOD_START (R299): A DRAM scrub period begins and hardware starts a new SCRUB pass. -/
  | scrubPeriodStart
  /-- SCRUB_ACCESS (R299): The scrubber reads, corrects and writes back one word, marking or retiring cells with poisoned
  words. -/
  | scrubAccess (w : GarnetWord) (addr : Fin 0x10000000) (e : Option Bool)
  /-- CORRECTION_WRITE_BACK (R273): Within 1 µs of a corrected DRAM read, the corrected word is written back. -/
  | correctionWriteBack (addr : Fin 0x10000000)
  /-- PERIPH_DOWNLOAD_DELAY_EXPIRY (R434): The DELAY after a download chunk expires and the next chunk is sent. -/
  | periphDownloadDelayExpiry (i : Fin 65536)
  /-- PLAN_BUILD (R170): In its phase's build window the scheduler builds and delivers a port's plan for the microframe two
  ahead. -/
  | planBuild (p : Fin 128)
  /-- JOIN_WORD (R172): A join word makes a newly consumed asynchronous channel eligible in the running plan's window. -/
  | joinWord (p : Fin 128) (h : Fin 8192)
  /-- PORT_MICROFRAME_START (R166): At a port's SOF instant the engine sends the start item, takes a checkpoint and starts
  running its plan, or holds without one. -/
  | portMicroframeStart (p : Fin 128) (excess : Bool)
  /-- EDGE_WORD_COMPARE (R165): The device edge word becomes usable in a cluster and is compared with the free-running
  counter, relocking on a mismatch. -/
  | edgeWordCompare (k : Fin 16) (off : Fin 15000)
  /-- TRANSACTION_START (R176): The port engine starts the next transaction once it fits before the protection point and the
  bus is free. -/
  | transactionStart (p : Fin 128) (t : Fin 60000)
  /-- EXPRESS_OUT_INSERT (R173): An express OUT transaction is inserted at the first idle gap where it and the remaining
  periodic items still fit. -/
  | expressOutInsert (p : Fin 128) (h : Fin 8192) (t : Fin 60000)
  /-- LPM_TRANSACTION (R223): With LPM conditions met the port engine sends EXT and LPM tokens to the device. -/
  | lpmTransaction (p : Fin 128) (t : Fin 60000)
  /-- RESPONSE_SYNC (R205): The PHY reports a SYNC as the answer to a token or data packet, stopping the response timer. -/
  | responseSync (p : Fin 128)
  /-- RESPONSE_TIMEOUT (R204): The response timer expires with no SYNC and the transaction counts as a timeout. -/
  | responseTimeout (p : Fin 128)
  /-- DATA_PACKET_RECEIVED (R142): A data packet from the device ends at EOP and is judged, stored in a cell or express
  buffer, and acknowledged. -/
  | dataPacketReceived (p : Fin 128) (pid : Byte) (bs : List Byte) (q : RxQuality)
  /-- HANDSHAKE_RECEIVED (R207): A handshake from the device ends a transaction, advancing toggles, releasing cells and
  deciding any completion. -/
  | handshakeReceived (p : Fin 128) (pid : Byte) (q : RxQuality)
  /-- EOF2_REACHED (R213): The port reaches EOF2 of its microframe or frame and checks whether a device is still
  transmitting. -/
  | eof2Reached (p : Fin 128) (transmitting : Bool)
  /-- DESCRIPTOR_TIMEOUT (R144): A descriptor's TMO expires and it completes with TIMEOUT after the packet on the wire. -/
  | descriptorTimeout (f : Fin 128) (n : Fin 64) (count : Word)
  /-- POOL_WAIT_ABORT (R290): A channel's pool wait reaches WAITLIM and its descriptor ends with POOL_WAIT_ABORT. -/
  | poolWaitAbort (h : Fin 8192)
  /-- PORT_RESET (R216): A RESET command finishes the current transaction, completes descriptors with PORT_RESET and drives
  SE0 for 50 ms. -/
  | portReset (p : Fin 128)
  /-- PORT_SUSPEND (R219): A SUSPEND command completes descriptors in progress with SUSPENDED and stops start items. -/
  | portSuspend (p : Fin 128)
  /-- PORT_RESUME (R220): A RESUME command starts driving K, or waits until 5 ms after suspend entry. -/
  | portResume (p : Fin 128) (counting : Bool)
  /-- REARM (R201): PF0's REARM restores power to an ISOLATED port. -/
  | rearm (p : Fin 128)
  /-- SPARE (R229): PF0's SPARE command requests a planned swap of the port onto the cluster's spare engine. -/
  | spare (p : Fin 128)
  /-- RETURN (R229): PF0's RETURN command requests a planned swap back to the port's own engine. -/
  | returnCmd (p : Fin 128)
  /-- TEST_MODE_SET (R230): A non-zero TESTMODE write puts an idle port into a compliance test mode. -/
  | testModeSet (p : Fin 128) (m : Fin 8)
  /-- TEST_MODE_CLEAR (R230): A TESTMODE write of 0 leaves TEST by a port power cycle. -/
  | testModeClear (p : Fin 128)
  /-- AUTOREC_WRITE (R214): A write of AUTOREC releases a DISABLED port at once if 100 ms have passed, or keeps it DISABLED. -/
  | autorecWrite (p : Fin 128) (b : Bool)
  /-- AUTOREC_EXPIRY (R214): One hundred ms after DISABLED was entered, with AUTOREC 1, the port returns to DISCONNECTED. -/
  | autorecExpiry (p : Fin 128)
  /-- RESET_SE0_END (R216): The 50 ms reset SE0 ends and the port becomes ENABLED at the detected speed with tokens held. -/
  | resetSe0End (p : Fin 128)
  /-- TOKEN_HOLD_END (R216): The reset or resume recovery, or BESL latency, ends, and staged descriptors start. -/
  | tokenHoldEnd (p : Fin 128)
  /-- RESUME_DELAY_END (R220): The 5 ms suspend residency passes and a waiting host resume starts driving K. -/
  | resumeDelayEnd (p : Fin 128)
  /-- RESUME_K_END (R220): After 20 ms of resume K the engine sends the LS EOP and enables the port at the next microframe
  start. -/
  | resumeKEnd (p : Fin 128)
  /-- LINE_STATE_CHANGE (R232): A new line state holds for 300 port cycles and the filtered state changes. -/
  | lineStateChange (p : Fin 128) (l : Line) (dmHigh : Bool)
  /-- DEBOUNCE_END (R233): The 100 ms connect debounce period ends and ENUM issues RESET. -/
  | debounceEnd (p : Fin 128)
  /-- DEVICE_CHIRP (R234): A device chirp K is recognised during reset, and the host chirp follows. -/
  | deviceChirp (p : Fin 128)
  /-- CHIRP_WINDOW_END (R234): The 7.0 ms chirp window ends without a chirp and the port comes up at FS. -/
  | chirpWindowEnd (p : Fin 128)
  /-- HOST_CHIRP_STOP (R234): Two hundred µs before the end of SE0 the Vetia stops chirping and holds SE0 with HS
  terminations. -/
  | hostChirpStop (p : Fin 128)
  /-- L1_EXIT (R224): After the minimum residency an exit condition makes the Vetia drive K for 60 µs to leave L1. -/
  | l1Exit (p : Fin 128) (counting : Bool)
  /-- L1_RESUME_K_END (R224): The 60 µs L1 resume K ends with an LS EOP and the port is enabled at the next microframe
  start. -/
  | l1ResumeKEnd (p : Fin 128)
  /-- ENGINE_STATE_ERROR (R227): The serving engine's own check finds an uncorrectable state error and an unplanned takeover
  starts. -/
  | engineStateError (p : Fin 128)
  /-- CHECKPOINT_TIMEOUT (R227): No checkpoint is usable 16 port cycles after the SOF instant and an unplanned takeover
  starts. -/
  | checkpointTimeout (p : Fin 128)
  /-- SPARE_LOAD_DONE (R228): The spare has loaded the checkpoint, replayed the journal and loaded the plan copies. -/
  | spareLoadDone (p : Fin 128) (ok : Bool)
  /-- PPL_FRAME_START (R236): Every 10 µs the cluster starts a port power link frame carrying TYPE, EN and ILIM. -/
  | pplFrameStart (k : Fin 16)
  /-- PPL_RETURN_FRAME (R239): The array's return frame is judged at the end of slot 45 and its OC and HEALTH flags are
  taken. -/
  | pplReturnFrame (k : Fin 16) (w : BitVec 22)
  /-- PPL_LINK_TIMEOUT (R239): One hundred µs without a valid return frame declares the link lost and removes power from the
  cluster's ports. -/
  | pplLinkTimeout (k : Fin 16)
  /-- HOLD_TIMEOUT (R240): A cluster sending HOLD frames gets no RTYPE HELD within 100 µs and reports the failure. -/
  | holdTimeout (k : Fin 16)
  /-- MONITOR_CONVERSION (R241): The cluster converter takes one corrected sample and updates that channel's median, filter
  and window. -/
  | monitorConversion (k : Fin 16) (ch : Fin 9) (raw : Fin 16384)
  /-- POWER_GOOD_TIMEOUT (R244): Twenty ms after enable without power good the port is handled as a brown-out. -/
  | powerGoodTimeout (p : Fin 128)
  /-- PORT_POWER_ENABLE (R245): A port's staged or delayed enable falls due and its EN bit is set in the next frame. -/
  | portPowerEnable (p : Fin 128)
  /-- LOAD_SHED_REPEAT (R254): Every 10 ms while cluster current stays above the limit, one more port is shed. -/
  | loadShedRepeat (k : Fin 16)
  /-- POWER_RETRY (R253): RETRYDLY seconds after a removal the port is enabled again if retries remain. -/
  | powerRetry (p : Fin 128)
  /-- RETRY_COUNT_CLEAR (R253): A port powered for 10 s has its retry count cleared. -/
  | retryCountClear (p : Fin 128)
  /-- PWROFF_WRITE (R246): A write of PRT_PWRCTRL.PWROFF removes the port's power with reason COMMAND, or allows it again
  after 100 ms. -/
  | pwroffWrite (p : Fin 128) (b : Bool)
  /-- PRT_PWRCTRL_RETRY (R253): PF0's RETRY write clears the retry count and enables the port at once. -/
  | prtPwrctrlRetry (p : Fin 128)
  /-- CDP_DETECT (R256): DP held in the primary detection range for 5 ms makes the port drive its CDP level on DM. -/
  | cdpDetect (p : Fin 128)
  /-- ENUM_REQUEST_TIMEOUT (R258): An ENUM request's timeout expires and the request is retried or the enumeration fails. -/
  | enumRequestTimeout (p : Fin 128)
  /-- HUB_PORT_RESET_TIMEOUT (R259): No C_PORT_RESET within 100 ms makes the hub port reset count as a failed request. -/
  | hubPortResetTimeout (p : Fin 128)
  /-- ENUM_MESSAGE_WAIT_END (R262): A waiting ENUM message now fits the instance's buffer, enters it and the port's ENUM
  flow leaves HELD. -/
  | enumMessageWaitEnd (f : Fin 128)
  /-- ENUM_DESCRIBE (R266): ENUM request that writes a device's endpoint list and stored descriptors. -/
  | enumDescribe (f : Fin 128) (n : Fin 64) (count : Word)
  /-- ENUM_SET_CONFIG (R266): ENUM request that admits and sets a device configuration. -/
  | enumSetConfig (f : Fin 128) (n : Fin 64) (count : Word)
  /-- ENUM_SET_ALT (R266): ENUM request that admits and selects an interface's alternate setting. -/
  | enumSetAlt (f : Fin 128) (n : Fin 64) (count : Word)
  /-- EP_RESET (R266): ENUM request that resets an endpoint's toggle, error count, PING state and HALTED state. -/
  | epReset (f : Fin 128) (n : Fin 64) (count : Word)
  /-- EP_CONFIG (R266): ENUM request that sets an endpoint's asynchronous weight. -/
  | epConfig (f : Fin 128) (n : Fin 64) (count : Word)
  /-- DEV_SUSPEND (R266): ENUM request that suspends a device behind a hub port. -/
  | devSuspend (f : Fin 128) (n : Fin 64) (count : Word)
  /-- DEV_RESUME (R266): ENUM request that resumes a device behind a hub port. -/
  | devResume (f : Fin 128) (n : Fin 64) (count : Word)
  /-- DEV_RESET (R266): ENUM request that resets a device's port and restores it. -/
  | devReset (f : Fin 128) (n : Fin 64) (count : Word)
  /-- RECV (R343): Service request that delivers held messages, or waits for one. -/
  | recv (f : Fin 128) (n : Fin 64) (count : Word)
  /-- MOVER_REQUEST_ISSUE (R286): The mover issues its next fill read, drain write or payload move by class and round robin. -/
  | moverRequestIssue (e : Option (Fin 0x10000000 × Bool))
  /-- MOVER_READ_RETURN (R292): A mover read returns a piece; once all pieces are in, the cell's data and tag are written. -/
  | moverReadReturn (k : Fin 512) (bs : List Byte)
  /-- CELL_GRANT (R280): A waiting channel is granted a pool cell once its reserve, limit, quota and free cells allow. -/
  | cellGrant
  /-- CHANNEL_SETTINGS_WRITE (R302): PF0 writes a channel's settings through the GRN window, applied only if every field is
  legal. -/
  | channelSettingsWrite (mark : Bool) (w : Word)
  /-- TASK_PLACEMENT (R316): Every 2 service cycles the dispatcher picks the next ready task and places it on a lane. -/
  | taskPlacement
  /-- CONTEXT_COPY_DONE (R318): A flow context has been copied to the task's new lane, and the task may start. -/
  | contextCopyDone (i : Fin 16384) (seq : Fin 65536)
  /-- CONTEXT_FETCH_BACK (R318): A flow context written out to Garnet is fetched back into a lane's store. -/
  | contextFetchBack (i : Fin 16384) (seq : Fin 65536)
  /-- LANE_TASK_START (R319): A lane takes the next task from its ready queue and runs it. -/
  | laneTaskStart (l : Fin 32) (r : LaneRead)
  /-- TASK_DONE (R324): A task ends on its lane and awaits release. -/
  | taskDone (l : Fin 32)
  /-- TASK_RELEASE (R315): The task at RELSEQ is released and its result items take effect in order. -/
  | taskRelease (i : Option (Fin 16384))
  /-- LANE_WATCHDOG (R319): A task in service longer than WDOG is ended FAILED and released as an empty marker. -/
  | laneWatchdog (l : Fin 32)
  /-- TIMER_EXPIRY (R307): An armed MFN or delay timer expires and decrements its waiting task. -/
  | timerExpiry (i : Fin 16384) (seq : Fin 65536)
  /-- DEADLINE_EXPIRY (R308): A task's deadline expires and the task is made ready with TIMEDOUT set. -/
  | deadlineExpiry (f : Fin 128) (n : Fin 64) (count : Word)
  /-- SERVICE_BUFFER_FETCH_DONE (R306): The last byte of a mover fetch into a service buffer is written and its task's
  counter decrements. -/
  | serviceBufferFetchDone (f : Fin 128) (n : Fin 64) (count : Word)
  /-- PERIODIC_TICK (R190): An armed service tick reaches its nominal MFN and creates a task. -/
  | periodicTick (h : Fin 2048)
  /-- HIDX_GET_RDESC (R346): HIDX request that writes the stored report descriptor. -/
  | hidxGetRdesc (f : Fin 128) (n : Fin 64) (count : Word)
  /-- HIDX_MAP_LOAD (R347): HIDX request that checks and loads a report map. -/
  | hidxMapLoad (f : Fin 128) (n : Fin 64) (count : Word)
  /-- HIDX_SET_MODE (R346): HIDX request that changes to REPORT, SCANNER or MAGSTRIPE mode. -/
  | hidxSetMode (f : Fin 128) (n : Fin 64) (count : Word)
  /-- HIDX_KEYMAP_LOAD (R349): HIDX request that loads a keymap or restores the built-in one. -/
  | hidxKeymapLoad (f : Fin 128) (n : Fin 64) (count : Word)
  /-- HIDX_SEND_REPORT (R346): HIDX request that sends an output or feature report. -/
  | hidxSendReport (f : Fin 128) (n : Fin 64) (count : Word)
  /-- HIDX_GET_REPORT (R346): HIDX request that reads an input or feature report by GET_REPORT. -/
  | hidxGetReport (f : Fin 128) (n : Fin 64) (count : Word)
  /-- HIDX_INPUT_REPORT (R348): An input report is turned into a REPORT message, or assembled into a scanned string. -/
  | hidxInputReport (h : Fin 2048)
  /-- SCAN_IDLE_GAP (R350): The IDLE gap after the last character expires and the string is sent with ENDIDLE. -/
  | scanIdleGap (h : Fin 2048)
  /-- CCID_POWER_ON (R354): CCID request that activates a slot and writes its ATR. -/
  | ccidPowerOn (f : Fin 128) (n : Fin 64) (count : Word)
  /-- CCID_POWER_OFF (R359): CCID request that powers a card off. -/
  | ccidPowerOff (f : Fin 128) (n : Fin 64) (count : Word)
  /-- CCID_XFR (R357): CCID request that exchanges an APDU with the card. -/
  | ccidXfr (f : Fin 128) (n : Fin 64) (count : Word)
  /-- CCID_SLOT_STATUS (R359): CCID request that reports a slot's state and protocol. -/
  | ccidSlotStatus (f : Fin 128) (n : Fin 64) (count : Word)
  /-- CCID_SET_OPTS (R359): CCID request that sets AUTOPOWER, PREFER_T1 and NOPPS. -/
  | ccidSetOpts (f : Fin 128) (n : Fin 64) (count : Word)
  /-- CCID_ESCAPE (R359): CCID request that sends PC_to_RDR_Escape and returns the answer. -/
  | ccidEscape (f : Fin 128) (n : Fin 64) (count : Word)
  /-- CCID_SLOT_NOTIFICATION (R353): A NotifySlotChange or slot status shows a card arriving or leaving a slot. -/
  | ccidSlotNotification (h : Fin 2048)
  /-- CCID_HARDWARE_ERROR (R353): A HardwareError notification queues a READER_ERROR message. -/
  | ccidHardwareError (h : Fin 2048)
  /-- CCID_RESPONSE (R356): An RDR_to_PC answer matching the command's bSeq ends its wait, or a time extension restarts it. -/
  | ccidResponse (h : Fin 2048)
  /-- CCID_COMMAND_TIMEOUT (R356): A CCID command's 10 s wait expires and the Vetia sends Abort. -/
  | ccidCommandTimeout (h : Fin 2048) (k : Fin 8)
  /-- CCID_ABORT_TIMEOUT (R356): The 1 s wait for the Abort answer ends and the request fails. -/
  | ccidAbortTimeout (h : Fin 2048) (k : Fin 8)
  /-- CCID_VOLTAGE_RETRY_WAIT (R354): Ten ms after IccPowerOff in activation, the next voltage class is tried. -/
  | ccidVoltageRetryWait (h : Fin 2048) (k : Fin 8)
  /-- STRM_TX (R363): STRM request that sends bytes to the device. -/
  | strmTx (f : Fin 128) (n : Fin 64) (count : Word)
  /-- STRM_SET_LINE (R365): STRM request that sets the CDC line coding. -/
  | strmSetLine (f : Fin 128) (n : Fin 64) (count : Word)
  /-- STRM_SET_CTRL (R365): STRM request that sets DTR and RTS. -/
  | strmSetCtrl (f : Fin 128) (n : Fin 64) (count : Word)
  /-- STRM_BREAK (R365): STRM request that sends SEND_BREAK. -/
  | strmBreak (f : Fin 128) (n : Fin 64) (count : Word)
  /-- STRM_PORT_STATUS (R365): STRM request that reads the printer's port status. -/
  | strmPortStatus (f : Fin 128) (n : Fin 64) (count : Word)
  /-- STRM_DEVICE_ID (R365): STRM request that writes the stored printer device ID. -/
  | strmDeviceId (f : Fin 128) (n : Fin 64) (count : Word)
  /-- STRM_SOFT_RESET (R365): STRM request that sends SOFT_RESET and resets the bulk endpoints. -/
  | strmSoftReset (f : Fin 128) (n : Fin 64) (count : Word)
  /-- STRM_RX_CFG (R365): STRM request that sets RXIDLE and RXCHUNK. -/
  | strmRxCfg (f : Fin 128) (n : Fin 64) (count : Word)
  /-- STREAM_JOB (R364): A STREAM_JOB descriptor is consumed and starts a long operation that sends its payload in chunks. -/
  | streamJob (f : Fin 128) (n : Fin 64) (count : Word)
  /-- STRM_RX_DATA (R362): Bytes received on the bulk IN endpoint are gathered and sent as RXDATA at RXCHUNK. -/
  | strmRxData (h : Fin 2048)
  /-- STRM_RXIDLE_EXPIRY (R362): RXIDLE ms after the last byte the gathered RXDATA message is sent. -/
  | strmRxidleExpiry (h : Fin 2048)
  /-- SERIAL_STATE (R362): A SERIAL_STATE notification queues a LINESTATE message. -/
  | serialState (h : Fin 2048)
  /-- JOB_STALL (R364): No byte is acknowledged for STALL ms and a JOB message with STALLED is queued. -/
  | jobStall (h : Fin 2048)
  /-- HLTH_SET_OPTS (R369): HLTH request that sets the heartbeat interval, failure count, AUTORESET and summary interval. -/
  | hlthSetOpts (f : Fin 128) (n : Fin 64) (count : Word)
  /-- HLTH_SNAPSHOT (R369): HLTH request that writes every watched device's counts and alert bits. -/
  | hlthSnapshot (f : Fin 128) (n : Fin 64) (count : Word)
  /-- EVT_CLAIM_READ (R386): A read of EVT_CLAIM claims the highest-ranked claimable source and returns its arrivals. -/
  | evtClaimRead (f : Fin 128)
  /-- EVT_VCLAIM_READ (R386): A read of EVT_VCLAIMv claims among the sources mapped to vector v. -/
  | evtVclaimRead (f : Fin 128) (v : Fin 64)
  /-- EVT_COMPLETE_WRITE (R388): A write to EVT_COMPLETE ends a claimed source or is counted as stray. -/
  | evtCompleteWrite (f : Fin 128) (w : Word)
  /-- EVT_SOURCE_CONFIG_WRITE (R378): A write of a private source's ENABLE, PRIO or VECTOR takes effect or sets CFGERR. -/
  | evtSourceConfigWrite (f : Fin 128) (i : Fin 32) (w : Word)
  /-- EVT_SHARED_CFG_WRITE (R379): A write of a shared source's configuration is judged against its target. -/
  | evtSharedCfgWrite (n : Fin 64) (w : Word) (route : Option Word)
  /-- EVT_SHARED_ROUTE_WRITE (R380): A write of a shared source's TARGET moves its state and counter to the new function. -/
  | evtSharedRouteWrite (n : Fin 64) (w : Word)
  /-- EVT_VCOAL_WRITE (R383): A write of a vector's coalescing count or time takes effect or sets CFGERR. -/
  | evtVcoalWrite (f : Fin 128) (v : Fin 64) (w : Word)
  /-- EVT_GDIS_WRITE (R384): A write of EVT_CTRL.GDIS holds every message of the function, or releases them. -/
  | evtGdisWrite (f : Fin 128) (w : Word)
  /-- COALESCING_TIMER_EXPIRY (R383): A vector's coalescing time expires and it triggers if a mapped source is claimable. -/
  | coalescingTimerExpiry (f : Fin 128) (v : Fin 64)
  /-- GPIO_INPUT_CHANGE (R376): A GPIO's filtered value changes after holding for GFILT µs. -/
  | gpioInputChange (n : Fin 16) (level : Bool)
  /-- AON_LATCH_SET (R376): An always-on latch catches a source change while the fabric island is off. -/
  | aonLatchSet (n : Fin 64) (level : Bool)
  /-- ETHERNET_FRAME_RECEIVED (R400): A received Ethernet frame that fails the acceptance checks is dropped and counted. -/
  | ethernetFrameReceived (i : Fin 2) (f : EthFrame) (hdr : Word)
  /-- CRQ_DATA (R415): A CRQ DATA frame is applied in sequence, or dropped and acknowledged. -/
  | crqData (i : Fin 2) (f : RxFrame)
  /-- CRQ_ACK (R416): A CRQ ACK field frees acknowledged frames, or is refused and counted. -/
  | crqAck (i : Fin 2) (f : RxFrame)
  /-- CRQ_OPEN (R413): A CRQ OPEN frame opens an association, answered with OPEN_ACK or RESET. -/
  | crqOpen (i : Fin 2) (f : RxFrame)
  /-- CRQ_CLOSE (R414): A CLOSE frame from the peer moves the association to DORMANT. -/
  | crqClose (i : Fin 2) (f : RxFrame)
  /-- DOORBELL_RECORD (R408): A DOORBELL record acts as a write to a WQ doorbell slot or to SQPCOUNT. -/
  | doorbellRecord (a : Fin 32) (j : Fin 65536) (q : Byte) (body : List Byte)
  /-- CQCONS_RECORD (R408): A CQCONS record acts as a CQ or admin completion consumer-count write. -/
  | cqconsRecord (a : Fin 32) (j : Fin 65536) (q : Byte) (arg : Word)
  /-- WRITE_RECORD (R410): A WRITE record writes bytes into the function's window. -/
  | writeRecord (a : Fin 32) (j : Fin 65536) (arg : Word) (body : List Byte)
  /-- READ_RECORD (R408): A READ record is answered by READRSP. -/
  | readRecord (a : Fin 32) (j : Fin 65536) (arg : Word) (len : Fin 65536) (tag : Fin 65536)
  /-- REGRD_RECORD (R408): A REGRD record reads a register of the function's page and is answered by REGRSP. -/
  | regrdRecord (a : Fin 32) (j : Fin 65536) (arg : Word) (tag : Fin 65536)
  /-- REGWR_RECORD (R408): A REGWR record writes a register of the function's page. -/
  | regwrRecord (a : Fin 32) (j : Fin 65536) (arg : Word) (w : Word)
  /-- DATA_FRAME_SEND (R418): The Vetia builds and sends a DATA frame of records while the peer's window allows. -/
  | dataFrameSend (k : Fin 32)
  /-- PCS_LINK_STATUS_CHANGE (R401): The PCS link_status changes between OK and FAIL, starting the down or up timer. -/
  | pcsLinkStatusChange (i : Fin 2) (ok : Bool)
  /-- LINK_DOWN_TIMER (R401): link_status FAIL for 50 µs declares the Ethernet link down. -/
  | linkDownTimer (i : Fin 2)
  /-- LINK_UP_TIMER (R401): link_status OK for 10 ms declares the Ethernet link up. -/
  | linkUpTimer (i : Fin 2)
  /-- RETRANSMISSION_TIMEOUT (R418): The retransmission timer expires and the oldest unacknowledged frames are sent again. -/
  | retransmissionTimeout (k : Fin 32)
  /-- ACK_DELAY_EXPIRY (R417): ACKDLY µs after the oldest unacknowledged received frame, an ACK frame is sent. -/
  | ackDelayExpiry (k : Fin 32)
  /-- ASSOCTMO_EXPIRY (R412): ASSOCTMO seconds in STALLED move the association to DORMANT. -/
  | assoctmoExpiry (k : Fin 32)
  /-- SA_INSTALL (R422): A write of SACTL.INSTALL installs the words written to SADATA for the selected SA. -/
  | saInstall (i : Fin 2)
  /-- SA_ENABLE (R422): A write of SACTL.ENABLE puts the selected SA in use. -/
  | saEnable (i : Fin 2) (b : Bool)
  /-- SADATA_WRITE (R422): A write of SADATA stores the next word of the SA being loaded. -/
  | sadataWrite (i : Fin 2) (w : Word)
  /-- ENTRY_DRAIN_TIMEOUT (R448): One ms after entry acceptance, descriptors still in progress complete with
  POWER_CANCELLED. -/
  | entryDrainTimeout (k : Option (Fin 16))
  /-- PCIE_LINK_STATE_CHANGE (R451): The PCIe link reaches L1.2, L2/L3 Ready or L0, which advances an entry or ends a DMA
  hold. -/
  | pcieLinkStateChange (l : LinkSt)
  /-- NAPWAIT_EXPIRY (R451): NAPWAIT passes without L1.2 and NAP is entered with the host island clock-gated. -/
  | napwaitExpiry
  /-- DEEPWAIT_EXPIRY (R447): DEEPWAIT passes without L2/L3 Ready or PERST# and the DEEP entry is abandoned. -/
  | deepwaitExpiry
  /-- SIGNATURES_DONE (R447): DRAM is in self-refresh and the retention signatures are computed, and the closing window
  starts. -/
  | signaturesDone (k : Option (Fin 16))
  /-- SIGNATURE_TIMEOUT (R447): A retention signature is not done within 200 µs and that island or bank is treated as lost
  at exit. -/
  | signatureTimeout (g : SigOf)
  /-- CLOSING_WINDOW_END (R453): The 6-cycle closing window ends and the islands are gated into the target state. -/
  | closingWindowEnd
  /-- PORT_WAKE_EVENT (R455): A wake comparator sees connect, disconnect or K on an armed port and wakes its cluster or the
  device. -/
  | portWakeEvent (p : Fin 128) (k : Bool)
  /-- WAKE_TIMER_ZERO (R456): The wake timer reaches 0, sets TIMER and wakes a sleeping device. -/
  | wakeTimerZero
  /-- PWR_WAKETMR_WRITE (R456): A write of PWR_WAKETMR loads or stops the wake timer. -/
  | pwrWaketmrWrite (w : Word)
  /-- PWR_EXIT_WRITE (R460): A write of PWR_CTRL.EXIT ends DOZE. -/
  | pwrExitWrite
  /-- PERST_ASSERT (R452): PERST# asserted during a NAP or DEEP entry or exit holds DMA instead of resetting. -/
  | perstAssert
  /-- PERST_DEASSERT (R454): PERST# deasserted wakes the device from NAP or DEEP. -/
  | perstDeassert
  /-- CLKREQ_ASSERT (R454): The host asserts CLKREQ# to leave L1.2, which wakes the device from NAP. -/
  | clkreqAssert
  /-- REGULATOR_POWER_GOOD (R459): A regulator's PG arrives and the next exit step starts. -/
  | regulatorPowerGood (r : Fin 4)
  /-- REGULATOR_TIMEOUT (R462): A regulator misses PG within 5 ms and every REG_EN drops, with WAKE_FAIL after three
  retries. -/
  | regulatorTimeout (r : Fin 4)
  /-- REGULATOR_RETRY (R462): Ten ms after a regulator failure, the exit restarts from REG_EN0. -/
  | regulatorRetry
  /-- OSC_OK (R459): The crystal oscillator reports 4,096 clean edges and the PLLs are started. -/
  | oscOk
  /-- OSC_TIMEOUT (R464): OSC_OK does not arrive within 4 ms and the device wakes management-only. -/
  | oscTimeout
  /-- PLL_LOCK (R459): A PLL reports lock during exit or cluster wake. -/
  | pllLock (k : Option (Fin 16))
  /-- PLL_LOCK_TIMEOUT (R459): A PLL does not lock within 200 µs and is retried or its failure branch taken. -/
  | pllLockTimeout (k : Option (Fin 16))
  /-- DRAM_RDY (R459): The DRAM reports ready after self-refresh exit. -/
  | dramRdy (lost : Bool)
  /-- DRAM_RDY_TIMEOUT (R465): DRAM_RDY does not arrive within 200 µs, and the DRAM is retried, then initialised afresh. -/
  | dramRdyTimeout
  /-- ISL_RDY (R459): An island reports ready after its switch closes and its retention check runs. -/
  | islRdy (cls : Fin 9) (k : Fin 144) (lost : List (Fin 9)) (groups : List (Fin 16))
  /-- ISL_RDY_TIMEOUT (R466): An island misses ISL_RDY within 50 µs, is retried once, then handled by its class. -/
  | islRdyTimeout (cls : Fin 9) (k : Fin 144)
  /-- DOZE_ISLAND_IDLE (R460): An island ungated in DOZE is gated again after DOZEIDLE µs idle. -/
  | dozeIslandIdle (cls : Fin 9)
  /-- WAKE_OUT_TIMEOUT (R457): WAKE# is released 1 s after it was asserted. -/
  | wakeOutTimeout
  /-- PG_FALL (R468): A running regulator's PG falls in ACTIVE or DOZE and UNDERVOLT is reported. -/
  | pgFall (r : Fin 4)
  /-- FAULT_MESSAGE_ACCEPT (R475): Beryl accepts one fault message, counts it and makes the source MINOR or SEVERE. -/
  | faultMessageAccept
  /-- FAULT_WINDOW_EXPIRY (R475): A source's counting window expires and its count returns to 0. -/
  | faultWindowExpiry (src : Fin 1024)
  /-- REACTION_TIMER_EXPIRY (R479): A SEVERE source's reaction timer expires and Beryl escalates with the configured action. -/
  | reactionTimerExpiry (src : Fin 1024)
  /-- FAULT_SOURCE_CLEAR (R485): A W1C write to FLT_SRCSTAT clears a source's SEVERE or MINOR and rechecks its cause. -/
  | faultSourceClear (w : Word)
  /-- CLEARALL (R485): A write of FLT_CTRL.CLEARALL clears every source in one fabric cycle. -/
  | clearall
  /-- FAULT_ACTION_WRITE (R480): A write of FLT_SRCACT sets a source's action, or sets CFGERR if the action is not allowed. -/
  | faultActionWrite (w : Word)
  /-- POWER_ON (R611): VDD_AON rises, straps and the Tether address are sampled and the calibration copy is loaded. -/
  | powerOn (strap : Fin 8) (testen : Bool)
  /-- RESET_N_ASSERT (R612): A filtered low pulse on RESET_N gives a device reset. -/
  | resetNAssert (n : Fin 65536)
  /-- RESET_N_RELEASE (R495): RESET_N is released and power-on self-test starts. -/
  | resetNRelease
  /-- POST_STAGE_DONE (R496): A self-test stage ends, its failures are repaired or recorded, and the next stage starts. -/
  | postStageDone (found : PostFound)
  /-- BOOT_IMAGE_READ_DONE (R550): The boot loader has read and checked the flash images and the valid one is in force. -/
  | bootImageReadDone (flash : List Byte) (quad : Bool)
  /-- FUSE_BURN (R504): A TST_FUSECTL write with KEY 0xA5 and BURN starts burning the soft SRAM repairs. -/
  | fuseBurn (w : Word)
  /-- FUSE_BURN_DONE (R504): The repair fuse burn ends and BUSY clears. -/
  | fuseBurnDone
  /-- KEY_HASH_PROG (R549): A GBL_KEYCTL write with KEY 0xC3 and PROG starts burning the image key hash. -/
  | keyHashProg (w : Word)
  /-- KEY_HASH_BURN_DONE (R549): The key hash burn ends and only images signed with that key are valid from then on. -/
  | keyHashBurnDone
  /-- DEBUG_LOCK_BURN (R595): A GBL_DBG write with KEY 0x96 and BURN starts burning the debug lock. -/
  | debugLockBurn (w : Word)
  /-- DEBUG_LOCK_BURN_DONE (R595): The debug lock burn ends, LOCKED sets and the TAP is forced into Test-Logic-Reset. -/
  | debugLockBurnDone
  /-- THERMAL_SAMPLE (R614): The on-die sensors are sampled, asserting or deasserting the warning and reporting THERMAL_CRIT
  at 115 °C. -/
  | thermalSample (t : BitVec 11)
  /-- CAL_WRITE_DONE (R539): A calibration write's programming and read-back end, and the new values take effect or the
  write fails. -/
  | calWriteDone (ok : Bool)
  /-- LNY_VBUS_CHANGE (R524): Service-port VBUS appears or goes, connecting or disconnecting the pull-up. -/
  | lnyVbusChange (b : Bool)
  /-- LNY_SETUP (R522): The service port answers a standard request on its default control endpoint. -/
  | lnySetup (rt : Byte) (rq : Byte) (v : Fin 65536) (i : Fin 65536) (len : Fin 65536)
  /-- LNY_OUT_DATA (R523): An OUT data packet to a bulk endpoint is taken with ACK or NYET, or refused with NAK. -/
  | lnyOutData (ep : Fin 16) (data1 : Bool) (bs : List Byte) (good : Bool)
  /-- LNY_PING (R523): A PING to a bulk OUT endpoint is answered ACK or NAK by buffer space. -/
  | lnyPing (ep : Fin 16)
  /-- LNY_IN_TOKEN (R523): An IN token to a bulk endpoint is answered with buffered data or NAK. -/
  | lnyInToken (ep : Fin 16) (ack : Bool)
  /-- LNY_READ (R527): Service-port command that reads PF BAR0 registers. -/
  | lnyRead
  /-- LNY_WRITE (R527): Service-port command that writes one register of the FLT, PWR or TST block. -/
  | lnyWrite
  /-- LNY_HISTORY (R526): Service-port command that returns the fault history from the mirror. -/
  | lnyHistory
  /-- LNY_CLEAR (R526): Service-port command that clears one or all fault sources. -/
  | lnyClear
  /-- LNY_POWER (R526): Service-port command that acts as POWER_STATE. -/
  | lnyPower
  /-- LNY_RETRY (R526): Service-port command that retries a failed wake. -/
  | lnyRetry
  /-- LNY_RESET (R526): Service-port command that acts as RESET_N after its response. -/
  | lnyReset
  /-- LNY_IDENTIFY (R526): Service-port command that returns the IDENTIFY record. -/
  | lnyIdentify
  /-- LNY_CAL_EXPORT (R526): Service-port command that returns the whole calibration store. -/
  | lnyCalExport
  /-- LNY_CAL_WRITE (R526): Service-port command that writes one calibration record. -/
  | lnyCalWrite
  /-- LNY_IMAGE_STAGE (R526): Service-port command that stages an image. -/
  | lnyImageStage
  /-- LNY_IMAGE_APPLY (R526): Service-port command that applies the staged image. -/
  | lnyImageApply
  /-- TETHER_ADDRESS_MATCH (R531): The Tether decodes its own address without a clock and acknowledges it, or NACKs it in
  the closing window. -/
  | tetherAddressMatch (a : Fin 128)
  /-- TTH_STATUS (R533): Tether command that returns the 8 status bytes. -/
  | tthStatus
  /-- TTH_SELECT (R532): Tether command that sets the register offset for REGDATA. -/
  | tthSelect (w : Word) (pec : Option Bool)
  /-- TTH_REGDATA_READ (R532): Tether command that reads 8 dwords and advances the offset. -/
  | tthRegdataRead
  /-- TTH_REGDATA_WRITE (R532): Tether command that writes one dword of the PWR or TTH block. -/
  | tthRegdataWrite (w : Word) (pec : Option Bool)
  /-- TTH_RESULT (R532): Tether command that returns the last command and its status. -/
  | tthResult
  /-- TTH_POWER (R532): Tether command that acts as POWER_STATE. -/
  | tthPower (st : Byte) (k : Byte) (pec : Option Bool)
  /-- TTH_WAKE (R454): Tether wake command that wakes a sleeping device. -/
  | tthWake (pec : Option Bool)
  /-- TTH_RETRY (R532): Tether command that retries a failed wake. -/
  | tthRetry (pec : Option Bool)
  /-- TTH_CLEAR (R532): Tether command that clears one or all fault sources. -/
  | tthClear (n : Fin 65536) (pec : Option Bool)
  /-- TTH_DOORBELL (R532): Tether command that stores a doorbell value and raises shared source 37. -/
  | tthDoorbell (w : Word) (pec : Option Bool)
  /-- TTH_MAILBOX_READ (R532): Tether command that returns TTH_MAILBOX and clears MBFULL. -/
  | tthMailboxRead
  /-- TTH_RESET (R532): Tether command that acts as RESET_N after the stop condition. -/
  | tthReset (b : Byte) (pec : Option Bool)
  /-- TTH_ALERT_RESPONSE (R535): A read at the Alert Response Address returns the Tether address and releases ALERT#. -/
  | tthAlertResponse
  /-- TTH_FABRIC_TIMEOUT (R534): A register read across to the fabric is not answered within 100 µs and the Tether returns
  0xFF. -/
  | tthFabricTimeout (k : Fin 8)
  /-- TTH_SCL_TIMEOUT (R534): The controller holds SCL low for 25 ms and the Tether abandons the transaction. -/
  | tthSclTimeout
  /-- MAILBOX_WRITE (R535): A PF0 write of TTH_MAILBOX sets MBFULL and drives ALERT# low. -/
  | mailboxWrite (w : Word)
  /-- REGISTER_READ (R14): A read of a register that holds RC fields returns them and clears them, whatever its width. -/
  | registerRead (f : Fin 128) (bar4 : Bool) (off : Fin 0x2000000) (len : Fin 4097)
  /-- LOCKSTEP_MISMATCH (R192): The two scheduler copies disagree on a word, LOCKSTEP_MISMATCH is reported and recovery
  starts or restarts at step 1. -/
  | lockstepMismatch (addr : BitVec 40)
  /-- LOCKSTEP_RELOAD_DONE (R193): Both scheduler copies have reloaded and compared the contexts from SRAM, clearing
  uncorrectable contexts, so plans can resume at the next device edge. -/
  | lockstepReloadDone (lost : List (Fin 16 × Fin 2048))
  /-- LOCKSTEP_RESET_TIMEOUT (R193): The scheduler copies are not reset by 20 µs after the mismatch, UNCORRECTABLE is
  reported and the device enters its safe state. -/
  | lockstepResetTimeout
  /-- IMAGE_STAGE_DONE (R551): The copy of an image into the staging slot and its check end, and IMAGE_STAGE completes with
  SUCCESS or IMAGE. -/
  | imageStageDone
  /-- LNY_BUS_RESET (R520): The host drives a bus reset on the service port, which returns the port to the default address
  and decides its speed. -/
  | lnyBusReset (hs : Bool)
  /-- LNY_BUS_SUSPEND (R558): The host leaves the service port's bus idle and the port enters suspend, with
  LNY_STATUS.SUSPENDED set. -/
  | lnyBusSuspend
  /-- LNY_BUS_RESUME (R558): The host resumes the suspended service-port bus and LNY_STATUS.SUSPENDED clears. -/
  | lnyBusResume
  /-- TCK_EDGE (R594): A TCK edge advances the JTAG TAP controller, loading or updating an instruction that may take the
  pads from the device. -/
  | tckEdge (rising : Bool) (tms : Bool) (tdi : Bool) (trstN : Bool)
  /-- SUPPLY_FALL (R593): VDD_AON, VDD_RET or VDD_DRAM falls below its range, losing the retained state, fault history and
  retained DEVICE values, or the DRAM contents. -/
  | supplyFall (r : Rail)
  /-- CDP_DP_RANGE_EXIT (R256): DP leaves the 0.25–0.8 V range and the port stops driving its CDP level on DM within 10 ms. -/
  | cdpDpRangeExit (p : Fin 128)
  deriving DecidableEq, Repr

end Sys2Proof
end

