-- ==== Sys2Proof/Decode.lean ====
section
/-!
DEFINITION. The commands that words spell. The opcode table gives its rows no bits (the block takes its commands from
outside, and no rule encodes one as a whole), so no word spells a command.
-/
namespace Sys2Proof

/-- The command that the `nbits`-bit word `w` spells by the bits of the opcode table: there is none. (DESIGN CHOICE,
log 218) -/
def decodeTableWord : (nbits w : Nat) → Option Instr := fun _ _ => none

end Sys2Proof
end

