-- ==== Sys2Proof/Machine/Bits.lean ====
section
/-!
DEFINITION. Bit fields, byte order and saturating counts, as R8, R15 and R19 use them.
-/
namespace Sys2Proof.Machine

/-- Bits hi:lo of a word, as a number (R8: both ends included). -/
def bits (w : Word) (hi lo : Nat) : Nat := (w.toNat >>> lo) % 2 ^ (hi + 1 - lo)

/-- One bit of a word. -/
def bit (w : Word) (i : Nat) : Bool := w.getLsbD i

/-- A register word from the numbers of its fields, each with its lowest bit. A field is given within its width. -/
def mkWord (fs : List (Nat × Nat)) : Word :=
  BitVec.ofNat 32 (fs.foldl (fun a f => a + f.1 * 2 ^ f.2) 0)

/-- A flag as a field value. -/
def b2n (b : Bool) : Nat := if b then 1 else 0

/-- Add to a count that saturates at `m`. -/
def satAdd (m a k : Nat) : Nat := min (a + k) m

/-- The four bytes of a word, lowest address first (R19: little-endian). -/
def wordBytes (w : Word) : List Byte :=
  [w.extractLsb' 0 8, w.extractLsb' 8 8, w.extractLsb' 16 8, w.extractLsb' 24 8]

/-- The bytes of a list of words. -/
def wordsBytes (ws : List Word) : List Byte := ws.flatMap wordBytes

/-- The number that a byte string spells, lowest byte first. -/
def bytesNat : List Byte → Nat
  | [] => 0
  | b :: r => b.toNat + 256 * bytesNat r

/-- The word at byte offset `o` of a byte string (bytes past its end read 0). -/
def wordAt (bs : List Byte) (o : Nat) : Word := BitVec.ofNat 32 (bytesNat ((bs.drop o).take 4))

/-- The 16-bit number at byte offset `o`. -/
def halfAt (bs : List Byte) (o : Nat) : Nat := bytesNat ((bs.drop o).take 2)

/-- The byte at offset `o` (0 past the end). -/
def byteAt (bs : List Byte) (o : Nat) : Nat := (bs.getD o 0).toNat

/-- The `n` words of a byte string. -/
def bytesWords (bs : List Byte) (n : Nat) : List Word := (List.range n).map fun i => wordAt bs (4 * i)

/-- The number `v` as `n` bytes, lowest first. -/
def natBytes : Nat → Nat → List Byte
  | 0, _ => []
  | n + 1, v => BitVec.ofNat 8 v :: natBytes n (v / 256)

/-- The 64-bit value of two words, low word first. -/
def addr64 (lo hi : Word) : Addr := hi ++ lo

/-- Dword `i` of a structure. -/
def dw (ws : List Word) (i : Nat) : Word := ws.getD i 0

/-- R13: how many microframes later `a` is than `b`, modulo 2^14. -/
def mfnAfter (a b : Mfn) : Nat := (a - b).toNat

end Sys2Proof.Machine
end

