-- ==== Sys2Proof/Config.lean ====
section
/-!
DEFINITION. What the manual leaves to the implementation or leaves open: opaque constants without a body, so that
nothing can be proved of their values (log entries 3 and 4).
-/
namespace Sys2Proof.Config

/-- R257 leaves open which of the never-used handles is assigned first: a free rank for the k-th choice. -/
opaque freeHandle : Nat → Nat

/-- R186 leaves open the 0 to 2 bit times added to a minimum gap. -/
opaque freeGap : Nat → Nat

/-- R30: the bytes an express buffer holds after a failed CRC16 check are undefined data. -/
opaque freeByte : Nat → BitVec 8

/-- R46: the Device Serial Number is unique per part and comes from fuses. (DESIGN CHOICE, log 4) -/
opaque serialNumber : BitVec 64

/-- R536: the factory's calibration values are the part's own: a free number for a record type and a field. -/
opaque factoryCal : Nat → Nat → Nat

/-- A value that the manual does not state, by the number of its use. -/
opaque freeNat : Nat → Nat

/-- R594: IEEE 1149.1 fixes the two low bits that Capture-IR loads; the six others are the part's own. -/
opaque irCapture : BitVec 6

end Sys2Proof.Config
end

