-- ==== Sys2Proof/Machine/State.lean ====
section
/-!
DEFINITION. The state of the block as plain data, and the state after reset. Every field's docstring gives what it is,
its width, the rules that name it and its reset value.
-/
namespace Sys2Proof.Machine

/-! ### The event controller (chapter 11) -/

/-- The four states of a source (R377). -/
inductive SrcState where
  | idle | pending | active | activePending
  deriving DecidableEq, Repr

/-- The senses of R374. -/
inductive Sense where
  | levelHigh | levelLow | edgeRise | edgeFall | edgeBoth
  deriving DecidableEq, Repr

/-- One source: what private and shared sources have in common (R375, R377, R378, R397). -/
structure Src where
  /-- EVT_SRCi_CFG.ENABLE / EVT_SHs_CFG.ENABLE | 1 | R397, R398 | 0 -/
  enable : Bool := false
  /-- PRIO | 4 | R397, R398 | 0 -/
  prio : Nat := 0
  /-- VECTOR | 6 | R397, R398 | 0 -/
  vector : Nat := 0
  /-- STATE | 2 | R377, R397 | IDLE -/
  st : SrcState := .idle
  /-- ARRIVALS | 8 | R375, R397 | 0 -/
  arrivals : Nat := 0
  /-- INPUT, the present input value | 1 | R397, R398 | 0 -/
  input : Bool := false
  deriving DecidableEq, Repr

/-- One vector engine's coalescing state (R383, R396). -/
structure Vec where
  /-- EVT_VCOALv.COUNT | 8 | R396 | 1 -/
  count : Nat := 1
  /-- EVT_VCOALv.TIME in µs | 10 | R396 | 0 -/
  time : Nat := 0
  /-- EVT_VCOALv.CNT, the running count C | 8 | R383, R396 | 0 -/
  c : Nat := 0
  /-- the coalescing timer runs | 1 | R383 | 0 -/
  timer : Bool := false
  /-- the vector is marked due | 1 | R384 | 0 -/
  due : Bool := false
  deriving DecidableEq, Repr

/-- The private bank of a function (R396, R397). -/
structure EvtBank where
  /-- the 32 private sources | 32 entries | R372, R397 | as Src -/
  src : Tab Src := []
  /-- the vectors' coalescing state | 64 or 16 entries | R383, R396 | as Vec -/
  vec : Tab Vec := []
  /-- EVT_CTRL.GDIS | 1 | R396 | 0 -/
  gdis : Bool := false
  /-- EVT_CTRL.RLOST | 1 | R396 | 0 -/
  rlost : Bool := false
  /-- EVT_CTRL.CFGERR | 1 | R396 | 0 -/
  cfgerr : Bool := false
  /-- EVT_STRAY.STRAY | 16, RC | R389, R396 | 0 -/
  stray : Nat := 0
  deriving DecidableEq, Repr

/-- One shared source (R373, R398). -/
structure ShSrc where
  /-- the settings and state every source has -/
  src : Src := {}
  /-- EVT_SHs_CFG.WAKE | 1 | R398 | 0 -/
  wake : Bool := false
  /-- EVT_SHs_CFG.SENSE | 3 | R373, R398 | by source, R373 -/
  sense : Sense := .levelHigh
  /-- EVT_SHs_ROUTE.TARGET | 7 | R379, R398 | 0 (PF0) -/
  target : Nat := 0
  /-- EVT_SHs_ROUTE.CLAIMER | 7 | R380, R398 | 0 -/
  claimer : Nat := 0
  /-- EVT_SHs_STAT.LATCHED | 1 | R376, R398 | 0 -/
  latched : Bool := false
  deriving DecidableEq, Repr

/-- R373: the sources whose input is a pulse, with their sense fixed at EDGE_RISE: cluster power faults, Tether
doorbell, calibration store and self-test done. -/
def ShSrc.isPulse (s : Nat) : Bool := s < 16 || s == 37 || s == 39 || s == 40

/-- R373: a shared source at reset, with the sense the table gives it. Sources 41 to 63 have no input. -/
def ShSrc.dflt (s : Nat) : ShSrc :=
  { sense := if ShSrc.isPulse s then .edgeRise
      else if s == 35 || s == 36 || s == 38 then .edgeBoth else .levelHigh }

/-- The shared block (R376, R398). -/
structure EvtShared where
  /-- the 64 shared sources | 64 entries | R373, R398 | by source, R373 -/
  src : Tab ShSrc := []
  /-- EVT_SH_CTRL.GFILT | 4 | R398 | 2 -/
  gfilt : Nat := 2
  /-- the always-on latches that are set, by source, ascending | R376 | none -/
  latches : List Nat := []
  deriving DecidableEq, Repr
/-! ### What the block emits -/

/-- An error logged in a function's AER registers (R38, R40, R49, R501, R618). -/
inductive AerErr where
  | unsupportedRequest | completerAbort | completionTimeout | poisonedTlp | uncorrectableInternal
  deriving DecidableEq, Repr

/-- What a frame of the Coroon Remote Queue protocol is (R407). -/
inductive CrqKind where
  | data | ack | open_ | openAck | close | reset
  deriving DecidableEq, Repr

/-- One record of a CRQ DATA frame as it goes out or comes in (R408, R409). -/
structure CrqRec where
  /-- RTYPE | 8 | R408 -/
  rtype : Nat
  /-- Q | 8 | R408 -/
  q : Nat
  /-- ARG | 32 | R408 -/
  arg : Word
  /-- the body, RLEN bytes | R409 -/
  body : List Byte
  deriving DecidableEq, Repr

/-- A CRQ frame as it goes out (R407). -/
structure CrqFrame where
  kind : CrqKind
  assoc : Nat
  seq : Word
  ack : Word
  /-- WIN; in a RESET, the reason -/
  win : Nat
  recs : List CrqRec := []
  /-- the Ethernet header's addresses | 2 x 48 | R400, R413, R420 -/
  da : Nat := 0
  sa : Nat := 0
  /-- the VLAN tag: PCP and VID | R402 -/
  tag : Option (Nat × Nat) := none
  /-- the SecTAG: AN and PN | R402 -/
  sec : Option (Nat × Nat) := none
  deriving DecidableEq, Repr

/-- A packet or signal on a root port's bus, as the port engine sends it (chapter 06). -/
inductive UsbOut where
  | sof (mfn : Mfn) | keepAlive
  | token (pid : Nat) (addr ep : Nat)
  | data (pid : Nat) (payload : List Byte)
  | handshake (pid : Nat)
  | split (start : Bool) (hub port : Nat) (addr ep : Nat)
  | pre
  | lpm (addr : Nat) (besl : Nat) (remoteWake : Bool)
  | se0 | driveK | chirpK | chirpStop | lsEop | idle | testMode (m : Nat) | cdp (on : Bool)
  deriving DecidableEq, Repr

/-- One item the block emits on a link, a bus or a ball. The list of them stands in the order of the emissions. -/
inductive Out where
  /-- a posted memory write of function `fn` (R47, R48, R78) -/
  | memWrite (fn : Nat) (addr : Addr) (data : List Byte) (noSnoop : Bool)
  /-- a memory read request of function `fn` (R47, R90, R132) -/
  | memRead (fn : Nat) (addr : Addr) (len : Nat) (noSnoop : Bool)
  /-- the MSI-X message of an entry (R384) -/
  | msix (fn vec : Nat) (addr : Addr) (data : Word)
  /-- the bytes a read of a register or of a BAR returns (R14, R38) -/
  | readData (bs : List Byte)
  /-- a completion with Unsupported Request status (R38, R618) -/
  | unsupported (fn : Nat)
  /-- a PM_PME message (R391) -/
  | pmPme
  /-- an ERR_FATAL message (R501) -/
  | errFatal
  /-- WAKE# driven low or released (R391, R457) -/
  | wakeN (low : Bool)
  /-- a packet or signal on root port `p` -/
  | usb (p : Nat) (u : UsbOut)
  /-- a port power link frame of cluster `c` (R236): TYPE, EN and ILIM -/
  | ppl (c : Nat) (type en ilim : Nat)
  /-- a CRQ frame on Ethernet port `i` -/
  | crq (i : Nat) (f : CrqFrame)
  /-- a control word sent again across a crossing (R24) -/
  | resend
  /-- a data packet on service-port endpoint `ep`, IN direction, DATA1 or DATA0; a handshake by its name -/
  | lny (ep : Nat) (data1 : Bool) (bs : List Byte)
  | lnyHs (ep : Nat) (name : String)
  /-- bytes the Tether returns; ACK or NACK of its address -/
  | tth (bs : List Byte)
  | tthAck (ack : Bool)
  /-- ALERT# driven low or released (R535) -/
  | alertN (low : Bool)
  /-- a QSPI flash read is started (R550) -/
  | flashRead (slot : Nat)
  /-- PM link request or other link action by name (R451, R457) -/
  | link (name : String)
  deriving DecidableEq, Repr

/-- Who gave a power command (R447, R526, R532). -/
inductive PwrWho where
  | admin | tether | lanyard
  deriving DecidableEq, Repr
/-! ### The PCIe endpoint and the functions (chapters 01 and 02) -/

/-- PCIe core and SR-IOV state (R46, R52, R75, R391, R618). -/
structure Pci where
  /-- VF Enable | 1 | R52, R55 | 0 (PCIe, PRESUMED log 5) -/
  vfEnable : Bool := false
  /-- VF Memory Space Enable | 1 | R618 | 0 (PCIe, PRESUMED log 5) -/
  vfMse : Bool := false
  /-- NumVFs | 16 | R52 | 0 (PCIe, PRESUMED log 5) -/
  numVfs : Nat := 0
  /-- System Page Size, in units of 4 KiB as the bitmask gives it | 32 | R52 | 1 (PCIe, PRESUMED log 5) -/
  sysPage : Nat := 1
  /-- PF0 power state is D3hot | 1 | R46, R391 | 0 (D0) -/
  d3hot : Bool := false
  /-- PME_En | 1 | R391 | 0 (PCIe, PRESUMED log 5) -/
  pmeEn : Bool := false
  /-- the link's state | R451, R457, R498 | down: it does not train before self-test's stage 4 has ended -/
  link : LinkSt := .down
  /-- PERST# asserted | 1 | R452 | 0 -/
  perst : Bool := false
  /-- DMA of every function held for PERST# during a NAP or DEEP transition | 1 | R75, R452 | 0 -/
  holdPerst : Bool := false
  /-- DMA of every function held until the link reaches L0 after a DEEP exit | 1 | R75, R457 | 0 -/
  holdLink : Bool := false
  /-- Max Payload Size in bytes, of PF0 | R48 | 128 (PCIe, PRESUMED log 5) -/
  mps : Nat := 128
  /-- Max Read Request Size in bytes, of PF0 and so of the VFs | R48 | 512 (PCIe, PRESUMED log 5) -/
  mrrs : Nat := 512
  deriving DecidableEq, Repr

/-- One MSI-X table entry (R42, R53, R54) and its PBA bit (R384). -/
structure MsixEntry where
  /-- message address | 64 | R42 | 0 (PCIe leaves it open; DESIGN CHOICE log 5) -/
  addr : Addr := 0#64
  /-- message data | 32 | R42 | 0 (as the address) -/
  data : Word := 0#32
  /-- vector control, Mask | 1 | R384 | 1 (PCIe, PRESUMED log 5) -/
  mask : Bool := true
  /-- the entry's PBA bit | 1 | R384 | 0 -/
  pba : Bool := false
  deriving DecidableEq, Repr

/-- An admin completion to be written (R426). -/
structure AdminCpl where
  /-- CID of the command | 16 | R424 -/
  cid : Nat
  /-- OPCODE | 8 | R426 -/
  opcode : Nat
  /-- STATUS | 8 | R427 -/
  status : Nat
  /-- DETAIL | 32 | R426 -/
  detail : Word := 0#32
  /-- OPID | 16 | R426, R436 -/
  opid : Nat := 0
  /-- MFN of the decision | 14 | R426 -/
  mfn : Mfn := 0#14
  /-- OUT0 to OUT10 | 11 x 32 | R426 -/
  outs : List Word := []
  deriving DecidableEq, Repr

/-- The admin queue of a function (R122 to R125). -/
structure Aq where
  /-- Q_AQ_SQBASE | 64 | R122 | 0 -/
  sqBase : Addr := 0#64
  /-- Q_AQ_CQBASE | 64 | R122 | 0 -/
  cqBase : Addr := 0#64
  /-- Q_AQ_CFG.SQLOG2 | 5 | R122 | 0 -/
  sqLog : Nat := 0
  /-- Q_AQ_CFG.CQLOG2 | 5 | R122 | 0 -/
  cqLog : Nat := 0
  /-- Q_AQ_CFG.ENABLE | 1 | R122 | 0 -/
  enable : Bool := false
  /-- the AQ has been enabled with good sizes and is not yet READY | 1 | R123 | 0 -/
  starting : Bool := false
  /-- Q_AQ_STATUS.READY | 1 | R122 | 0 -/
  ready : Bool := false
  /-- Q_AQ_STATUS.STOPPED | 1 | R122 | 0 -/
  stopped : Bool := false
  /-- Q_AQ_STATUS.ERR | 4 | R122 | 0 -/
  err : Nat := 0
  /-- Q_AQ_STATUS.BADCONS | 1 | R122 | 0 -/
  badcons : Bool := false
  /-- observed submission producer count | 32 | R124 | 0 -/
  sqP : Word := 0#32
  /-- Q_AQ_SQCOUNT, submission consumer count | 32 | R122 | 0 -/
  sqC : Word := 0#32
  /-- Q_AQ_CQCOUNT, completion producer count | 32 | R122 | 0 -/
  cqP : Word := 0#32
  /-- completion consumer count | 32 | R124 | 0 -/
  cqC : Word := 0#32
  /-- a command read is outstanding | 1 | R125 | 0 -/
  reading : Bool := false
  /-- reads of the present entry that showed the wrong PHASE | 2 | R92, R124 | 0 -/
  rereads : Nat := 0
  /-- the command now carried out: its 16 dwords | R425 | none -/
  running : Option (List Word) := none
  /-- its effect has begun and it waits for its end | R428 | 0 -/
  begun : Bool := false
  /-- completion slots reserved for running long operations' completions | R428 | 0 -/
  slots : Nat := 0
  /-- completions held while DMA is held, oldest first | R75, R125 | none -/
  held : List AdminCpl := []
  /-- attach messages are owed at the next enable | 1 | R73 | 0 -/
  owed : Bool := false
  /-- how often ENABLE has gone from 1 to 0 | the model's own number | R123 | 0 -/
  epoch : Nat := 0
  /-- `epoch` when the last command was fetched: of one fetched before, the completion is discarded | the model's own number | R123 | 0 -/
  cmdEpoch : Nat := 0
  deriving DecidableEq, Repr

/-- A homed function's window (R403, R404). -/
structure Home where
  /-- association slot | 5 | R403 -/
  assoc : Nat
  /-- WPAGES | 13 | R403 -/
  pages : Nat
  /-- the window's bytes by offset; an unlisted byte reads 0 (zero-filled) | R403, R404 | 0 -/
  mem : List Host.Cell := []
  /-- the window offsets of poisoned 8-byte words | R421 | none -/
  poison : List Nat := []
  deriving DecidableEq, Repr

/-- One PCIe function (R60 to R63, R74, R75, R488). -/
structure Fun where
  /-- Bus Master Enable | 1 | R75 | 0 (PCIe, PRESUMED log 5) -/
  bme : Bool := false
  /-- MSI-X Enable | 1 | R384 | 0 (PCIe, PRESUMED log 5) -/
  msixEn : Bool := false
  /-- Function Mask | 1 | R384 | 0 (PCIe, PRESUMED log 5) -/
  fmask : Bool := false
  /-- the MSI-X table and PBA | 64 or 16 entries | R42, R53 | as MsixEntry -/
  msix : Tab MsixEntry := []
  /-- AER: the errors logged, oldest first | R40, R46, R49 | none -/
  aer : List AerErr := []
  /-- Transactions Pending, an FLR is not complete | 1 | R74 | 0 -/
  transPend : Bool := false
  /-- a function reset is not complete | 1 | R74 | 0 -/
  resetting : Bool := false
  /-- FN_CTRL.NOSNOOP_EN | 1 | R61 | 0 -/
  nosnoop : Bool := false
  /-- FN_STATUS.LOST | 16, RC | R62 | 0 -/
  lost : Nat := 0
  /-- FN_STATUS.RESET_DONE | 1 | R62 | 0 -/
  resetDone : Bool := false
  /-- FN_STATUS.OWNCHG | 1 | R62 | 0 -/
  ownchg : Bool := false
  /-- FN_STATUS.RESHAPED | 1 | R62 | 0 -/
  reshaped : Bool := false
  /-- FN_ALLOC.VECTORS | 7 | R56, R63 | 64 for PF0, 0 for a VF that does not exist -/
  vectors : Nat := 0
  /-- FN_ALLOC.CQS | 5 | R56, R63 | 16 for PF0, else 0 -/
  cqs : Nat := 0
  /-- FN_ALLOC.WQS | 7 | R56, R63 | 64 for PF0, else 0 -/
  wqs : Nat := 0
  /-- FN_QUOTA.SHARE | 8 | R56, R63 | 16 for PF0, else 0 -/
  share : Nat := 0
  /-- FN_QUOTA.CELLS | 18 | R56, R63 | for PF0 every pool cell not held as a reserve, else 0 -/
  cells : Nat := 0
  /-- arbitration weight | 8 | R104, R105 | 16 -/
  weight : Nat := 16
  /-- arbitration burst | 7 | R104, R105 | 8 -/
  burst : Nat := 8
  /-- a weight and burst set but not yet in effect (next refill) | R105 | none -/
  nextArb : Option (Nat × Nat) := none
  /-- arbitration credit | 8 | R104, R619 | 16 -/
  credit : Nat := 16
  /-- reads of the present turn | 7 | R104 | 0 -/
  used : Nat := 0
  /-- the function's current WQ pointer | 6 | R104 | 0 (DESIGN CHOICE log 6) -/
  wqPtr : Nat := 0
  /-- FN_FAULT0 KIND, SOURCE, MFN | 30 | R488 | 0 -/
  fltKind : Nat := 0
  fltSource : Nat := 0
  fltMfn : Mfn := 0#14
  /-- FN_FAULT1.COUNT | 16, RC | R488 | 0 -/
  fltCount : Nat := 0
  /-- the private event bank | R396, R397 | as EvtBank -/
  evt : EvtBank := {}
  /-- the admin queue | R122 | as Aq -/
  aq : Aq := {}
  /-- homing: FN_ID.NETHOMED and the window | R60, R403 | none -/
  home : Option Home := none
  /-- DSP_FNf.PLACED | 32, RC | R330 | 0 -/
  placed : Nat := 0
  /-- the dispatcher's credit of the function | 8 | R316 | 0 -/
  dspCredit : Nat := 0
  deriving DecidableEq, Repr

/-- R274 and R302: the pool's cells with the reset partition (POOLMB 204, 1,024-byte cells). -/
def poolCellsReset : Nat := 204 * 1024

/-- R56: the functions at device reset; PF0 holds all its vectors, WQs, CQs and every unreserved cell. -/
def Fun.dflt (f : Nat) : Fun :=
  if f = 0 then { vectors := 64, cqs := 16, wqs := 64, share := 16, cells := poolCellsReset } else {}

/-- The free stock (R55, R56). -/
structure Stock where
  /-- vector engines no function holds | R56 | 1,984 -/
  vectors : Nat := 1984
  /-- WQs no function holds | R56 | 4,032 -/
  wqs : Nat := 4032
  /-- CQs no function holds | R56 | 1,008 -/
  cqs : Nat := 1008
  /-- pool cells no function holds | R56 | 0 -/
  cells : Nat := 0
  /-- lane share returned to the stock | R55, R56 | 0 -/
  share : Nat := 0
  deriving DecidableEq, Repr

/-- The ownership of one port (R57, R64, R65). -/
structure PortOwn where
  /-- GBL_PORTOWN.OWNER | 7 | R65 | 0 -/
  owner : Nat := 0
  /-- GBL_PORTOWN.MOVING | 1 | R65 | 0 -/
  moving : Bool := false
  /-- the cut of the move is past | 1 | R64, R68 | 0 -/
  cut : Bool := false
  /-- the source was reset during the move: it gets no detach messages | 1 | R71 | 0 -/
  noDetach : Bool := false
  deriving DecidableEq, Repr
/-! ### Queues and descriptors in progress (chapters 03 and 04) -/

/-- A work descriptor: its 8 dwords (R128). -/
abbrev Desc := List Word

/-- What a WQ is bound to (R82): an endpoint context or a service instance, by handle. -/
inductive Binding where
  | ep (h : Nat) | svc (h : Nat) | none
  deriving DecidableEq, Repr

/-- Notification modes (R93, R94, R98). -/
inductive WqMode where
  | poll | doorbell | push
  deriving DecidableEq, Repr

/-- A decided completion (R111), less the ring's own fields. -/
structure Cpl where
  /-- SLOT | 16 | R111 -/
  slot : Nat
  /-- WQ | 6 | R111 -/
  wq : Nat
  /-- STATUS | 8 | R159 -/
  status : Nat
  /-- LENGTH | 26 | R111 -/
  length : Nat
  /-- MFN of the decision | 14 | R111 -/
  mfn : Mfn
  /-- STAGE | 4 | R111, R141 -/
  stage : Nat
  /-- EVENT | 1 | R114 -/
  event : Bool
  /-- EXPRESS | 1 | R147 -/
  express : Bool
  /-- WQCOUNT | 32 | R111 -/
  count : Word
  /-- DETAIL0 | 32 | R158, R160 -/
  d0 : Word
  /-- DETAIL1 | 32 | R158, R160 -/
  d1 : Word
  /-- the spill entry's word is poisoned | R298 -/
  poison : Bool := false
  deriving DecidableEq, Repr

/-- One packet of an isochronous descriptor (R148, R152). -/
structure IsoPkt where
  /-- OFFSET | 32 | R148 -/
  offset : Word
  /-- the LEN the host wrote, REQLEN | 13 | R149 -/
  req : Nat
  /-- PSTAT, once decided | 5 | R152 -/
  pstat : Option Nat := none
  /-- LEN transferred | 13 | R148 -/
  len : Nat := 0
  /-- DELAY | 8 | R148 -/
  delay : Nat := 0
  deriving DecidableEq, Repr

/-- A descriptor fetched and not yet completed (R91, R133). -/
structure Xfer where
  /-- WQCOUNT at which it stands | 32 | R111 -/
  count : Word
  /-- its 8 dwords | R128 -/
  d : Desc
  /-- bytes transferred | 26 | R142, R145 -/
  done : Nat := 0
  /-- bytes of OUT data fetched, or of IN data written to host memory, so far | 26 | R283 -/
  moved : Nat := 0
  /-- stage of a control transfer | 4 | R141 -/
  stage : Nat := 0
  /-- LASTPID | 8 | R160 -/
  lastPid : Nat := 0
  /-- ERRCNT | 8 | R160 -/
  errs : Nat := 0
  /-- NAKS | 16 | R160 -/
  naks : Nat := 0
  /-- OVERRUN | 1 | R142, R160 -/
  overrun : Bool := false
  /-- the microframes left of TMO, once its timer runs | R144 -/
  tmo : Option Nat := none
  /-- it has started: it is the descriptor in progress | R133 -/
  started : Bool := false
  /-- the zero-length packet at its end has been sent | R145 -/
  zlpSent : Bool := false
  /-- the index table's entries read so far, from entry 0 | R134, R135 -/
  index : List Word := []
  /-- the packet list's entries read so far | R148, R150 -/
  pkts : List IsoPkt := []
  /-- the packet the next service slot serves | 13 | R151 -/
  pkt : Nat := 0
  /-- the MFN of the next isochronous service slot, once set | R151 -/
  slotAt : Option Mfn := none
  /-- packets given to service slots so far | 13 | R151 | 0 -/
  planned : Nat := 0
  /-- an outside cause decided while its transaction is on the wire | 8 | R161 | none -/
  cause : Option Nat := none
  /-- INLINE data taken with a pushed entry | R100 -/
  inline : Option (List Byte) := none
  /-- it runs on the express path | R147, R562 -/
  express : Bool := false
  /-- its completion has been decided, and the completion's MFN is that of the decision | 1 | R111 | 0 -/
  decided : Bool := false
  /-- its result, decided and waiting for its turn or its last data write | R113 -/
  result : Option Cpl := none
  /-- bytes of a service request's OUT data that have been fetched | R306 -/
  payload : List Byte := []
  /-- the service request has been given to its service and runs | R337 -/
  svcRun : Bool := false
  /-- a phase counter of the service request, by its service | R346 to R369 -/
  svcPhase : Nat := 0
  deriving DecidableEq, Repr

/-- One work queue (R82 to R110, R126). -/
structure Wq where
  /-- LOG2SIZE | 5 | R84, R126 -/
  log2 : Nat
  /-- ring base | 64 | R84 -/
  base : Addr
  /-- MODE | 2 | R126 -/
  mode : WqMode
  /-- POLLIV | 8 | R96 -/
  pollIv : Nat := 0
  /-- weight | 8 | R104 -/
  weight : Nat := 1
  /-- burst | 7 | R104 -/
  burst : Nat := 1
  /-- CQ | 4 | R126 -/
  cq : Nat
  /-- the binding | R82 -/
  bind : Binding
  /-- p_obs | 32 | R94 | 0 -/
  pobs : Word := 0#32
  /-- consumer count | 32 | R85 | 0 -/
  ccount : Word := 0#32
  /-- STOPPED | 1 | R110 | 0 -/
  stopped : Bool := false
  /-- ERR | 4 | R110 | 0 -/
  err : Nat := 0
  /-- a poll is due | 1 | R93, R96 | 1 in POLL mode -/
  pollDue : Bool := false
  /-- a ring read is outstanding | 1 | R91 | 0 -/
  reading : Bool := false
  /-- reads of the present entry that showed the wrong PHASE | 2 | R92 | 0 -/
  rereads : Nat := 0
  /-- the next read is a poll's or re-read's own, outside the published counts | R92, R93 | 0 -/
  rereadDue : Bool := false
  /-- arbitration credit | 8 | R104, R619 | the weight -/
  credit : Nat := 0
  /-- reads of the present turn | 7 | R104 | 0 -/
  used : Nat := 0
  /-- slot buffer bytes 0x20 to 0x7F written since the last accepted PCOUNT | R98 | none -/
  slotBuf : Tab Byte := []
  /-- descriptors fetched and not yet completed, in WQCOUNT order | R91, R133 | none -/
  work : List Xfer := []
  /-- Q_WQn_MISSED.MISSED | 16, RC | R126 | 0 -/
  missed : Nat := 0
  /-- its remaining published entries are drained as RESHAPED | R68, R70 | 0 -/
  draining : Bool := false
  /-- it is being deleted: by a DELETE_WQ that waits (true) or by a withdrawal (false) | R70, R108 | none -/
  deleting : Option Bool := none
  /-- descriptors that the DELETE_WQ which runs has completed CANCELLED: OUT0 | R108, R430 | 0 -/
  ended : Nat := 0
  /-- no fetch: a port move holds it | R68 | 0 -/
  moveHold : Bool := false
  /-- no fetch: its port is suspended by host command | R159 SUSPENDED | 0 -/
  suspHold : Bool := false
  deriving DecidableEq, Repr

/-- One completion queue (R107, R111 to R121, R127). -/
structure Cq where
  /-- LOG2SIZE | 5 | R127 -/
  log2 : Nat
  /-- ring base | 64 | R84 -/
  base : Addr
  /-- producer count | 32 | R127 | 0 -/
  pcount : Word := 0#32
  /-- consumer count | 32 | R127 | 0 -/
  ccount : Word := 0#32
  /-- SIZE of the spill area | 13 | R107, R127 -/
  spillSize : Nat := 256
  /-- the spill area, oldest first | R116 | empty -/
  spill : List Cpl := []
  /-- PEAK | 13, RC | R127 | 0 -/
  peak : Nat := 0
  /-- HELD | 1 | R118 | 0 -/
  held : Bool := false
  /-- BADCONS | 1 | R115 | 0 -/
  badcons : Bool := false
  /-- counts of the ring's unconsumed entries with EVENT 1 | R114 | none -/
  events : List Word := []
  /-- it is being deleted: by a DELETE_CQ that waits (true) or by a withdrawal (false) | R70, R109 | none -/
  deleting : Option Bool := none
  deriving DecidableEq, Repr
/-! ### Bowline and the port engines (chapters 05 and 06) -/

/-- Bus speeds. -/
inductive Speed where
  | low | full | high
  deriving DecidableEq, Repr

/-- The states of a port (R200). -/
inductive PortSt where
  | off | disconnected | connecting | resetting | enabled | suspended | resuming | l1 | l1Resuming | disabled | isolated | test
  deriving DecidableEq, Repr

/-- PRT_STATUS.STATE (R200). -/
def PortSt.code : PortSt → Nat
  | .off => 0
  | .disconnected => 1
  | .connecting => 2
  | .resetting => 3
  | .enabled => 4
  | .suspended => 5
  | .resuming => 6
  | .l1 => 7
  | .l1Resuming => 8
  | .disabled => 9
  | .isolated => 10
  | .test => 11

/-- What one item of a plan sends (R171). -/
inductive ItemKind where
  /-- a service of an endpoint reached without a transaction translator -/
  | service
  /-- a start-split, the `i`-th of an isochronous OUT -/
  | startSplit (i : Nat)
  /-- a complete-split; `last` for the last one of its sequence -/
  | completeSplit (last : Bool)
  deriving DecidableEq, Repr

/-- One item of a plan (R171). -/
structure PlanItem where
  /-- endpoint context -/
  ep : Nat
  kind : ItemKind
  /-- the nominal MFN of the service it belongs to | 14 | R188 -/
  nom : Mfn
  /-- the packet of an isochronous descriptor it serves | 13 | R151 -/
  pkt : Nat := 0
  /-- transactions of the service begun so far | R210 -/
  pos : Nat := 0
  deriving DecidableEq, Repr

/-- A plan (R170, R171). -/
structure Plan where
  /-- the microframe it is for | 14 | R170 -/
  mfn : Mfn
  items : List PlanItem := []
  /-- the channels of its asynchronous window | at most 32 | R171 -/
  window : List Nat := []
  deriving DecidableEq, Repr

/-- What a transaction is (R175, R177, R209, R211, R223). -/
inductive TxnKind where
  | setup | in_ | out | ping | isoIn | isoOut | startSplit | completeSplit | lpm
  deriving DecidableEq, Repr

/-- What the engine waits for on the wire (R204, R205). -/
inductive TxnWait where
  /-- the response timer runs -/
  | response
  /-- a SYNC has been reported -/
  | packet
  /-- the timer has expired; a late packet's EOP is awaited -/
  | late
  deriving DecidableEq, Repr

/-- The transaction on the wire (R176, R204). -/
structure Txn where
  /-- endpoint context (the port's own number of R223's LPM: 0xFFFF) -/
  ep : Nat
  kind : TxnKind
  wait : TxnWait := .response
  /-- the payload bytes the Vetia sent -/
  sent : Nat := 0
  /-- it ends an item of a plan, taken from the list -/
  item : Option PlanItem := none
  /-- it was started in the asynchronous window -/
  async : Bool := false
  /-- its descriptor was abandoned while it was on the wire (R73) -/
  dead : Bool := false
  deriving DecidableEq, Repr

/-- What the answer to one of ENUM's requests is used for (R258 to R260, R266). -/
inductive EnumUse where
  /-- nothing but its success -/
  | none
  /-- the first 8 bytes of the device descriptor, all 18, the head of the configuration set, the set (R258 steps 2 to 5) -/
  | desc8 | desc18 | cfgHead | cfgSet
  /-- SET_ADDRESS has been accepted (R258 step 3, R260) -/
  | address (a : Nat)
  /-- the BOS set, the LANGIDs, the serial string (R258 steps 6 and 7) -/
  | bos | langs | serial
  /-- SET_CONFIGURATION, SET_FEATURE(DEVICE_REMOTE_WAKEUP), SET_INTERFACE (R258 step 9, R266) -/
  | config (v : Nat) | wake | altSet (iface alt : Nat)
  /-- the hub descriptor, multi-TT operation (R259 step 2) -/
  | hubDesc | multiTt
  /-- a reading of a hub port: its changes, its debounce, the end of its reset, the end of its resume (R259, R266) -/
  | changes | debounce | resetEnd | resumeEnd
  /-- the descriptors compared after a reset (R260) -/
  | sameDesc | sameCfg
  /-- the head or the whole of configuration `i` in the search of SET_CONFIG (R266) -/
  | findHead (i : Nat) | findSet (i : Nat)
  /-- CLEAR_FEATURE(ENDPOINT_HALT) of a context (R266) -/
  | cleared (ep : Nat)
  deriving DecidableEq, Repr

/-- One action of ENUM's work on a port: the list of them is the work still to do, its head in progress (R258 to R260). -/
inductive EnumAct where
  /-- a control request on the default control endpoint of device `dev` under a step of R258; `soft`: its failure is
  passed over -/
  | req (step dev : Nat) (s0 s1 : Word) (use : EnumUse) (soft : Bool)
  /-- a wait of so many ms -/
  | wait (ms : Nat)
  /-- admission and attachment of the device enumerated (R258 steps 8 to 11) -/
  | admission | attach
  /-- the restoration of a device begins (R260) -/
  | next (dev : Nat)
  /-- the job ends well -/
  | finish
  deriving DecidableEq, Repr

/-- A job of ENUM on a port. A position is a hub handle and hub port; none for the root port. -/
inductive EnumJob where
  /-- enumerate the device at a position that has been reset; the REASON of its ATTACH (R264); its speed -/
  | fresh (at_ : Option (Nat × Nat)) (reason : Nat) (speed : Option Speed)
  /-- reset the position first (R195) -/
  | position (at_ : Option (Nat × Nat)) (reason : Nat)
  /-- restore these devices, hubs first; for a DEV_RESET of a function, or none (R260, R266) -/
  | restore (devs : List Nat) (req : Option (Nat × Nat × Word))
  /-- reset device `h` and restore it and those below it (R266, R367) -/
  | reset (h : Nat) (req : Option (Nat × Nat × Word))
  /-- look into what has changed on a hub port (R259 steps 5 to 7) -/
  | change (hub port : Nat)
  /-- a request of a function: function, WQ and WQCOUNT (R266) -/
  | request (f n : Nat) (count : Word)
  /-- clear the halt of a hub's status-change endpoint (R341) -/
  | clearHalt (ep : Nat)
  deriving DecidableEq, Repr

/-- ENUM's work on a port (R258 to R260, R266). -/
structure EnumRun where
  /-- the job that runs | R258 | none -/
  job : Option EnumJob := none
  /-- the jobs that wait, oldest first | R258, R266 | none -/
  todo : List EnumJob := []
  /-- its actions still to do, the head in progress | R258 to R260 | none -/
  acts : List EnumAct := []
  /-- the step of R258 in progress, PRT_ENUM.BUSY; 0 idle | 4 | R258, R268 | 0 -/
  step : Nat := 0
  /-- failed attempts of the present request, and of the present hub port reset | 2 | R258, R259 | 0 -/
  tries : Nat := 0
  resets : Nat := 0
  /-- the sequence has been repeated once | 1 | R258 | 0 -/
  repeated : Bool := false
  /-- completion status of the last request, and the bytes it returned | 8 | R263, R265 | 0, none -/
  status : Nat := 0
  got : List Byte := []
  /-- readings of a hub port's debounce that showed it connected | R259 | 0 -/
  readings : Nat := 0
  /-- the device that is being restored | R260 | none -/
  dev : Nat := 0xFFFF
  /-- the number of the present request or wait, so that a later answer to an earlier one is not taken for it: the
  model's own | 0 (DESIGN CHOICE) -/
  gen : Nat := 0
  deriving DecidableEq, Repr

/-- A port's schedule and its running plan (R170 to R191, R198). -/
structure PortSch where
  /-- HLTH's own copies of the port's counts since its last heartbeat: errors, babble, removals, remote wakes
  | R368 | 0 -/
  seenErrs : Nat := 0
  seenBabble : Nat := 0
  seenPower : Nat := 0
  seenWake : Nat := 0
  /-- HLTH's own list of ATTACH messages since its last heartbeat: position and serial string | R368 | none -/
  attachLog : List (Option (Nat × Nat) × List Byte) := []
  /-- ISOLAG | 2 | R198 | 1 -/
  isoLag : Nat := 1
  /-- PRT occupancy: RATIO | 16 | R187, R198 | 0 -/
  ratio : Nat := 0
  /-- PEAK | 16, RC | R198 | 0 -/
  ratioPeak : Nat := 0
  /-- WRITEOFF | 16, RC | R198 | 0 -/
  writeoff : Nat := 0
  /-- SLIPS | 16, RC | R198 | 0 -/
  slips : Nat := 0
  /-- MISSED | 16, RC | R198 | 0 -/
  missed : Nat := 0
  /-- LATE | 16, RC | R198 | 0 -/
  late : Nat := 0
  /-- PLANLATE | 16, RC | R198 | 0 -/
  planLate : Nat := 0
  /-- HOLDMF | 16, RC | R198 | 0 -/
  holdMf : Nat := 0
  /-- NAKSKIP | 16, RC | R198 | 0 -/
  nakSkip : Nat := 0
  /-- LASTN | 8 | R198 | 0 -/
  lastN : Nat := 0
  /-- the plans delivered and not yet run, oldest first | R170 | none -/
  plans : List Plan := []
  /-- the port microframe that runs has begun and is in hold | 1 | R174 | 0 -/
  hold : Bool := false
  /-- the MFN of the port microframe that runs | 14 | R167 | 0 -/
  mfn : Mfn := 0#14
  /-- items of the running plan not yet done, carried ones first | R171 | none -/
  items : List PlanItem := []
  /-- services carried to the next port microframe | R189, R191 | none -/
  carried : List PlanItem := []
  /-- the asynchronous window, its pointer, and the transactions of the present turn | R184 | none -/
  window : List Nat := []
  winPtr : Nat := 0
  turn : Nat := 0
  /-- the channel whose OUT data follow the PING that was answered ACK | R209 | none -/
  follow : Option Nat := none
  /-- the channels NAKed in this port microframe | R184 | none -/
  naked : List Nat := []
  /-- asynchronous transactions of this port microframe | R198 | 0 -/
  asyncN : Nat := 0
  /-- a token other than the start item was sent in this port microframe | R223 | 0 -/
  tokens : Bool := false
  /-- the transaction on the wire | R204 | none -/
  txn : Option Txn := none
  /-- complete-splits owed for start-splits already sent: endpoint contexts | R174, R178, R211 | none -/
  owedCs : List Nat := []
  deriving DecidableEq, Repr

/-- A port's power (R241 to R256, R268). -/
structure PortPwr where
  /-- ILIMHI | 1 | R268 | 0 -/
  ilimHi : Bool := false
  /-- PWROFF | 1 | R268 | 0 -/
  pwrOff : Bool := false
  /-- SHED | 4 | R268 | 0 -/
  shed : Nat := 0
  /-- BODLY | 4 | R268 | 3 -/
  boDly : Nat := 3
  /-- RETRYMAX | 3 | R268 | 3 -/
  retryMax : Nat := 3
  /-- RETRYDLY | 4 | R268 | 1 -/
  retryDly : Nat := 1
  /-- the retries made in a row; RETRIES shows those left | 3 | R253, R268 | 0 -/
  retried : Nat := 0
  /-- REASON | 4 | R268 | 0 -/
  reason : Nat := 0
  /-- HEALTH | 1 | R268 | 0 -/
  health : Bool := false
  /-- OC | 1 | R268 | 0 -/
  oc : Bool := false
  /-- EN, the bit being sent | 1 | R268 | 0 -/
  en : Bool := false
  /-- the port is to be powered (its EN bit is set in the next frame) | 1 | R244, R245 | 0 -/
  want : Bool := false
  /-- its power has been removed: the next frame clears EN and the port goes to OFF | 1 | R246 | 0 -/
  removing : Bool := false
  /-- power is awaited: the 20 ms of R244 run | 1 | R244 | 0 -/
  awaiting : Bool := false
  /-- the last valid return frame since the enable showed HEALTH 1 and OC 0 | 1 | R244 | 0 -/
  healthy : Bool := false
  /-- a retry waits for its RETRYDLY | 1 | R253 | 0 -/
  retryDue : Bool := false
  /-- an enable waits for its time of R245 or for the link (R620); it counts as a retry | R245, R620 | none -/
  enableDue : Option Bool := none
  /-- it was powered when the link was lost | 1 | R239 | 0 -/
  poweredAtLoss : Bool := false
  /-- a removal has been made, so that power good sends RESTORED | 1 | R262 | 0 -/
  removed : Bool := false
  /-- MEDIAN | 14 | R268 | 0 -/
  median : Nat := 0
  /-- FILT | 14 | R268 | 0 -/
  filt : Nat := 0
  /-- the last corrected samples | 4 x 14 | R242 | none -/
  samples : List Nat := []
  /-- filt holds its first median | 1 | R242 | 0 -/
  filtOn : Bool := false
  /-- consecutive readings in LOW, in HIGH, of the median in OVER; RANGE reported for this stay | R250, R251 | 0 -/
  lowRun : Nat := 0
  highRun : Nat := 0
  overRun : Nat := 0
  highTold : Bool := false
  /-- consecutive valid frames with OC, with HEALTH 0 | R249, R252 | 0 -/
  ocRun : Nat := 0
  healthRun : Nat := 0
  /-- OCCNT | 8, RC | R268 | 0 -/
  ocCnt : Nat := 0
  /-- BOCNT | 8, RC | R268 | 0 -/
  boCnt : Nat := 0
  /-- SWCNT | 8, RC | R268 | 0 -/
  swCnt : Nat := 0
  /-- OVCNT | 8, RC | R268 | 0 -/
  ovCnt : Nat := 0
  /-- CDPSEEN | 1 | R268 | 0 -/
  cdpSeen : Bool := false
  /-- CDPEN | 1 | R268 | 0 -/
  cdpEn : Bool := false
  /-- the CDP level is driven on DM | 1 | R256 | 0 -/
  cdpDrive : Bool := false
  deriving DecidableEq, Repr

/-- What a port does once the transaction on its wire has finished (R201, R215, R216, R219). -/
inductive PortWait where
  | reset | suspend | disconnect | isolate
  deriving DecidableEq, Repr

/-- One root port: its engine, its schedule, its power and its enumeration. -/
structure Port where
  /-- STATE | 4 | R200, R231 | OFF -/
  st : PortSt := .off
  /-- SPEED | 2 | R231 | none -/
  speed : Option Speed := none
  /-- the spare engine serves the port | 1 | R229, R231 | 0 -/
  spare : Bool := false
  /-- the port's own engine is marked failed, TST_CLUc.ENGFAIL | 1 | R229, R510, R518 | 0 -/
  ownFailed : Bool := false
  /-- a takeover runs: the spare is loading | 1 | R228 | 0 -/
  takeover : Bool := false
  /-- the spare has loaded and starts at the next SOF instant | 1 | R228 | 0 -/
  loaded : Bool := false
  /-- a planned swap waits for the next SOF instant: onto the spare (true) or back | R229 | none -/
  swap : Option Bool := none
  /-- LPMOK | 1 | R223, R231 | 0 -/
  lpmOk : Bool := false
  /-- LPMOFF | 1 | R223, R231 | 0 -/
  lpmOff : Bool := false
  /-- consecutive LPM errors | 2 | R223 | 0 -/
  lpmErrs : Nat := 0
  /-- consecutive port microframes without a token | 8 | R223 | 0 -/
  idle : Nat := 0
  /-- TOKHOLD | 1 | R216, R220, R224, R231 | 0 -/
  tokHold : Bool := false
  /-- what waits for the transaction on the wire to finish | R202, R215, R216, R219 | none -/
  waiting : Option PortWait := none
  /-- LPMEN | 1 | R231 | 1 -/
  lpmEn : Bool := true
  /-- AUTOREC | 1 | R231 | 1 -/
  autoRec : Bool := true
  /-- TESTMODE | 3 | R230, R231 | 0 -/
  testMode : Nat := 0
  /-- PRT_EVENT | 11, W1C | R231 | 0 -/
  event : Nat := 0
  /-- L1IDLE | 8 | R231 | 0x40 -/
  l1Idle : Nat := 0x40
  /-- BESL | 4 | R231 | 2 -/
  besl : Nat := 2
  /-- PRT_RESUME: VALID, HOSTRES, RWS, L1, MFN | 18 | R221, R231 | 0 -/
  resValid : Bool := false
  resHost : Bool := false
  resRws : Bool := false
  resL1 : Bool := false
  resMfn : Mfn := 0#14
  /-- the flags the resume that runs will record | R221, R222 | 0 -/
  nowHost : Bool := false
  nowRws : Bool := false
  /-- 5 ms of suspend residency, or 50 µs of L1 residency, have passed | 1 | R220, R224 | 0 -/
  resided : Bool := false
  /-- K is being driven | 1 | R220, R224 | 0 -/
  driveK : Bool := false
  /-- the K has ended; the port is enabled at the next port microframe start | 1 | R220, R224 | 0 -/
  kEnded : Bool := false
  /-- an L1 exit goes on to SUSPENDED | 1 | R224 | 0 -/
  thenSuspend : Bool := false
  /-- the port has been SUSPENDED since its tokens were last let go | 1 | R566, R567 | 0 -/
  away : Bool := false
  /-- a port reset has ended and its restoration has not begun | 1 | R216 step 5 | 0 -/
  afterReset : Bool := false
  /-- ENUM restores the tree; staged descriptors wait | 1 | R216 step 5 | 0 -/
  restoring : Bool := false
  /-- the PHY trims in force; none for the factory's | 32 | R539 | factory -/
  trim : Option Word := none
  /-- 100 ms have passed in DISABLED | 1 | R214 | 0 -/
  disabled100 : Bool := false
  /-- the device chirp of the reset that runs was recognised; the chirp window ended without it | R234 | 0 -/
  chirped : Bool := false
  chirpOver : Bool := false
  /-- PRT_ERR0.CRCERR | 16, RC | R231 | 0 -/
  crcErr : Nat := 0
  /-- PRT_ERR0.TIMEOUT | 16, RC | R231 | 0 -/
  timeouts : Nat := 0
  /-- PRT_ERR1.BABBLE | 8, RC | R231 | 0 -/
  babbles : Nat := 0
  /-- PRT_ERR1.STRIKES | 8, RC | R231 | 0 -/
  strikes : Nat := 0
  /-- PRT_ERR1.PIDERR | 16, RC | R231 | 0 -/
  pidErr : Nat := 0
  /-- PRT_ENGINE.FAILOVERS | 8, RC | R231 | 0 -/
  failovers : Nat := 0
  /-- PRT_ENGINE.CKPTMFN | 14 | R226, R231 | 0 -/
  ckptMfn : Mfn := 0#14
  /-- LINE | 2 | R232, R268 | SE0 -/
  line : Line := .se0
  /-- PULLUP | 2 | R233, R268 | 0 -/
  pullup : Nat := 0
  /-- consecutive SOF EOPs over the disconnect threshold | 2 | R235 | 0 -/
  sofOver : Nat := 0
  /-- RWEN | 1 | R268 | 1 -/
  rwen : Bool := true
  /-- its schedule, as PortSch -/
  sc : PortSch := {}
  /-- its power, as PortPwr -/
  pw : PortPwr := {}
  /-- LASTREASON | 8 | R268 | 0 -/
  lastReason : Nat := 0
  /-- LASTSTEP | 4 | R268 | 0 -/
  lastStep : Nat := 0
  /-- ENUM's work on the port | R258 to R260 | idle -/
  run : EnumRun := {}
  /-- positions whose device keeps its address without a handle, and those addresses | R263 | none -/
  kept : List (Option (Nat × Nat) × Nat) := []
  deriving DecidableEq, Repr

/-- One cluster (R165, R239 to R254, R269). -/
structure Clu where
  /-- its counter is locked | 1 | R165, R197 | 0 -/
  locked : Bool := false
  /-- LINKUP | 1 | R269 | 0 -/
  linkUp : Bool := false
  /-- HELD | 1 | R269 | 0 -/
  held : Bool := false
  /-- consecutive valid frames after a loss | 4 | R239 | 0 -/
  good : Nat := 0
  /-- the link was lost and is not restored | 1 | R239 | 0 -/
  lost : Bool := false
  /-- that loss is a CLUSTER_RESET's own | 1 | R481 | 0 -/
  byReset : Bool := false
  /-- HOLD frames are being sent | 1 | R240 | 0 -/
  holding : Bool := false
  /-- the array has confirmed HELD and the link has stopped | 1 | R240 | 0 -/
  stopped : Bool := false
  /-- the step of the cluster sleep (1 drain, 2 suspend, 3 HOLD, 4 signatures) or wake (6 PLL, 7 islands) that runs; 0 none
  | R467 | 0 -/
  slStep : Nat := 0
  /-- who gave the command that runs for the cluster | R467 | none -/
  slWho : Option PwrWho := none
  /-- an armed port event came as the cluster's gating began: it is woken at once after it | 1 | R468 | 0 -/
  slWake : Bool := false
  /-- descriptors completed POWER_CANCELLED by the cluster sleep that runs | R449, R467 | 0 -/
  slCancelled : Nat := 0
  /-- the cluster is in cluster sleep | 1 | R449, R470 | 0 -/
  asleep : Bool := false
  /-- HEALTH | 8 | R269 | 0 -/
  health : Nat := 0
  /-- OC | 8 | R269 | 0 -/
  oc : Nat := 0
  /-- CRCERR | 16, RC | R269 | 0 -/
  crcErr : Nat := 0
  /-- LOSSES | 16, RC | R269 | 0 -/
  losses : Nat := 0
  /-- ISNS MEDIAN, FILT, the last samples | 14 | R242, R269 | 0 -/
  median : Nat := 0
  filt : Nat := 0
  samples : List Nat := []
  filtOn : Bool := false
  /-- consecutive readings above LIMIT | 2 | R254 | 0 -/
  overRun : Nat := 0
  /-- shedding goes on | 1 | R254 | 0 -/
  shedding : Bool := false
  /-- LIMIT | 14 | R269 | 0 -/
  limit : Nat := 0
  /-- IIRK | 3 | R269 | 2 -/
  iirk : Nat := 2
  /-- the spare engine is marked failed, TST_CLUc.SPAREFAIL | 1 | R480, R510, R518 | 0 -/
  spareFailed : Bool := false
  deriving DecidableEq, Repr

/-- Bowline (R192 to R197). -/
structure Sch where
  /-- PERMAX | 16 | R197 | 0xBB80 -/
  perMax : Nat := 0xBB80
  /-- RECOVERING | 1 | R193, R197 | 0 -/
  recovering : Bool := false
  /-- the step of R193 that runs | R193 | 0 -/
  step : Nat := 0
  /-- RUNNING | 1 | R197 | 0 -/
  running : Bool := false
  /-- COUNT | 16 | R197 | 0 -/
  count : Nat := 0
  /-- LASTDUR | 16 | R197 | 0 -/
  lastDur : Nat := 0
  /-- MFN of the last mismatch | 14 | R197 | 0 -/
  at_ : Mfn := 0#14
  /-- the ports whose first plan after a recovery is still owed | R193 | none -/
  owedPlans : List Nat := []
  /-- LOADSEL.PORT | 7 | R197 | 0 -/
  selPort : Nat := 0
  /-- LOADSEL.POS | 8 | R197 | 0 -/
  selPos : Nat := 0
  deriving DecidableEq, Repr
/-! ### Devices and endpoint contexts (chapters 04 to 08) -/

/-- Transfer types of an endpoint. -/
inductive EpType where
  | control | iso | bulk | intr
  deriving DecidableEq, Repr

/-- A pool cell that a channel holds (R277, R283, R284): empty, filling, holding data, or draining. -/
structure Cell where
  /-- the data bytes | at most 1,024 | R277 -/
  data : List Byte := []
  /-- OUT: the bytes it is to hold, of them asked for, and the pieces that have returned by offset | R283, R292 -/
  size : Nat := 0
  asked : Nat := 0
  parts : Tab (List Byte) := []
  /-- it holds data (its tag is written) | R277 -/
  full : Bool := false
  /-- its drain has been started | R284 -/
  draining : Bool := false
  /-- LAST: the last cell of the descriptor's data | R277 -/
  last : Bool := false
  /-- POISON: a word of it is poisoned | R296 -/
  poison : Bool := false
  /-- it holds a hard fault or a poisoned word, and is retired when it is released | R297 -/
  retire : Bool := false
  /-- WQCOUNT of the descriptor whose data it holds, the packet of an isochronous one, and the data's offset | R277 -/
  owner : Word := 0#32
  pkt : Nat := 0
  off : Nat := 0
  deriving DecidableEq, Repr

/-- For whom a transfer that is no WQ's runs (R139, R341, R434). -/
inductive Who where
  /-- ENUM's work on a port -/
  | enum (p : Nat)
  /-- a service instance, with its own mark of the transfer -/
  | inst (h tag : Nat)
  /-- a PERIPH_DOWNLOAD, by OPID -/
  | op (opid : Nat)
  deriving DecidableEq, Repr

/-- A transfer that ENUM, a service or a download makes (R139, R341). -/
structure SvcXfer where
  who : Who
  /-- the transfer as a descriptor -/
  x : Xfer
  /-- its OUT data, or the IN data received so far -/
  data : List Byte := []
  /-- it was repeated once after TIMEOUT or XACT_ERROR | R341 -/
  again : Bool := false
  deriving DecidableEq, Repr

/-- A periodic reservation (R181 to R183). -/
structure Resv where
  /-- service interval I in microframes | R180 -/
  interval : Nat
  /-- phase chosen by admission | R182 -/
  phase : Nat
  /-- the period of its positions in the port's load table | R181 -/
  span : Nat
  /-- what it books: position modulo the period, charge, items | R181 -/
  books : List (Nat × Nat × Nat)
  /-- the transaction translator it goes through: hub and hub port (0 for a single one) | R177 -/
  tt : Option (Nat × Nat) := none
  /-- TT budget: its frame period, frame position and the byte times of each microframe Y0 to Y5 | R178, R181 -/
  ttSpan : Nat := 1
  ttPos : Nat := 0
  ttBytes : List (Nat × Nat) := []
  deriving DecidableEq, Repr

/-- An endpoint context (R138, R146, R184, R257, R266, R279). -/
structure Ep where
  /-- device handle | 11 | R257 -/
  dev : Nat
  /-- bEndpointAddress | 8 | R266 -/
  addr : Nat
  /-- bmAttributes' transfer type | R266 -/
  type : EpType
  /-- wMaxPacketSize as read | 16 | R266 -/
  wMax : Nat
  /-- bInterval | 8 | R181 -/
  bInterval : Nat := 0
  /-- bInterfaceNumber, bAlternateSetting | 16 | R266 -/
  iface : Nat := 0
  alt : Nat := 0
  /-- ended: its device or setting has gone; kept until its received data have been written | R161, R285 | 0 -/
  gone : Bool := false
  /-- the device's default control endpoint | 1 | R139 -/
  dflt : Bool := false
  /-- HALTED | 1 | R146 | 0 -/
  halted : Bool := false
  /-- data toggle | 1 | R208 | 0 (DATA0) -/
  toggle : Bool := false
  /-- PING state | 1 | R211 | 0 -/
  ping : Bool := false
  /-- consecutive transaction errors | 2 | R207 | 0 -/
  strikes : Nat := 0
  /-- AW, asynchronous weight | 5 | R184 | 1 -/
  weight : Nat := 1
  /-- the WQ bound to it: function and number | R82 | none -/
  wq : Option (Nat × Nat) := none
  /-- the service instance its interface is bound to | R331 | none -/
  inst : Option Nat := none
  /-- its reservation | R181 | none -/
  resv : Option Resv := none
  /-- the services it is owed: nominal MFNs that slipped or are pending, oldest first | R188, R189 | none -/
  owed : List Mfn := []
  /-- channel settings: quota QC | 8 | R282 | by type -/
  qc : Nat := 4
  /-- marks: OUT high and low, IN high and low | 4 x 8 | R282 | by type -/
  hmOut : Nat := 0
  lmOut : Nat := 0
  hmIn : Nat := 0
  lmIn : Nat := 0
  /-- WAITLIM in units of R290; 0 off | 16 | R282, R290 | 0 -/
  waitLim : Nat := 0
  /-- the cells it holds, in order | R277, R280 | none -/
  cells : List Cell := []
  /-- it waits for a pool cell | 1 | R280, R290 | 0 -/
  waiting : Bool := false
  /-- ABORTS | 16, RC | R302 | 0 -/
  aborts : Nat := 0
  /-- MAXWAIT | 16, RC | R302 | 0 -/
  maxWait : Nat := 0
  /-- filling (OUT) or draining (IN) is on between the high and low marks | R283, R284 | 0 -/
  paceOn : Bool := false
  /-- the nominal and due MFN of the pending interrupt service | R189 | none until a service is placed -/
  nom : Option Mfn := none
  due : Mfn := 0#14
  /-- transfers of ENUM, the bound service or a download on it, in order | R139, R341 | none -/
  svc : List SvcXfer := []
  deriving DecidableEq, Repr

/-- MPS: the packet size of an endpoint. -/
def Ep.mps (e : Ep) : Nat := e.wMax % 2048
/-- Transactions per microframe (R149, R181). -/
def Ep.mult (e : Ep) : Nat := e.wMax / 2048 % 4 + 1
/-- An IN endpoint: bit 7 of its address; a control endpoint is none. -/
def Ep.isIn (e : Ep) : Bool := e.type != .control && e.addr ≥ 128
/-- Isochronous or interrupt. -/
def Ep.periodic (e : Ep) : Bool := e.type == .iso || e.type == .intr

/-- A device on a port's tree (R257 to R266). -/
structure Dev where
  /-- root port | 7 | R257 -/
  port : Nat
  /-- parent hub's handle, and the hub port; none on the root port | R259 -/
  parent : Option (Nat × Nat) := none
  /-- USB address | 7 | R258 -/
  addr : Nat := 0
  /-- it answers at address 0: it has been reset and not yet restored | 1 | R216, R260 | 0 -/
  zero : Bool := false
  /-- hub depth | 3 | R259 -/
  depth : Nat := 0
  /-- speed | R257 -/
  speed : Speed := .high
  /-- it is a hub | 1 | R259 -/
  hub : Bool := false
  /-- it supports LPM | 1 | R223 -/
  lpm : Bool := false
  /-- the device descriptor as read | R258 -/
  desc : List Byte := []
  /-- the configuration set as read | R258, R266 -/
  cfg : List Byte := []
  /-- the index of the configuration that the stored set is of | 8 | R258, R266 | 0 -/
  cfgIdx : Nat := 0
  /-- the serial string as read, UTF-16LE | at most 252 bytes | R258, R264 | none -/
  serial : List Byte := []
  /-- left unconfigured by refused admission | 1 | R258, R264 | 0 -/
  refused : Bool := false
  /-- a hub's downstream ports, bPwrOn2PwrGood, multi-TT operation | R259 -/
  nPorts : Nat := 0
  pwrGood : Nat := 0
  multiTt : Bool := false
  /-- the configuration set's value; 0 unconfigured | 8 | R266 -/
  cfgVal : Nat := 0
  /-- selected alternate settings by interface | R266 -/
  alts : Tab Nat := []
  /-- the service instance each bound interface has | R331 -/
  bound : Tab Nat := []
  /-- remote wake has been enabled | 1 | R222 -/
  remoteWake : Bool := false
  /-- suspended behind its hub port by DEV_SUSPEND | 1 | R266, R566 -/
  suspended : Bool := false
  /-- detached: the handle is kept so that a request naming it ends DETACHED | 1 | R266 -/
  detached : Bool := false
  /-- the function that owned it when it detached | R266 -/
  lastOwner : Nat := 0
  deriving DecidableEq, Repr
/-! ### Garnet and Hawser (chapter 08) -/

/-- The areas of Garnet, by the codes of GRN_LASTUE_HI.AREA (R274, R301). -/
inductive Area where
  | pool | spill | homed | service | image | relocation | sram
  deriving DecidableEq, Repr

/-- What a word of Garnet belongs to (R296, R298, R300). -/
inductive WordOf where
  /-- the `i`-th cell that a channel holds, or its tag -/
  | cell (ep i : Nat)
  /-- a free cell of the pool -/
  | freeCell
  /-- the `i`-th oldest spill entry of a CQ -/
  | spill (f n i : Nat)
  /-- the window of a homed function, by offset -/
  | homed (f off : Nat)
  /-- the `i`-th oldest message of an instance -/
  | message (h i : Nat)
  /-- the payload of a request: function, WQ, WQCOUNT -/
  | payload (f n : Nat) (count : Word)
  /-- the running image (0) or the staging copy (1) -/
  | image (slot : Nat)
  /-- the relocation window -/
  | relocation
  /-- SRAM of a bank group 1 to 15 outside the cell tags; a flow context of it, if it is one -/
  | sram (group : Nat)
  deriving DecidableEq, Repr

/-- What an outstanding mover read is for (R283, R286, R293, R294). -/
inductive ReadOf where
  /-- the fill of the OUT cell of a channel whose data begin at byte `off` of descriptor `count` -/
  | fill (ep : Nat) (count : Word) (off : Nat)
  /-- index-table entries from `first` of a descriptor -/
  | index (f n : Nat) (count : Word) (first : Nat)
  /-- packet-list entries from `first` -/
  | packets (f n : Nat) (count : Word) (first : Nat)
  /-- payload of a service request or job from byte `off` -/
  | payload (f n : Nat) (count : Word) (off : Nat)
  deriving DecidableEq, Repr

/-- One outstanding mover read (R286, R292). -/
structure MovRead where
  /-- the function whose Requester ID it carries -/
  fn : Nat
  what : ReadOf
  addr : Addr
  len : Nat
  deriving DecidableEq, Repr

/-- The GRN block (R301 to R303). -/
structure Grn where
  /-- SRAMSCRUB | 1 | R301 | 1 -/
  sramScrub : Bool := true
  /-- DRAMSCRUB | 1 | R301 | 1 -/
  dramScrub : Bool := true
  /-- POOLMB, the pool in MiB | 8 | R274, R301 | 204 -/
  poolMb : Nat := 204
  /-- H in MiB | R274, R301 | 8 -/
  homedMb : Nat := 8
  /-- S in MiB | R274, R301 | 16 -/
  spillMb : Nat := 16
  /-- RETIRED.COUNT | 16 | R297, R301 | 0 -/
  retired : Nat := 0
  /-- DRAMUNC | 16, RC | R301 | 0 -/
  dramUnc : Nat := 0
  /-- DRAMCOR | 16, RC | R301 | 0 -/
  dramCor : Nat := 0
  /-- SRAMUNC | 16, RC | R301 | 0 -/
  sramUnc : Nat := 0
  /-- SRAMCOR | 16, RC | R301 | 0 -/
  sramCor : Nat := 0
  /-- LASTUE: VALID, AREA, ADDR | 44 | R301 | 0 -/
  lastUe : Option (Nat × Nat) := none
  /-- SRAMSEC | 16 | R301 | 10 -/
  sramSec : Nat := 10
  /-- DRAMHRS | 8 | R301 | 4 -/
  dramHrs : Nat := 4
  /-- PASSES | 16 | R301 | 0 -/
  passes : Nat := 0
  /-- STATUS.CFGERR | 1 | R301 | 0 -/
  cfgerr : Bool := false
  /-- CHSEL.EPH | 13 | R302 | 0 -/
  sel : Nat := 0
  /-- CHSEL.CTLDIR | 1 | R302 | 0 -/
  ctlDir : Bool := false
  /-- mover reads outstanding, oldest first | at most 512 | R286 | none -/
  reads : List MovRead := []
  /-- DRAM words corrected by a read and owed their write-back, by byte address | R273 | none -/
  toWrite : List Nat := []
  /-- DRAM words written back after a correction | R273 | none -/
  wrote : List Nat := []
  /-- the endpoint context served last, by class of R286 | 13 | R286 | 0x1FFF, so that handle 0 comes first (DESIGN
  CHOICE, log 6) -/
  last1 : Nat := 0x1FFF
  last2 : Nat := 0x1FFF
  last3 : Nat := 0x1FFF
  /-- handles waiting for pool cells, oldest request first | R281, R290 | none -/
  waiters : List Nat := []
  deriving DecidableEq, Repr

/-- The handles and addresses that ENUM hands out (R257). -/
structure Handles where
  /-- freed device handles, oldest freed first | R257 | none -/
  devFreed : List Nat := []
  /-- freed endpoint context handles, oldest freed first | R257 | none -/
  epFreed : List Nat := []
  deriving DecidableEq, Repr
/-! ### Splice, the task dispatcher (chapter 09) -/

/-- The states of a task (R324). -/
inductive TaskSt where
  | waiting | ready | queued | inService | done
  deriving DecidableEq, Repr

/-- What a task is for: its service entry point and its reference (R304, R305). -/
inductive Job where
  /-- a root-port event or a step of ENUM's work on port `p` -/
  | enum (p : Nat) (ev : Nat) (arg : Nat)
  /-- a request or a job: function, WQ and WQCOUNT -/
  | request (f n : Nat) (count : Word)
  /-- a packet handed to a service: instance and endpoint context -/
  | packet (inst ep : Nat)
  /-- an admin command that acts on an instance -/
  | admin (f inst : Nat)
  /-- a periodic tick of an instance -/
  | tick (inst : Nat)
  /-- a continuation of an instance's work, with its mark -/
  | cont (inst tag : Nat)
  /-- a lane test or a measurement, made for no function -/
  | test (lane : Nat)
  deriving DecidableEq, Repr

/-- One task record (R305). A task made for no function has no flow. -/
structure Task where
  /-- its number in the order of creation, the model's own handle of the record -/
  id : Nat
  /-- flow ID | 14 | R305 -/
  flow : Option Nat
  /-- sequence number in its flow | 16 | R311 -/
  seq : Nat
  /-- dependence counter | 6 | R306 -/
  deps : Nat := 0
  /-- PREV mark | 1 | R312 -/
  prev : Bool := false
  /-- the state | R324 -/
  st : TaskSt
  /-- service entry point and reference | R305 -/
  job : Job
  /-- a timer is armed for it | 1 | R307 -/
  timer : Bool := false
  /-- it carries a deadline | 1 | R308 -/
  deadline : Bool := false
  /-- TIMEDOUT mark | 1 | R308 -/
  timedOut : Bool := false
  /-- FAILED mark, by the watchdog or a failed lane | 1 | R319 -/
  failed : Bool := false
  /-- an empty marker | 1 | R322 -/
  marker : Bool := false
  /-- cancelled while in service: its result is discarded | 1 | R321 -/
  cancelled : Bool := false
  /-- the order in which it became ready | R316 -/
  readyAt : Nat := 0
  /-- the order in which it was placed | R319 -/
  placedAt : Nat := 0
  /-- the lane it was placed on | 5 | R317 -/
  lane : Nat := 0
  /-- it waits for its context's copy (1) or fetch back (2) | R318 -/
  ctx : Nat := 0
  deriving DecidableEq, Repr

/-- The states of a flow (R325), less IDLE and BUSY, which its tasks show. -/
inductive FlowSt where
  | open_ | held | closing | lost
  deriving DecidableEq, Repr

/-- One flow (R309 to R313, R329). -/
structure Flow where
  /-- CLASS is ATOMIC | 1 | R310 | 1 for flows 0 to 127 -/
  atomic : Bool := true
  /-- STATE, less IDLE and BUSY | R325 | open -/
  st : FlowSt := .open_
  /-- the instance that holds it; none for an ENUM flow | R309 -/
  inst : Option Nat := none
  /-- NEXTSEQ | 16 | R311, R329 | 0 -/
  next : Nat := 0
  /-- RELSEQ | 16 | R311, R329 | 0 -/
  rel : Nat := 0
  /-- last lane | 5 | R317, R329 | 0 -/
  lane : Nat := 0
  /-- a lane's store holds its context | R318 | none -/
  ctxLane : Option Nat := none
  /-- its context has been written out to Garnet | R318 | 0 -/
  ctxOut : Bool := false
  /-- the order of its last placement, for the least recently used context | R318 | 0 -/
  ctxUsed : Nat := 0
  /-- RELEASED | 16, RC | R329 | 0 -/
  released : Nat := 0
  /-- MOVES | 16, RC | R329 | 0 -/
  moves : Nat := 0
  deriving DecidableEq, Repr

/-- One lane (R317, R319, R327, R330). -/
structure Lane where
  /-- present after self-test | 1 | R328 | 1 -/
  present : Bool := true
  /-- disabled at self-test, so that no test may name it | 1 | R507, R509 | 0 -/
  disabled : Bool := false
  /-- STATE: 0 online, 1 going offline, 2 offline | R327, R330 | online -/
  off : Nat := 0
  /-- TASKS | 32, RC | R330 | 0 -/
  tasks : Nat := 0
  /-- AFFINITY | 16, RC | R330 | 0 -/
  affinity : Nat := 0
  /-- FALLBACK | 16, RC | R330 | 0 -/
  fallback : Nat := 0
  /-- a task has been in service since reset, so that BUSY, a measured share of time, reads a free value | 1 | R330 | 0 -/
  served : Bool := false
  deriving DecidableEq, Repr

/-- A happening that waits for a task record or a window (R305, R311): its flow, dependences, deadline mark and job. -/
structure Happening where
  /-- the task's flow; none for a task made for no function -/
  flow : Option Nat
  deps : Nat
  deadline : Bool
  timer : Bool
  job : Job
  deriving DecidableEq, Repr

/-- Splice (R328). -/
structure Dsp where
  /-- WDOG in µs | 16 | R328 | 20 -/
  wdog : Nat := 20
  /-- the tasks in flight, by creation | at most 8,192 | R305 | none -/
  tasks : List Task := []
  /-- the number of the next task record, and of the next moment of readiness: the model's own | 0 -/
  nextId : Nat := 0
  clock : Nat := 0
  /-- the flows beyond their reset values | 16,384 | R309 | flows 0 to 127 exist -/
  flows : Tab Flow := []
  /-- the lanes | 32 | R330 -/
  lanes : Tab Lane := []
  /-- happenings that wait, oldest first | R305 | none -/
  waiting : List Happening := []
  /-- TASKS.PEAK | 16, RC | R328 | 0 -/
  peak : Nat := 0
  /-- STALL.WINFULL | 16, RC | R328 | 0 -/
  winFull : Nat := 0
  /-- STALL.TASKFULL | 16, RC | R328 | 0 -/
  taskFull : Nat := 0
  /-- CANCEL.MARKERS | 16, RC | R328 | 0 -/
  markers : Nat := 0
  /-- CANCEL.CANCELLED | 16, RC | R328 | 0 -/
  cancelled : Nat := 0
  /-- EVENTS.TIMEDOUT | 16, RC | R328 | 0 -/
  timedOut : Nat := 0
  /-- EVENTS.WDOG | 8, RC | R328 | 0 -/
  wdogs : Nat := 0
  /-- EVENTS.LOST | 8, RC | R328 | 0 -/
  losts : Nat := 0
  /-- FLOWSEL | 14 | R329 | 0 -/
  sel : Nat := 0
  /-- the function pointer of placement | 7 | R316 | 0 (DESIGN CHOICE log 6) -/
  ptr : Nat := 0
  deriving DecidableEq, Repr
/-! ### Service instances (chapter 10) -/

/-- The services (R331). -/
inductive Svc where
  | enum | hidx | ccid | strm | hlth
  deriving DecidableEq, Repr

/-- The service codes of chapter 10. -/
def Svc.code : Svc → Nat
  | .enum => 1
  | .hidx => 2
  | .ccid => 3
  | .strm => 4
  | .hlth => 5

/-- States of an instance (R334). -/
inductive InstSt where
  | binding | active | restarting | detached | closing
  deriving DecidableEq, Repr

/-- A message in an instance's buffer (R342): its header fields and body. -/
structure Msg where
  /-- TYPE | 8 | R342 -/
  type : Nat
  /-- DEVH | 16 | R342 -/
  devh : Nat
  /-- MFN | 14 | R342 -/
  mfn : Mfn
  /-- OVF | 1 | R342, R344 -/
  ovf : Bool
  /-- SEQ | 16 | R342 -/
  seq : Nat
  /-- REF | 32 | R342 -/
  ref : Word
  /-- the body | at most 8,192 bytes | R342 -/
  body : List Byte
  /-- a word of it is poisoned | R344 -/
  poison : Bool := false
  deriving DecidableEq, Repr

/-- A data message that waits for space (R262, R344), with the port it concerns. -/
structure WaitMsg where
  port : Nat
  type : Nat
  devh : Nat
  body : List Byte
  mfn : Mfn
  deriving DecidableEq, Repr

/-- HIDX modes (R346). -/
inductive HidxMode where
  | report | scanner | magstripe
  deriving DecidableEq, Repr

/-- HIDX's class state (R345 to R351). -/
structure Hidx where
  /-- the report descriptor as read | at most 4,096 bytes | R345 -/
  rdesc : List Byte := []
  /-- the report map: CHANGED_ONLY, RAWCOPY and the fields' two words | R347 | empty, RAWCOPY 1 -/
  changedOnly : Bool := false
  rawCopy : Bool := true
  fields : List (Word × Word) := []
  /-- the last value of each field by its index in the map | 32 | R348 | none -/
  last : Tab Word := []
  /-- mode, TERM, IDLE | R346 | REPORT, 0, 50 -/
  mode : HidxMode := .report
  term : Nat := 0
  idle : Nat := 50
  /-- the loaded keymap | 256 bytes | R346, R349 | the built-in one -/
  keymap : Option (List Byte) := none
  /-- keycodes of the previous report | 6 x 8 | R349 | none -/
  prev : List Nat := []
  /-- the string being assembled | at most 1,024 | R350 | empty -/
  text : List Byte := []
  /-- the idle timer runs | 1 | R350 | 0 -/
  idleRun : Bool := false
  /-- keys discarded since the last SCAN message | 8 | R349 | 0 -/
  discards : Nat := 0
  deriving DecidableEq, Repr

/-- Slot states (R359). -/
inductive SlotSt where
  | absent | present | activating | active | mute | error
  deriving DecidableEq, Repr

/-- What a card slot's command in progress is for (R354, R356 to R359). -/
inductive SlotJob where
  | none | status | powerOn | powerOff | setParams | pps | ifs | xfr | escape | abort | voltWait
  deriving DecidableEq, Repr

/-- One card slot (R353 to R359). -/
structure Slot where
  /-- what an IccPowerOff is for: 0 a request, 1 the next voltage class, 2 an activation, 3 a restart after PPS, 4 a failed
  T=1 exchange, 5 a restarted instance | R354, R358, R370 | 0 -/
  offFor : Nat := 0
  /-- the slot's state | R359 | ABSENT -/
  st : SlotSt := .absent
  /-- protocol, TA1 used, IFSC, EDC is CRC, BWI, CWI | R355 -/
  proto : Nat := 0
  ta1 : Nat := 0x11
  ifsc : Nat := 32
  ifsd : Nat := 32
  crc : Bool := false
  bwi : Nat := 4
  cwi : Nat := 13
  wi : Nat := 10
  guard : Nat := 0
  /-- the ATR | at most 33 bytes | R354 -/
  atr : List Byte := []
  /-- AUTOPOWER, PREFER_T1, NOPPS | R359 | 0 -/
  autoPower : Bool := false
  preferT1 : Bool := false
  noPps : Bool := false
  /-- NOPPS in force for this card | 1 | R354 | 0 -/
  cardNoPps : Bool := false
  /-- the voltage class being tried | 2 | R354 -/
  volt : Nat := 0
  /-- the command that waits for its answer, its bMessageType and its bSeq | R356 -/
  job : SlotJob := .none
  msg : Nat := 0
  seq : Nat := 0
  /-- the request it serves: function, WQ, WQCOUNT | R359 -/
  req : Option (Nat × Nat × Word) := none
  /-- T=1: the next send-sequence numbers of both sides, block bytes still to send, response so far | R358 -/
  ns : Bool := false
  nr : Bool := false
  toSend : List Byte := []
  resp : List Byte := []
  /-- T=1 attempts for the block, resynchronisations, retransmissions, WTX requests | R358, R359 -/
  tries : Nat := 0
  resyncs : Nat := 0
  resyncing : Bool := false
  retrans : Nat := 0
  wtx : Nat := 0
  /-- the last block sent, for its repetition | R358 -/
  lastBlock : List Byte := []
  /-- the APDU of a T=0 exchange, for 0x6C and GET RESPONSE | R357 -/
  apdu : List Byte := []
  /-- block numbering unknown: the next XFR opens with S(RESYNCH request) | 1 | R356 | 0 -/
  unsynced : Bool := false
  /-- the request's TMO expired first | 1 | R356 | 0 -/
  tmoFirst : Bool := false
  /-- requests that wait for the slot's command to end, oldest first | R310 | none -/
  todo : List (Nat × Nat × Word) := []
  /-- the slot is to be looked at again: it has become reachable | 1 | R567 | 0 -/
  look : Bool := false
  /-- a card has been found that AUTOPOWER is to activate, once no command is out | 1 | R353 | 0 -/
  found : Bool := false
  deriving DecidableEq, Repr

/-- CCID's class state (R352 to R359). -/
structure Ccid where
  /-- dwFeatures, dwProtocols, dwMaxCCIDMessageLength, bVoltageSupport, the data rates of the class descriptor | R352 -/
  features : Word := 0#32
  protocols : Nat := 0
  maxMsg : Nat := 0
  volts : Nat := 0
  rates : List Nat := []
  /-- the reader's default clock in kHz, of the class descriptor | R355 -/
  clock : Nat := 0
  /-- bulk IN bytes of a message not yet whole, and the whole messages not yet handled | R352 | none -/
  rx : List Byte := []
  inbox : List (List Byte) := []
  /-- bSeq of the next command | 8 | R352 | 0 -/
  bseq : Nat := 0
  /-- the slots | at most 8 | R352 -/
  slots : Tab Slot := []
  deriving DecidableEq, Repr

/-- STRM's class state (R361 to R366). -/
structure Strm where
  /-- CDC-ACM, not a printer | 1 | R361 -/
  cdc : Bool := false
  /-- the data interface of a CDC-ACM pair | R361 -/
  dataIf : Nat := 0
  /-- the printer's device ID as stored | R361 -/
  devId : List Byte := []
  /-- the port status byte last read | 8 | R361, R364 -/
  portStatus : Nat := 0
  /-- the line coding | 7 bytes | R361 -/
  line : List Byte := []
  /-- DTR and RTS | R361 -/
  ctrl : Nat := 0
  /-- RXIDLE in ms, RXCHUNK | R362, R365 | 2, 512 -/
  rxIdle : Nat := 2
  rxChunk : Nat := 512
  /-- the RX settings of the next message | R365 | none -/
  nextRx : Option (Nat × Nat) := none
  /-- bytes gathered for RXDATA | R362 | none -/
  rx : List Byte := []
  /-- the RXIDLE timer runs | 1 | R362 | 0 -/
  rxTimer : Bool := false
  /-- the job's operation ID, and that it is stalled | R364 | none -/
  job : Option Nat := none
  stalled : Bool := false
  deriving DecidableEq, Repr

/-- One watched device (R367 to R369). -/
structure Watch where
  /-- consecutive failures | R367 -/
  fails : Nat := 0
  /-- counts of the kinds 1 to 6 in the window | R368 -/
  counts : List Nat := [0, 0, 0, 0, 0, 0]
  /-- alerts raised, by kind - 1; and the windows that stayed below the threshold | R368 -/
  alerts : List Bool := [false, false, false, false, false, false]
  /-- the kinds that have reached their threshold in the present window | R368 -/
  hits : List Bool := [false, false, false, false, false, false]
  deriving DecidableEq, Repr

/-- HLTH's class state (R367 to R369). -/
structure Hlth where
  /-- HBIV, HBFAIL, AUTORESET, SUMIV in force | R369 | 4,000, 3, 0, 0 -/
  hbiv : Nat := 4000
  hbfail : Nat := 3
  autoReset : Bool := false
  sumiv : Nat := 0
  /-- the options that take effect at the next tick | R369 | none -/
  nextOpts : Option (Nat × Nat × Bool × Nat) := none
  /-- heartbeats since bind | 32 | R369 | 0 -/
  beats : Nat := 0
  /-- the ATTACH messages of the present window: position and serial string | R368 | none -/
  attaches : List (Option (Nat × Nat) × List Byte) := []
  /-- heartbeats of the present window | 6 | R368 | 0 -/
  inWindow : Nat := 0
  /-- the watched devices by handle | R367 -/
  devs : Tab Watch := []
  deriving DecidableEq, Repr

/-- A service instance (R331 to R344, R371). -/
structure Inst where
  svc : Svc
  /-- STATE | 3 | R334, R371 | ACTIVE for ENUM -/
  st : InstSt := .active
  /-- root port | R332 -/
  port : Nat := 0
  /-- the device and interface it is bound to | R332 -/
  dev : Nat := 0xFFFF
  iface : Nat := 0
  /-- the WQ bound to it | R82 | none -/
  wq : Option (Nat × Nat) := none
  /-- CCID: the number of slots, bMaxSlotIndex + 1 | R352, R359 -/
  slots : Nat := 0
  /-- MSGKIB | 7 | R371 | 8 -/
  kib : Nat := 8
  /-- the flows it holds, its request flow first | R310 -/
  flows : List Nat := []
  /-- the messages held, oldest first | R344 | none -/
  msgs : List Msg := []
  /-- data messages that wait for space, in order | R262, R344 | none -/
  waitMsgs : List WaitMsg := []
  /-- SEQ of the next message | 16 | R342 | 0 -/
  seq : Nat := 0
  /-- a status message was discarded since the last one accepted | 1 | R342, R344 | 0 -/
  lostMsg : Bool := false
  /-- data is not taken from the device: the buffer was full | 1 | R344 | 0 -/
  stopped : Bool := false
  /-- PEAK in 16-byte units | 16, RC | R371 | 0 -/
  peak : Nat := 0
  /-- STOPS | 16, RC | R371 | 0 -/
  stops : Nat := 0
  /-- OVFDROP | 8, RC | R371 | 0 -/
  ovfDrop : Nat := 0
  /-- WRITEOFF | 8, RC | R371 | 0 -/
  writeoff : Nat := 0
  /-- DROPS | 8, RC | R371 | 0 -/
  drops : Nat := 0
  /-- the reason of the restart that runs: 1 flow lost, 2 lane failure | R342, R370 | 0 -/
  why : Nat := 0
  /-- the bind or unbind sequence's step, and the admin queue that waits for it | R332, R335, R345 | 0, none -/
  step : Nat := 0
  forFn : Option Nat := none
  /-- outcomes of its transfers that no task has taken yet: mark, status, data | R306 | none -/
  outcomes : List (Nat × Nat × List Byte) := []
  /-- the armed tick: interval, nominal and due MFN | R190 | none -/
  tick : Option (Nat × Mfn × Mfn) := none
  /-- class state -/
  hidx : Hidx := {}
  ccid : Ccid := {}
  strm : Strm := {}
  hlth : Hlth := {}
  deriving DecidableEq, Repr

/-- The service registers that are not an instance's (R371). -/
structure SvcBlk where
  /-- MSGDEF | 7 | R371 | 8 -/
  msgDef : Nat := 8
  /-- SVCERR | 16, RC | R371 | 0 -/
  svcErr : Nat := 0
  /-- RESTARTS | 16, RC | R371 | 0 -/
  restarts : Nat := 0
  /-- INSTSEL | 12 | R371 | 0 -/
  sel : Nat := 0
  deriving DecidableEq, Repr
/-! ### Network ports and associations (chapter 12) -/

/-- A MACsec secure association (R402, R422). -/
structure Sa where
  /-- SUITE | 2 | R422 -/
  suite : Nat
  /-- the 16 words installed | R422 -/
  words : List Word
  /-- next packet number | 64 | R402, R422 -/
  pn : Nat
  /-- ENABLE | 1 | R422 | 0 -/
  enabled : Bool := false
  /-- replay window of a receive SC | 16 | R422 -/
  replay : Nat := 0
  deriving DecidableEq, Repr

/-- One Ethernet port (R399 to R402, R422). -/
structure EthPort where
  /-- NET_Pi_CFG.EN | 1 | R422 | 0 -/
  en : Bool := false
  /-- JUMBO | 1 | R422 | 0 -/
  jumbo : Bool := false
  /-- FEC | 2 | R422 | 0 -/
  fec : Nat := 0
  /-- SPEED | 1 | R422 | 0 -/
  speed : Nat := 0
  /-- MACSECREQ | 1 | R422 | 0 -/
  macsecReq : Bool := false
  /-- NET_Pi_STAT.LINK | 1 | R401, R422 | 0 -/
  link : Bool := false
  /-- the PCS's present link_status, shown as BLOCKLOCK and, with FEC, FECLOCK | 1 | R401, R422 | 0 -/
  pcsOk : Bool := false
  /-- the down or up timer runs | 1 | R401 | 0 -/
  timer : Bool := false
  /-- DOWNS | 16, RC | R422 | 0 -/
  downs : Nat := 0
  /-- NET_Pi_MACLO, MACHI | 48 | R399, R422 | 0, then from the configuration image -/
  mac : Nat := 0
  /-- RXCNT | 32, RC | R422 | 0 -/
  rxcnt : Nat := 0
  /-- TXCNT | 32, RC | R422 | 0 -/
  txcnt : Nat := 0
  /-- DROP.BADFCS | 8, RC | R422 | 0 -/
  badFcs : Nat := 0
  /-- DROP.BADMACSEC | 8, RC | R422 | 0 -/
  badMacsec : Nat := 0
  /-- DROP.NOASSOC | 8, RC | R422 | 0 -/
  noAssoc : Nat := 0
  /-- DROP.OTHERTYPE | 8, RC | R422 | 0 -/
  otherType : Nat := 0
  /-- SASEL | 32 | R422 | 0 -/
  sasel : Word := 0#32
  /-- the SADATA words written since the last SASEL write | R422 | none -/
  sadata : List Word := []
  /-- transmit SAs by AN | 4 | R402 | none -/
  txSa : Tab Sa := []
  /-- receive SAs by 4 x SC + AN | 128 | R402 | none -/
  rxSa : Tab Sa := []
  /-- the RANGE report of the transmit SA in use was made | 1 | R402 | 0 -/
  pnWarned : Bool := false
  /-- the frames that wait for a fresh packet number, oldest first, with their association slot (32: none) | R402 | none -/
  held : List (Nat × CrqFrame) := []
  deriving DecidableEq, Repr

/-- States of an association (R412). -/
inductive AssocSt where
  | closed | opened | stalled | dormant
  deriving DecidableEq, Repr

/-- A record waiting to be sent by the Vetia (R408, R411). -/
inductive RecOut where
  /-- an entry of a CQ (0xFF: the admin completion ring) written at a count, with its bytes -/
  | completion (q : Nat) (count : Word) (bytes : List Byte)
  | event (vec : Nat)
  | readRsp (status : Nat) (tag : Nat) (bytes : List Byte)
  | regRsp (status : Nat) (tag : Nat) (value : Word) (offset : Nat)
  | error (reason : Nat) (seq : Word) (index : Nat)
  deriving DecidableEq, Repr

/-- One association slot (R403, R412 to R420, R423). -/
structure Assoc where
  /-- VALID | 1 | R423 | 0 -/
  valid : Bool := false
  /-- FAILOVER | 1 | R423 | 0 -/
  failover : Bool := false
  /-- PORT | 1 | R423 | 0 -/
  port : Nat := 0
  /-- MACREQ | 1 | R423 | 0 -/
  macReq : Bool := false
  /-- PCP | 3 | R423 | 0 -/
  pcp : Nat := 0
  /-- TAGGED | 1 | R423 | 0 -/
  tagged : Bool := false
  /-- VID | 12 | R423 | 0 -/
  vid : Nat := 0
  /-- HOMED and FN | 8 | R403, R423 | 0 -/
  fn : Option Nat := none
  /-- NET_Aa_ID.ASSOC | 16 | R423 | 0 -/
  id : Nat := 0
  /-- PEER | 48 | R423 | 0 -/
  peer : Nat := 0
  /-- RTO in µs | 16 | R423 | 500 -/
  rto : Nat := 500
  /-- RETRYMAX | 4 | R423 | 6 -/
  retryMax : Nat := 6
  /-- ACKDLY in µs | 8 | R423 | 20 -/
  ackDly : Nat := 20
  /-- ASSOCTMO in s | 8 | R423 | 1 -/
  assocTmo : Nat := 1
  /-- RXWIN | 9 | R423 | 64 -/
  rxWin : Nat := 64
  /-- STATE | 3 | R412, R423 | CLOSED -/
  st : AssocSt := .closed
  /-- CURPORT | 1 | R420, R423 | 0 -/
  curPort : Nat := 0
  /-- FAILOVERS | 16, RC | R423 | 0 -/
  failovers : Nat := 0
  /-- TXSEQ | 32 | R423 | 0 -/
  txSeq : Word := 0#32
  /-- RXSEQ | 32 | R423 | 0 -/
  rxSeq : Word := 0#32
  /-- RESENT | 16, RC | R423 | 0 -/
  resent : Nat := 0
  /-- EXPIRIES | 16, RC | R423 | 0 -/
  expiries : Nat := 0
  /-- BADREC | 16, RC | R423 | 0 -/
  badRec : Nat := 0
  /-- OUTOFWIN | 16, RC | R423 | 0 -/
  outOfWin : Nat := 0
  /-- the frames sent and not acknowledged, oldest first, with their SEQ and records | R416, R418 | none -/
  unacked : List (Word × List CrqRec) := []
  /-- records waiting to be put into frames | R411 | none -/
  queue : List RecOut := []
  /-- the peer's last WIN | 9 | R416, R418 | 1 until a frame gives it (DESIGN CHOICE log 7) -/
  peerWin : Nat := 1
  /-- the initial SEQ of the last OPEN | 32 | R413 | none -/
  openSeq : Option Word := none
  /-- the Vetia's initial sequence number of the last opening | 32 | R413 | 0 -/
  iss : Word := 0#32
  /-- an opening has happened since homing | 1 | R413 | 0 -/
  opened : Bool := false
  /-- consecutive expiries with no frame freed | R418 | 0 -/
  tries : Nat := 0
  /-- the retransmission backoff: the timeout is RTO times this | 1, 2, 4 or 8 | R418 | 1 -/
  backoff : Nat := 1
  /-- the retransmission timer runs | 1 | R418 | 0 -/
  retx : Bool := false
  /-- received DATA frames not acknowledged | R417 | 0 -/
  rxUnacked : Nat := 0
  deriving DecidableEq, Repr

/-- The network block (R422). -/
structure Net where
  /-- NET_STATUS.CFGERR | 1 | R422 | 0 -/
  cfgerr : Bool := false
  /-- the two ports | R422 | as EthPort -/
  ports : Tab EthPort := []
  /-- the 32 association slots | R423 | as Assoc -/
  assocs : Tab Assoc := []
  /-- the network island did not come up at the last exit: both ports stay down | 1 | R466 | 0 -/
  dead : Bool := false
  /-- the network island is gated in DOZE | 1 | R460, R572 | 0 -/
  gated : Bool := false
  deriving DecidableEq, Repr
/-! ### Long operations (chapter 13) -/

/-- The kinds of long operation (R435), the self-tests by theirs (R430). -/
inductive OpKind where
  | engine | lane | dramRegion | monitor | scrub | reshape | streamJob | download | calMeasure
  deriving DecidableEq, Repr

/-- KIND codes (R435). -/
def OpKind.code : OpKind → Nat
  | .engine | .lane | .dramRegion | .monitor => 1
  | .scrub => 2
  | .reshape => 3
  | .streamJob => 4
  | .download => 5
  | .calMeasure => 6

/-- The states of an operation (R438). -/
inductive OpSt where
  | running | suspended | cancelling | done
  deriving DecidableEq, Repr

def OpSt.code : OpSt → Nat
  | .running => 0
  | .suspended => 1
  | .cancelling => 2
  | .done => 3

/-- One operation record (R437) with what the operation carries. -/
structure Op where
  /-- OPID | 16 | R436 -/
  opid : Nat
  /-- owner | 7 | R435 -/
  fn : Nat
  kind : OpKind
  /-- CID of the starting command | 16 | R437 -/
  cid : Nat
  /-- the starting command's dwords | 16 x 32 | R424 -/
  cmd : List Word := []
  /-- STATE | 2 | R438 -/
  st : OpSt := .running
  /-- SUSPREQ | 1 | R438 -/
  suspReq : Bool := false
  /-- the LONG_SUSPEND commands that wait for the safe point: issuer and CID | R428, R439 | none -/
  suspWait : List (Nat × Nat) := []
  /-- OUTCOME | 8 | R437 -/
  outcome : Nat := 0
  /-- MFN of the last state change | 14 | R437 -/
  mfn : Mfn := 0#14
  /-- PROGRESS | 32 | R437 -/
  progress : Nat := 0
  /-- TOTAL | 32 | R437 -/
  total : Nat := 0
  /-- RESHAPE: ports still to be moved, ports moved | R433 -/
  rest : List Nat := []
  moved : List Nat := []
  /-- RESHAPE: the cut MFN of the port in move | R68 | none -/
  cut : Option Mfn := none
  /-- STREAM_JOB: function, WQ and WQCOUNT, and its instance | R364 -/
  job : Option (Nat × Nat × Word × Nat) := none
  /-- PERIPH_DOWNLOAD: the payload; a transfer is in progress; a DELAY runs; status of the last transfer | R434 -/
  payload : List Byte := []
  busy : Bool := false
  /-- PERIPH_DOWNLOAD: bytes acknowledged | 26 | R430 | 0 -/
  acked : Nat := 0
  delay : Bool := false
  lastStatus : Nat := 0
  /-- SELFTEST: the steps and findings recorded; CAL_MEASURE: the entries measured | R511, R430 -/
  record : List Word := []
  /-- SELFTEST: a step has failed what is under test | R440 -/
  failed : Bool := false
  /-- DRAMREGION: how far the present block is: copied, marched (1 to 2) | 2 | R440, R512 | 0 -/
  phase : Nat := 0
  /-- a power-state entry suspended it, so that its end resumes it | R571 | 0 -/
  byPower : Bool := false
  /-- its owner has been reset: no completion, and its record goes at its end | R442 | 0 -/
  dropped : Bool := false
  /-- `Aq.epoch` when its starting command was fetched | the model's own number | R123 | 0 -/
  epoch : Nat := 0
  deriving DecidableEq, Repr

/-- The operation records of the device (R436). -/
structure Ops where
  /-- the records, oldest first | at most 256, 16 a function | R436 | none -/
  recs : List Op := []
  /-- the last OPID assigned | 16 | R436 | 0 -/
  lastId : Nat := 0
  /-- STREAM_JOBs that wait for a record, oldest first: function, WQ, WQCOUNT | R436 | none -/
  jobsWait : List (Nat × Nat × Word) := []
  deriving DecidableEq, Repr
/-! ### Power (chapter 14) -/

/-- Power states of the device (R443, R470). -/
inductive PwrState where
  | active | entering | doze | nap | deep | exiting | wakeFail | mgmtOnly
  deriving DecidableEq, Repr

/-- Cleat (R443 to R470). -/
structure Pwr where
  /-- PWR_STATUS.STATE and the transitions between its values | R443, R470 | ACTIVE -/
  st : PwrState := .active
  /-- the step of the entry (R447) or exit (R459) that runs | 0 when neither does -/
  step : Nat := 0
  /-- the state that the entry goes to | R447 | none -/
  target : PwrState := .active
  /-- who gave the command that runs, until it has completed | R449 | none -/
  who : Option PwrWho := none
  /-- descriptors completed POWER_CANCELLED by the entry that runs | OUT0 | R449 | 0 -/
  cancelled : Nat := 0
  /-- PWR_STATUS.HOSTON | 1 | R451, R470 | 0 -/
  hostOn : Bool := false
  /-- the host island is gated | 1 | R451 | 0 -/
  hostGated : Bool := false
  /-- PWR_STATUS.LASTRES | 3 | R470 | 0 -/
  lastRes : Nat := 0
  /-- PWR_STATUS.CLUSLEEP | 16 | R470 | 0 -/
  clusleep : Nat := 0
  /-- PWR_CFG.DEEPWAIT | 8 | R470 | 10 -/
  deepWait : Nat := 10
  /-- PWR_CFG.NAPWAIT | 8 | R470 | 100 -/
  napWait : Nat := 100
  /-- PWR_CFG.DOZEIDLE | 8 | R470 | 10 -/
  dozeIdle : Nat := 10
  /-- PWR_CFG.WAKEOUT | 1 | R470 | 1 -/
  wakeOut : Bool := true
  /-- PWR_CFG.TETHERWAKE | 1 | R470 | 0 -/
  tetherWake : Bool := false
  /-- PWR_WAKESRC | 9, W1C | R470 | 0 -/
  wakeSrc : Nat := 0
  /-- PWR_WAKETMR | 32 | R456, R470 | 0 -/
  wakeTmr : Word := 0#32
  /-- PWR_SLEPT.US | 32 | R470 | 0 -/
  slept : Nat := 0
  /-- PWR_EXIT.FAILSTEP | 4 | R470 | 0 -/
  failStep : Nat := 0
  /-- PWR_EXIT.RETRIES | 4 | R470 | 0 -/
  retries : Nat := 0
  /-- PWR_EXIT.DUR | 24 | R470 | 0 -/
  dur : Nat := 0
  /-- PWR_RETLOST0.GROUP, by bit | 16, W1C | R461, R470 | 0 -/
  retLost0 : Nat := 0
  /-- PWR_RETLOST1.ISLAND, by bit | 9, W1C | R461, R470 | 0 -/
  retLost1 : Nat := 0
  /-- PWR_COUNT.ENTRIES | 16, RC | R470 | 0 -/
  entries : Nat := 0
  /-- PWR_COUNT.ABORTS | 16, RC | R470 | 0 -/
  aborts : Nat := 0
  /-- PWR_WAKEPORT: VALID and PORT | 8 | R470 | 0 -/
  wakePort : Option Nat := none
  /-- PWR_PORTWAKEk, the armed ports, ascending | 128 | R454, R470 | none -/
  armed : List Nat := []
  /-- PWR_PORTAUTOk, the ports suspended by an entry, ascending | 128 | R447, R470 | none -/
  auto : List Nat := []
  /-- the ports whose device K was the wake | R459 step 8 | none -/
  woken : List Nat := []
  /-- the closing window runs | 1 | R453 | 0 -/
  window : Bool := false
  /-- the level wakes now asserted, by the bit of PWR_WAKESRC | R453, R454 | none -/
  levels : List Nat := []
  /-- clusters that did not confirm HELD in the entry that runs | OUT5 | R449 | none -/
  notHeld : List Nat := []
  /-- REG_EN3 was dropped | 1 | R457 | 0 -/
  reg3Off : Bool := false
  /-- the exit's step 1: the regulator awaited, and the attempts made | R459, R462 | 0 -/
  reg : Nat := 0
  regTries : Nat := 0
  /-- the enabled regulators whose PG has fallen | 4 | R468, R486 | none -/
  pgLow : List Nat := []
  /-- the exit waits the 10 ms of R462 | 1 | R462 | 0 -/
  regWait : Bool := false
  /-- the attempts of the core PLL, and of DRAM_RDY | R459, R465 | 0 -/
  pllTries : Nat := 0
  dramTries : Nat := 0
  /-- the clusters whose PLL is awaited; those retried; those that failed | R459 step 3 | none -/
  pllWait : List Nat := []
  pllAgain : List Nat := []
  /-- the core PLL has locked | 1 | R459 | 0 -/
  corePll : Bool := false
  /-- the islands whose ISL_RDY is awaited (R461's classes, with 256 × class + index); those retried | R459 step 5 | none -/
  islWait : List Nat := []
  islAgain : List Nat := []
  /-- SRAM groups and islands whose signature was not done at entry | R447 step 8 | none -/
  sigLostG : List Nat := []
  sigLostI : List Nat := []
  /-- the DRAM has been initialised afresh in the exit that runs | 1 | R465 | 0 -/
  dramLost : Bool := false
  /-- WAKE# is to be asserted at the end of the exit's regulator step | 1 | R457 | 0 -/
  wakeDue : Bool := false
  /-- the exit from DEEP left WAKE# asserted | 1 | R457 | 0 -/
  wakeN : Bool := false
  /-- a self-refresh exit awaits DRAM_RDY after DOZE | 1 | R460 | 0 -/
  dramWait : Bool := false
  /-- islands ungated in DOZE for an access | R460 | none -/
  ungated : List Nat := []
  deriving DecidableEq, Repr
/-! ### The fault collector (chapter 15) -/

/-- A fault message waiting for Beryl (R471, R474); KIND by its code (R473). -/
structure FltMsg where
  /-- KIND | 6 | R471, R473 -/
  kind : Nat
  /-- ADDR | 40 | R471 -/
  addr : Nat
  /-- REP | 8 | R471, R474 -/
  rep : Nat := 0
  deriving DecidableEq, Repr

/-- One fault source: its settings and its status (R475, R494). -/
structure FltSrc where
  /-- FLT_SRCCFG.N | 8 | R475, R494 | R483 -/
  n : Nat := 1
  /-- FLT_SRCCFG.W in µs | 24 | R475, R494 | R483 -/
  w : Nat := 1000000
  /-- FLT_SRCACT.T in µs | 20 | R475, R494 | R483 -/
  t : Nat := 1000000
  /-- FLT_SRCACT.ACTION | 3 | R480, R494 | R483 -/
  action : Nat := 0
  /-- FLT_SRCACT.FNMINOR | 1 | R484, R494 | 0 -/
  fnminor : Bool := false
  /-- FLT_SRCSTAT.SEVERE | 1 | R475, R494 | 0 -/
  severe : Bool := false
  /-- FLT_SRCSTAT.MINOR | 1 | R475, R494 | 0 -/
  minor : Bool := false
  /-- FLT_SRCSTAT.ESCALATED | 1 | R479, R494 | 0 -/
  escalated : Bool := false
  /-- FLT_SRCSTAT.COUNT | 8 | R475, R494 | 0 -/
  count : Nat := 0
  /-- FLT_SRCSTAT.WINRUN, the window runs | 1 | R475, R494 | 0 -/
  win : Bool := false
  /-- the reaction timer runs | 1 | R475, R479 | 0 -/
  react : Bool := false
  /-- FLT_SRCSTAT.LASTKIND | 6 | R494 | 0 -/
  lastKind : Nat := 0
  /-- the kind that made the source SEVERE | 6 | R486 | 0 -/
  sevKind : Nat := 0
  /-- ADDR of the message that made the source SEVERE | 40 | R480 | 0 -/
  sevAddr : Nat := 0
  /-- FLT_SRCTOT.EVENTS | 32, RC | R494 | 0 -/
  tot : Nat := 0
  /-- the messages waiting for Beryl, oldest first | at most 4 | R474 | none -/
  queue : List FltMsg := []
  deriving DecidableEq, Repr

/-- R472: the numbers that are used as a fault source. -/
def FltSrc.listed (s : Nat) : Bool :=
  s < 0xA2 || (0xB0 ≤ s && s < 0xD1) || (0xE0 ≤ s && s < 0xF0) || s == 0x100 || s == 0x110 || s == 0x111 ||
  s == 0x120 || s == 0x130 || s == 0x140 || s == 0x150 || s == 0x160 || s == 0x170 || s == 0x180 || s == 0x190

/-- R483: the settings of each source after device reset. (DEDUCED, log 174) -/
def FltSrc.dflt (s : Nat) : FltSrc :=
  if s < 0x80 then { n := 16, w := 10000000, t := 1000000, action := 1 }
  else if s < 0x90 then { n := 64, w := 1000000, t := 100000, action := 4 }
  else if s < 0xA0 then { n := 1, w := 1000000, t := 10000, action := 2 }
  else if s < 0xA2 then { n := 4, w := 1000000, t := 10000, action := 5 }
  else if 0xB0 ≤ s ∧ s < 0xD0 then { n := 4, w := 1000000, t := 10000, action := 2 }
  else if s = 0xD0 ∨ s = 0x100 then { n := 16, w := 1000000, t := 1000000, action := 0 }
  else if (0xE0 ≤ s ∧ s < 0xF0) ∨ s = 0x190 then { n := 255, w := 1000000, t := 1000000, action := 0 }
  else {}

/-- One history entry (R489, R490). -/
structure HistEntry where
  /-- SOURCE | 10 | R490 -/
  source : Nat
  /-- KIND | 6 | R490 -/
  kind : Nat
  /-- MFN | 14 | R490 -/
  mfn : Mfn
  /-- SEVERE | 1 | R490 -/
  severe : Bool
  /-- ADDR_LO, ADDR_HI | 40 | R490 -/
  addr : Nat
  /-- REP | 8 | R490 -/
  rep : Nat
  /-- COUNT | 8 | R490 -/
  count : Nat
  /-- SEQ | 16 | R489, R490 -/
  seq : Nat
  deriving DecidableEq, Repr

/-- The fault history and its mirror in the always-on island, which survives RESET_N (R489). -/
structure Hist where
  /-- FLT_HISTk, slots by number | 32 x 4 dwords | R489, R493 | mirror; empty at power-on -/
  slots : Tab HistEntry := []
  /-- FLT_HISTSEQ.VALID | 1 | R493 | mirror; 0 at power-on -/
  valid : Bool := false
  /-- FLT_HISTSEQ.SEQ, of the newest entry | 16 | R489, R493 | mirror; 0 at power-on -/
  seq : Nat := 0
  deriving DecidableEq, Repr

/-- Beryl (R474 to R494). -/
structure Flt where
  /-- the fault sources | 1,024 | R472, R483, R494 | R483 -/
  src : Tab FltSrc := []
  /-- the source whose message was accepted last, for the round robin | 10 | R474 | 0x3FF, so that source 0 comes
  first (DESIGN CHOICE, log 6) -/
  rr : Nat := 1023
  /-- an always-on source reported while the fabric island did not run, and that report makes it SEVERE: FAULT_N is low
  until it has been accepted | 1 | R474, R484 | 0 -/
  aonDue : Bool := false
  /-- FLT_STATUS.CFGERR | 1 | R493 | 0 -/
  cfgerr : Bool := false
  /-- FLT_KINDSEV0 | 32 | R477, R493 | 0x0002_8C00 -/
  kindsev0 : Word := 0x00028C00#32
  /-- FLT_KINDSEV1 | 32 | R477, R493 | 0 -/
  kindsev1 : Word := 0#32
  /-- FLT_DROPPED.COUNT | 32, RC | R474, R493 | 0 -/
  dropped : Nat := 0
  /-- FLT_SRCSEL.SOURCE | 10 | R494 | 0 -/
  sel : Nat := 0
  deriving DecidableEq, Repr
/-! ### Self-test and the safe state (chapter 16) -/

/-- TST_CLUc (R518). -/
structure TstClu where
  /-- CLUFAIL | 1 | R518 | 0 -/
  cluFail : Bool := false
  /-- MONFAIL | 1 | R518 | 0 -/
  monFail : Bool := false
  /-- MONSUSPECT | 1, W1C | R513, R518 | 0 -/
  monSuspect : Bool := false
  /-- SPAREUSED | 1 | R518 | 0 -/
  spareUsed : Bool := false
  /-- SPAREPOS | 3 | R518 | 0 -/
  sparePos : Nat := 0
  /-- PHYFAIL | 8 | R518 | 0 -/
  phyFail : Nat := 0
  deriving DecidableEq, Repr

/-- Spinel's status (R495 to R518). -/
structure Tst where
  /-- TST_STATUS.POSTDONE, GBL_STATE.POSTDONE | 1 | R45, R498 | 0 -/
  postdone : Bool := false
  /-- TST_STATUS.SAFE, GBL_STATE.SAFE | 1 | R45, R500 | 0 -/
  safe : Bool := false
  /-- TST_STATUS.DEGRADED, GBL_STATE.DEGRADED | 1 | R45, R498 | 0 -/
  degraded : Bool := false
  /-- TST_STATUS.STAGE | 4 | R496, R517 | 1 -/
  stage : Nat := 1
  /-- TST_STATUS.FAILSTAGE | 4 | R517 | 0 -/
  failStage : Nat := 0
  /-- TST_POSTTIME.COUNT | 16 | R517 | 0 -/
  count : Nat := 0
  /-- TST_POSTTIME.MS | 16 | R517 | 0 -/
  ms : Nat := 0
  /-- TST_SAFE.CAUSE | 3 | R500, R517 | 0 -/
  cause : Nat := 0
  /-- TST_SAFE.SOURCE | 10 | R517 | 0 -/
  source : Nat := 0
  /-- TST_SAFE.KIND | 6 | R517 | 0 -/
  kind : Nat := 0
  /-- TST_SAFEMFN | 14 | R517 | 0 -/
  safeMfn : Mfn := 0#14
  /-- TST_SRAMREP.FUSED, repairs applied from fuses | 16 | R517 | 0 -/
  sramFused : Nat := 0
  /-- TST_SRAMREP.SOFT | 16 | R503, R517 | 0 -/
  sramSoft : Nat := 0
  /-- soft repairs that have since been burned | R504 | 0 -/
  sramBurnt : Nat := 0
  /-- TST_DRAMREP.UNREP | 16 | R517 | 0 -/
  dramUnrep : Nat := 0
  /-- TST_DRAMREP.REP | 16 | R517 | 0 -/
  dramRep : Nat := 0
  /-- TST_LANEFAIL, the failed lanes, ascending | 32 | R507, R517 | none -/
  laneFail : List Nat := []
  /-- the ports out of service (the zeros of TST_PORTOKk), ascending | 128 | R508, R517 | none -/
  portBad : List Nat := []
  /-- TST_FUSEST.BUSY | 1 | R504, R517 | 0 -/
  fuseBusy : Bool := false
  /-- TST_FUSEST.ERR | 1, W1C | R504, R517 | 0 -/
  fuseErr : Bool := false
  /-- the clusters' results | R518 -/
  clu : Tab TstClu := []
  /-- the network failed its stage | 1 | R507 | 0 -/
  netFail : Bool := false
  /-- the relocation window is unusable | 1 | R505, R512 | 0 -/
  relocBad : Bool := false
  /-- the host island failed, or the safe state was entered before stage 4 ended | 1 | R501 | 0 -/
  linkHeld : Bool := false
  /-- the fabric island failed | 1 | R501 | 0 -/
  fabricBad : Bool := false
  deriving DecidableEq, Repr
/-! ### Service port, Tether, calibration and boot image (chapter 17) -/

/-- A command of the service port (R525): its four dwords and the data taken so far. -/
structure LnyCmd where
  opcode : Nat
  tag : Nat
  len : Nat
  arg0 : Word
  arg1 : Word
  data : List Byte := []
  /-- it has begun and waits for its end (a calibration write, an image, a power command) -/
  begun : Bool := false
  deriving DecidableEq, Repr

/-- The service port (R519 to R529, R558). -/
structure Lny where
  /-- LNY_CTRL.FSONLY | 1 | R558 | 0 -/
  fsOnly : Bool := false
  /-- LNY_CTRL.WREN | 1 | R558 | 1 -/
  wren : Bool := true
  /-- LNY_CTRL.EN | 1 | R558 | 1 -/
  en : Bool := true
  /-- LNY_STATUS.VBUS | 1 | R558 | 0 -/
  vbus : Bool := false
  /-- LNY_STATUS.CONFIGURED | 1 | R558 | 0 -/
  configured : Bool := false
  /-- LNY_STATUS.SPEED: 0 none, 2 FS, 3 HS | 2 | R558 | 0 -/
  speed : Nat := 0
  /-- LNY_STATUS.SUSPENDED | 1 | R558 | 0 -/
  suspended : Bool := false
  /-- LNY_STATUS.ADDRESS | 7 | R558 | 0 -/
  address : Nat := 0
  /-- LNY_STATUS.LASTOP | 8 | R558 | 0 -/
  lastOp : Nat := 0
  /-- LNY_ERR.CRCERR | 16, RC | R558 | 0 -/
  crcErr : Nat := 0
  /-- LNY_ERR.BADCMD | 8, RC | R558 | 0 -/
  badCmd : Nat := 0
  /-- LNY_ERR.STREAMDROP | 8, RC | R558 | 0 -/
  streamDrop : Nat := 0
  /-- the fault-stream entries waiting on EP3 IN, oldest first | 64 and the buffers | R528 | none -/
  stream : List HistEntry := []
  /-- entries were dropped since the last one sent | 1 | R528 | 0 -/
  dropMark : Bool := false
  /-- halted endpoints, by address | R522 | none -/
  halted : List Nat := []
  /-- the test mode set by SET_FEATURE(TEST_MODE) | 3 | R520 | 0 -/
  testMode : Nat := 0
  /-- packets taken on EP1, EP2 and EP4 OUT and not yet taken by the command logic, oldest first | 2 a piece | R523 | none -/
  out1 : List (List Byte) := []
  out2 : List (List Byte) := []
  out4 : List (List Byte) := []
  /-- responses queued for EP1 IN, and what is left of the data queued for EP2 IN, oldest first | R523, R525 | none -/
  in1 : List (List Byte) := []
  in2 : List (List Byte) := []
  /-- bytes queued for EP4 IN | two buffers | R523, R528 | none -/
  in4 : List Byte := []
  /-- endpoint addresses whose next data packet is DATA1 | R522 (USB 2.0) | none -/
  tog : List Nat := []
  /-- bytes of EP2 OUT still to be discarded, of a refused command | R526 | 0 -/
  discard : Nat := 0
  /-- the command that is being carried out | R525 | none -/
  cmd : Option LnyCmd := none
  /-- a RESET command's response is queued; the reset follows it | 1 | R526 | 0 -/
  resetDue : Bool := false
  deriving DecidableEq, Repr

/-- The Tether (R530 to R535, R557). -/
structure Tth where
  /-- TTH_CTRL.PECREQ | 1 | R557 | 0 -/
  pecReq : Bool := false
  /-- TTH_CTRL.WRCMD | 1 | R557 | 1 -/
  wrCmd : Bool := true
  /-- TTH_CTRL.ALERTEN | 1 | R557 | 1 -/
  alertEn : Bool := true
  /-- ADDR[2:0] as sampled; TTH_STATUS.ADDR is 0x58 plus it | 3 | R531, R557 | strap: 0 (DESIGN CHOICE, log 8) -/
  strap : Nat := 0
  /-- TTH_STATUS.MBFULL | 1 | R535, R557 | 0 -/
  mbfull : Bool := false
  /-- ALERT# is driven low | 1 | R535 | 0 -/
  alertLow : Bool := false
  /-- TTH_STATUS.LASTSTAT | 8 | R557 | 0 -/
  lastStat : Nat := 0
  /-- TTH_STATUS.LASTCMD | 8 | R557 | 0 -/
  lastCmd : Nat := 0
  /-- TTH_DOORBELL | 32 | R557 | 0 -/
  doorbell : Word := 0#32
  /-- a doorbell waits for the fabric island | 1 | R532, R533 | 0 -/
  dbWaits : Bool := false
  /-- TTH_MAILBOX | 32 | R557 | 0 -/
  mailbox : Word := 0#32
  /-- TTH_ERR.NACKS | 16, RC | R557 | 0 -/
  nacks : Nat := 0
  /-- TTH_ERR.TIMEOUTS | 8, RC | R557 | 0 -/
  timeouts : Nat := 0
  /-- TTH_ERR.PECERR | 8, RC | R557 | 0 -/
  pecErr : Nat := 0
  /-- the PF BAR0 offset selected for REGDATA | 32 | R532 | 0 -/
  sel : Nat := 0
  deriving DecidableEq, Repr

/-- One slot of the calibration store (R536, R537). -/
structure CalSlot where
  /-- the body last written; none while the slot holds what the factory wrote | R537, R538 | factory -/
  body : Option (List Byte) := none
  /-- WRITES | 10 | R537 | 1 -/
  writes : Nat := 1
  /-- its TYPE, LEN or CRC does not check | 1 | R541 | 0 -/
  bad : Bool := false
  /-- the always-on copy holds neutral values in its place | 1 | R541 | 0 -/
  neutral : Bool := false
  deriving DecidableEq, Repr

/-- Who runs a calibration write, a stage or an apply (R526, R539, R551). -/
inductive MaintWho where
  | admin | lanyard
  deriving DecidableEq, Repr

/-- The calibration store and its registers (R536 to R543, R556). -/
structure Cal where
  /-- the slots by record type; an unlisted one holds the factory's values | R536 | factory -/
  slots : Tab CalSlot := []
  /-- the write that runs: who, record type, body | R539 | none -/
  busy : Option (MaintWho × Nat × List Byte) := none
  /-- CAL_STATUS.LASTTYPE | 8 | R556 | 0 -/
  lastType : Nat := 0
  /-- CAL_STATUS.LASTSTAT | 8 | R556 | 0 -/
  lastStat : Nat := 0
  deriving DecidableEq, Repr

/-- A checked image (R546, R547). -/
structure Image where
  /-- IMAGEVER | 16 | R546 -/
  ver : Nat
  /-- the SHA-256 of the whole image | 256 | R554 -/
  digest : Nat
  /-- the DEVICE section's 8 dwords | R547 | none -/
  device : Option (List Word) := none
  /-- the SERVICE sections: SCOPE and three dwords | R547 | none -/
  services : List (Nat × List Word) := []
  deriving DecidableEq, Repr

/-- The boot loader and the image cache (R544 to R555). -/
structure Boot where
  /-- GBL_BOOT.DEVPEND and the retained DEVICE values | 1 and 8 x 32 | R553 | none -/
  devPend : Option (List Word) := none
  /-- GBL_BOOT.CACHELOST | 1, W1C | R554 | 0 -/
  cacheLost : Bool := false
  /-- GBL_BOOT.NOIMAGE | 1 | R550 | 0 -/
  noImage : Bool := false
  /-- GBL_BOOT.QUAD | 1 | R550 | 0 -/
  quad : Bool := false
  /-- GBL_BOOT.SLOT | 2 | R555 | 3 -/
  slot : Nat := 3
  /-- the image of the running slot; none when no image is in force | R550 | none -/
  running : Option Image := none
  /-- the running image was staged live | 1 | R554 | 0 -/
  live : Bool := false
  /-- the running image's words cannot be used (CACHELOST) | 1 | R554 | 0 -/
  lost : Bool := false
  /-- the flash image is being read again | 1 | R296, R461, R554 | 0 -/
  rereading : Bool := false
  /-- a valid staged image | R551 | none -/
  staged : Option Image := none
  /-- the functions for which the staged image is in force, ascending | R552 | none -/
  inForce : List Nat := []
  /-- a stage runs: who gave it, and what the check of its image will show (detail code, or the image) | R551 | none -/
  staging : Option (MaintWho × Nat × Option Image) := none
  /-- the boot read is done | 1 | R550 | 0 -/
  read : Bool := false
  /-- the directory read in progress at boot: the image entry being read | R550 | 0 -/
  entry : Nat := 0
  /-- the Subsystem ID in force | 16 | R50, R547 | 0 -/
  subsys : Nat := 0
  /-- GBL_KEYSTAGEk, k = 0 to 7 | 8 x 32 | R555 | 0 -/
  keyStage : Tab Word := []
  /-- GBL_KEYCTL.BUSY | 1 | R555 | 0 -/
  keyBusy : Bool := false
  /-- the hash that the burn that runs writes | 8 x 32 | R549 | none -/
  keyBurn : List Word := []
  /-- GBL_KEYCTL.ERR | 1, W1C | R555 | 0 -/
  keyErr : Bool := false
  deriving DecidableEq, Repr

/-! ### Package and electrical (chapters 19 and 20) -/

/-- The states of the test access port (R594: IEEE 1149.1). -/
inductive Tap where
  | reset | idle | selDr | capDr | shDr | ex1Dr | pauDr | ex2Dr | updDr | selIr | capIr | shIr | ex1Ir | pauIr | ex2Ir | updIr
  deriving DecidableEq, Repr

/-- The test access port (R594). It lives in the always-on island. -/
structure Jtag where
  /-- the TAP controller's state | R594 | Test-Logic-Reset -/
  tap : Tap := .reset
  /-- the instruction register in force | 8 | R594 | 0x01 IDCODE -/
  ir : Nat := 1
  /-- the instruction shift register | 8 | R594 | 0 -/
  irSh : Nat := 0
  /-- the data shift register of IDCODE or BYPASS | 32 | R594 | 0 -/
  drSh : Nat := 0
  /-- TDO as driven; none while it is high impedance | R590 | none -/
  tdo : Option Bool := none
  /-- EXTEST, CLAMP or HIGHZ has taken the covered pads from the device | 1 | R594 | 0 -/
  taken : Bool := false
  deriving DecidableEq, Repr

/-- The fuses, which nothing clears (R504, R549, R595). -/
structure Otp where
  /-- TST_FUSEST.USED, repair records burned | 9 | R504, R517 | 0 (blank at shipment: DESIGN CHOICE, log 9) -/
  used : Nat := 0
  /-- GBL_KEYHASHk, once programmed | 8 x 32 | R549, R555 | blank -/
  keyHash : Option (List Word) := none
  /-- GBL_DBG.LOCKED | 1 | R595, R596 | not burned -/
  dbgLock : Bool := false
  deriving DecidableEq, Repr

/-- GBL_DBG and GBL_TEMP (R596, R615). -/
structure Aon where
  /-- GBL_DBG.ERR | 1, W1C | R596 | 0 -/
  dbgErr : Bool := false
  /-- GBL_DBG.BUSY | 1 | R596 | 0 -/
  dbgBusy : Bool := false
  /-- GBL_TEMP.CRIT | 1 | R615 | 0 -/
  crit : Bool := false
  /-- GBL_TEMP.WARNTH | 8 | R615 | 105 -/
  warnTh : Nat := 105
  /-- GBL_TEMP.TEMP in 0.25 degree steps | 11 | R615 | 0 -/
  temp : BitVec 11 := 0#11
  /-- TESTEN was 1 when VDD_AON rose: the factory test mode | 1 | R591 | 0 (strap; DESIGN CHOICE, log 8) -/
  testen : Bool := false
  /-- RESET_N is low | 1 | R612 | 0 -/
  resetN : Bool := false
  /-- the DRAM contents have been lost by a fall of VDD_DRAM | 1 | R593 | 0 -/
  dramFell : Bool := false
  /-- VDD_AON or VDD_RET has fallen, so that the device needs power-on | 1 | R593 | 0 -/
  off : Bool := false
  deriving DecidableEq, Repr
/-- The chip: everything but the lock bits, the fuses, the test access port and the queue of commands. -/
structure Chip where
  /-- MFN | 14 | R12, R44 | 0 -/
  mfn : Mfn := 0#14
  /-- what the block has emitted, in order | the model's own (log 2) | empty -/
  out : List Out := []
  /-- the number of the next free value | the model's own (log 3) | 0 (DESIGN CHOICE) -/
  free : Nat := 0
  pci : Pci := {}
  fns : Tab Fun := []
  /-- the function pointer of fetch arbitration | 7 | R104 | 0 (DESIGN CHOICE log 6) -/
  arbPtr : Nat := 0
  /-- the function whose admin command was fetched last | 7 | R125 | 127, so that PF0 comes first (DESIGN CHOICE log 6) -/
  aqPtr : Nat := 127
  stock : Stock := {}
  owners : Tab PortOwn := []
  wqs : Tab Wq := []
  cqs : Tab Cq := []
  /-- Q_WQn_MISSED.DBIGN by 64 x function + WQ | 16, RC | R95, R126 | 0 -/
  dbigns : Tab Nat := []
  evsh : EvtShared := {}
  flt : Flt := {}
  hist : Hist := {}
  net : Net := {}
  ports : Tab Port := []
  clus : Tab Clu := []
  sch : Sch := {}
  dsp : Dsp := {}
  svc : SvcBlk := {}
  grn : Grn := {}
  handles : Handles := {}
  ops : Ops := {}
  devs : Tab Dev := []
  eps : Tab Ep := []
  insts : Tab Inst := []
  pwr : Pwr := {}
  tst : Tst := {}
  lny : Lny := {}
  tth : Tth := {}
  cal : Cal := {}
  boot : Boot := {}
  aon : Aon := {}
  /-- the FAULT_N latch: the ball is driven low | 1 | R484 | 0 -/
  faultN : Bool := false
  deriving DecidableEq, Repr

/-- The LOCK bits of the blocks (R17): each, once 1, stays 1 until a device reset. -/
structure Locks where
  /-- EVT_SH_CTRL.LOCK | 1 | R398 | 0 -/
  evt : Bool := false
  /-- FLT_CTRL.LOCK | 1 | R493 | 0 -/
  flt : Bool := false
  /-- SCH_CTRL.LOCK | 1 | R197 | 0 -/
  sch : Bool := false
  /-- GRN_CTRL.LOCK | 1 | R301 | 0 -/
  grn : Bool := false
  /-- DSP_CTRL.LOCK | 1 | R328 | 0 -/
  dsp : Bool := false
  /-- SVC_CTRL.LOCK | 1 | R371 | 0 -/
  svc : Bool := false
  /-- NET_CTRL.LOCK | 1 | R422 | 0 -/
  net : Bool := false
  /-- PWR_CTRL.LOCK | 1 | R470 | 0 -/
  pwr : Bool := false
  /-- TST_CTRL.LOCK | 1 | R517 | 0 -/
  tst : Bool := false
  /-- CAL_CTRL.LOCK | 1 | R556 | 0 -/
  cal : Bool := false
  /-- TTH_CTRL.LOCK | 1 | R557 | 0 -/
  tth : Bool := false
  deriving DecidableEq, Repr

/-- The state of the block. -/
structure State where
  chip : Chip := {}
  locks : Locks := {}
  otp : Otp := {}
  jtag : Jtag := {}
  /-- the commands that are waiting, first in, first out -/
  pending : List Instr := []
  deriving DecidableEq, Repr

/-- The machine right after reset. -/
def State.reset : State := {}

/-- Why the block stops with a fault: there is no such case, since the spec gives every happening an outcome (R11). -/
inductive Fault where
  deriving DecidableEq, Repr

/-- Why a command has no meaning. -/
inductive Refusal where
  /-- raised by a command that has no meaning yet; safe. There is none. -/
  | notModelled (mnemonic : String)
  /-- raised by TCK_EDGE, when it scans the data register of an unlocked debug instruction (R594: 0x80 to 0xFE): the spec
  does not say what such access does; safe. -/
  | debugAccess
  deriving DecidableEq, Repr

/-- The device does nothing: RESET_N is low, or it has lost its power (R590, R593). -/
def Chip.dead (c : Chip) : Bool := c.aon.resetN || c.aon.off

/-- A command's effect on the chip, as an outcome: everything but the chip is left as it is. -/
def State.run (s : State) (g : Chip → Chip) : Host.Outcome State Fault Refusal :=
  .next { s with chip := if s.chip.dead then s.chip else g s.chip }

/-- The same for a command that has no effect in the safe state, in which its island does not run, or the register it
writes takes no writes (R501), nor in the factory test mode (R591). -/
def State.live (s : State) (g : Chip → Chip) : Host.Outcome State Fault Refusal :=
  s.run fun c => if c.tst.safe || c.aon.testen then c else g c

end Sys2Proof.Machine
end

