-- ==== Sys2Proof/Machine/Tab.lean ====
section
/-!
DEFINITION. Sparse tables in one canonical form. What an unlisted number reads as is the first argument, a function
of the number, so that equal tables are equal data.
-/
namespace Sys2Proof.Machine.Tab

/-- The entry of number `k`; an unlisted number reads as `d k`. -/
def get {α : Type} (d : Nat → α) : Tab α → Nat → α
  | [], k => d k
  | (j, a) :: r, k => if j = k then a else get d r k

/-- Remove the entry of number `k`. -/
def erase {α : Type} : Tab α → Nat → Tab α
  | [], _ => []
  | (j, a) :: r, k => if j = k then erase r k else (j, a) :: erase r k

/-- Insert at the place of its number; the table holds no entry of that number. -/
def insert {α : Type} : Tab α → Nat → α → Tab α
  | [], k, v => [(k, v)]
  | (j, a) :: r, k, v => if k < j then (k, v) :: (j, a) :: r else (j, a) :: insert r k v

/-- Write the entry of number `k`; writing what an unlisted number reads as removes the entry. -/
def set {α : Type} [DecidableEq α] (d : Nat → α) (t : Tab α) (k : Nat) (v : α) : Tab α :=
  if v = d k then erase t k else insert (erase t k) k v

/-- Change the entry of number `k`. -/
def upd {α : Type} [DecidableEq α] (d : Nat → α) (t : Tab α) (k : Nat) (f : α → α) : Tab α :=
  set d t k (f (get d t k))

/-- The entry of number `k`, if one is listed. -/
def find {α : Type} : Tab α → Nat → Option α
  | [], _ => none
  | (j, a) :: r, k => if j = k then some a else find r k

/-- Write the entry of number `k` in a table whose unlisted numbers hold nothing. -/
def put {α : Type} (t : Tab α) (k : Nat) (v : α) : Tab α := insert (erase t k) k v

/-- The numbers listed. -/
def keys {α : Type} (t : Tab α) : List Nat := t.map Prod.fst

/-- The canonical form: numbers strictly rising, no entry that equals what an unlisted number reads as. -/
def wf {α : Type} [DecidableEq α] (d : Nat → α) (t : Tab α) : Bool :=
  decide ((keys t).Pairwise (· < ·)) && t.all fun e => decide (e.2 ≠ d e.1)

end Sys2Proof.Machine.Tab
end

