-- ==== Sys2Proof/Machine/Ops.lean ====
section
/-!
DEFINITION. The named operations over the chip's state that every family uses: reading and writing its numbered
parts, emitting, reporting a fault to Beryl, and the memory a function's addresses reach.
-/
namespace Sys2Proof.Machine

/-! ### Numbered parts -/

/-- Function `f` (R60). -/
def Chip.fn (c : Chip) (f : Nat) : Fun := Tab.get Fun.dflt c.fns f
def Chip.updFn (c : Chip) (f : Nat) (g : Fun → Fun) : Chip := { c with fns := Tab.upd Fun.dflt c.fns f g }
/-- Fault source `s` (R494). -/
def Chip.fltSrc (c : Chip) (s : Nat) : FltSrc := Tab.get FltSrc.dflt c.flt.src s
def Chip.updFltSrc (c : Chip) (s : Nat) (g : FltSrc → FltSrc) : Chip :=
  { c with flt := { c.flt with src := Tab.upd FltSrc.dflt c.flt.src s g } }
/-- Private source `i` of function `f` (R397). -/
def Chip.src (c : Chip) (f i : Nat) : Src := Tab.get (fun _ => {}) (c.fn f).evt.src i
def Chip.updEvt (c : Chip) (f : Nat) (g : EvtBank → EvtBank) : Chip := c.updFn f fun x => { x with evt := g x.evt }
def Chip.updSrc (c : Chip) (f i : Nat) (g : Src → Src) : Chip :=
  c.updEvt f fun b => { b with src := Tab.upd (fun _ => {}) b.src i g }
/-- Vector `v` of function `f` (R383). -/
def Chip.vec (c : Chip) (f v : Nat) : Vec := Tab.get (fun _ => {}) (c.fn f).evt.vec v
def Chip.updVec (c : Chip) (f v : Nat) (g : Vec → Vec) : Chip :=
  c.updEvt f fun b => { b with vec := Tab.upd (fun _ => {}) b.vec v g }
/-- MSI-X entry `v` of function `f` (R42). -/
def Chip.msix (c : Chip) (f v : Nat) : MsixEntry := Tab.get (fun _ => {}) (c.fn f).msix v
def Chip.updMsix (c : Chip) (f v : Nat) (g : MsixEntry → MsixEntry) : Chip :=
  c.updFn f fun x => { x with msix := Tab.upd (fun _ => {}) x.msix v g }
/-- RETRIES: the retries of a port's power that are left (R253, R268). -/
def PortPwr.left (y : PortPwr) : Nat := y.retryMax - y.retried
/-- Shared source `s` (R398). -/
def Chip.sh (c : Chip) (s : Nat) : ShSrc := Tab.get ShSrc.dflt c.evsh.src s
def Chip.updSh (c : Chip) (s : Nat) (g : ShSrc → ShSrc) : Chip :=
  { c with evsh := { c.evsh with src := Tab.upd ShSrc.dflt c.evsh.src s g } }
/-- Work queue `n` of function `f`, if it exists (R126). -/
def Chip.wq (c : Chip) (f n : Nat) : Option Wq := Tab.find c.wqs (f * 64 + n)
def Chip.putWq (c : Chip) (f n : Nat) (q : Wq) : Chip := { c with wqs := Tab.put c.wqs (f * 64 + n) q }
def Chip.delWq (c : Chip) (f n : Nat) : Chip := { c with wqs := Tab.erase c.wqs (f * 64 + n) }
def Chip.updWq (c : Chip) (f n : Nat) (g : Wq → Wq) : Chip :=
  match c.wq f n with
  | some q => c.putWq f n (g q)
  | none => c
/-- Completion queue `n` of function `f`, if it exists (R127). -/
def Chip.cq (c : Chip) (f n : Nat) : Option Cq := Tab.find c.cqs (f * 16 + n)
def Chip.putCq (c : Chip) (f n : Nat) (q : Cq) : Chip := { c with cqs := Tab.put c.cqs (f * 16 + n) q }
def Chip.delCq (c : Chip) (f n : Nat) : Chip := { c with cqs := Tab.erase c.cqs (f * 16 + n) }
def Chip.updCq (c : Chip) (f n : Nat) (g : Cq → Cq) : Chip :=
  match c.cq f n with
  | some q => c.putCq f n (g q)
  | none => c
/-- The WQ numbers of function `f`, ascending. -/
def Chip.wqNums (c : Chip) (f : Nat) : List Nat :=
  (c.wqs.filter fun e => e.1 / 64 == f).map fun e => e.1 % 64
/-- The CQ numbers of function `f`, ascending. -/
def Chip.cqNums (c : Chip) (f : Nat) : List Nat :=
  (c.cqs.filter fun e => e.1 / 16 == f).map fun e => e.1 % 16
/-- Q_WQn_MISSED.DBIGN of a WQ number, which reads its count even while the WQ does not exist (R126). -/
def Chip.dbign (c : Chip) (f n : Nat) : Nat := Tab.get (fun _ => 0) c.dbigns (f * 64 + n)
/-- One more doorbell write without effect (R95), saturating at 0xFFFF. -/
def Chip.countDbign (c : Chip) (f n : Nat) : Chip :=
  { c with dbigns := Tab.upd (fun _ => 0) c.dbigns (f * 64 + n) fun x => satAdd 0xFFFF x 1 }
/-- Ethernet port `i` and association `a` (R422, R423). -/
def Chip.eth (c : Chip) (i : Nat) : EthPort := Tab.get (fun _ => {}) c.net.ports i
def Chip.updEth (c : Chip) (i : Nat) (g : EthPort → EthPort) : Chip :=
  { c with net := { c.net with ports := Tab.upd (fun _ => {}) c.net.ports i g } }
def Chip.assoc (c : Chip) (a : Nat) : Assoc := Tab.get (fun _ => {}) c.net.assocs a
def Chip.updAssoc (c : Chip) (a : Nat) (g : Assoc → Assoc) : Chip :=
  { c with net := { c.net with assocs := Tab.upd (fun _ => {}) c.net.assocs a g } }
/-- Device, endpoint context and service instance by handle (R257, R331). -/
def Chip.dev (c : Chip) (h : Nat) : Option Dev := Tab.find c.devs h
def Chip.ep (c : Chip) (h : Nat) : Option Ep := Tab.find c.eps h
/-- R333, R334: a bound instance, or the ENUM instance of function h - 0x800, which exists from device reset. -/
def Chip.inst (c : Chip) (h : Nat) : Option Inst :=
  match Tab.find c.insts h with
  | some i => some i
  | none => if 0x800 ≤ h ∧ h < 0x880 then some { svc := .enum } else none
/-- Port `p`, cluster `k`, lane `l` (R200, R269, R330). -/
def Chip.port (c : Chip) (p : Nat) : Port := Tab.get (fun _ => {}) c.ports p
def Chip.updPort (c : Chip) (p : Nat) (g : Port → Port) : Chip := { c with ports := Tab.upd (fun _ => {}) c.ports p g }
def Chip.updSc (c : Chip) (p : Nat) (g : PortSch → PortSch) : Chip := c.updPort p fun x => { x with sc := g x.sc }
def Chip.updPw (c : Chip) (p : Nat) (g : PortPwr → PortPwr) : Chip := c.updPort p fun x => { x with pw := g x.pw }
def Chip.updRun (c : Chip) (p : Nat) (g : EnumRun → EnumRun) : Chip := c.updPort p fun x => { x with run := g x.run }
def Chip.clu (c : Chip) (k : Nat) : Clu := Tab.get (fun _ => {}) c.clus k
def Chip.updClu (c : Chip) (k : Nat) (g : Clu → Clu) : Chip := { c with clus := Tab.upd (fun _ => {}) c.clus k g }
def Chip.lane (c : Chip) (l : Nat) : Lane := Tab.get (fun _ => {}) c.dsp.lanes l
def Chip.updLane (c : Chip) (l : Nat) (g : Lane → Lane) : Chip :=
  { c with dsp := { c.dsp with lanes := Tab.upd (fun _ => {}) c.dsp.lanes l g } }
/-- R309: a flow that is not FREE; flows 0 to 127 exist from device reset. -/
def Chip.flow (c : Chip) (i : Nat) : Option Flow :=
  match Tab.find c.dsp.flows i with
  | some x => some x
  | none => if i < 128 then some {} else none
def Chip.updFlow (c : Chip) (i : Nat) (g : Flow → Flow) : Chip :=
  match c.flow i with
  | some x => { c with dsp := { c.dsp with flows := Tab.put c.dsp.flows i (g x) } }
  | none => c
/-- Change the fields of a block. -/
def Chip.updDsp (c : Chip) (g : Dsp → Dsp) : Chip := { c with dsp := g c.dsp }
def Chip.updGrn (c : Chip) (g : Grn → Grn) : Chip := { c with grn := g c.grn }
def Chip.updSvc (c : Chip) (g : SvcBlk → SvcBlk) : Chip := { c with svc := g c.svc }
def Chip.updSch (c : Chip) (g : Sch → Sch) : Chip := { c with sch := g c.sch }
def Chip.updOps (c : Chip) (g : Ops → Ops) : Chip := { c with ops := g c.ops }
/-- The operation record with an OPID (R436). -/
def Chip.op (c : Chip) (i : Nat) : Option Op := c.ops.recs.find? fun o => o.opid == i
def Chip.updOp (c : Chip) (i : Nat) (g : Op → Op) : Chip :=
  c.updOps fun x => { x with recs := x.recs.map fun o => if o.opid = i then g o else o }
def Chip.updAq (c : Chip) (f : Nat) (g : Aq → Aq) : Chip := c.updFn f fun x => { x with aq := g x.aq }
def Chip.updDev (c : Chip) (h : Nat) (g : Dev → Dev) : Chip :=
  match c.dev h with
  | some x => { c with devs := Tab.put c.devs h (g x) }
  | none => c
def Chip.updEp (c : Chip) (h : Nat) (g : Ep → Ep) : Chip :=
  match c.ep h with
  | some x => { c with eps := Tab.put c.eps h (g x) }
  | none => c
def Chip.updInst (c : Chip) (h : Nat) (g : Inst → Inst) : Chip :=
  match c.inst h with
  | some x => { c with insts := Tab.put c.insts h (g x) }
  | none => c
/-- The ownership of port `p` (R65). -/
def Chip.own (c : Chip) (p : Nat) : PortOwn := Tab.get (fun _ => {}) c.owners p
def Chip.updOwn (c : Chip) (p : Nat) (g : PortOwn → PortOwn) : Chip :=
  { c with owners := Tab.upd (fun _ => {}) c.owners p g }
/-- The function that owns port `p` (R57). -/
def Chip.ownerOf (c : Chip) (p : Nat) : Nat := (c.own p).owner

/-- The root port of a device, and of an endpoint context's device. -/
def Chip.devPort (c : Chip) (h : Nat) : Option Nat := (c.dev h).map Dev.port
def Chip.epPort (c : Chip) (h : Nat) : Option Nat := (c.ep h).bind fun e => c.devPort e.dev
/-- R57: the function that owns a device, an endpoint context or a service instance. -/
def Chip.devOwner (c : Chip) (h : Nat) : Option Nat :=
  (c.dev h).bind fun d => if d.detached then none else some (c.ownerOf d.port)
def Chip.epOwner (c : Chip) (h : Nat) : Option Nat := (c.ep h).bind fun e => c.devOwner e.dev
/-- The ENUM instance of function f has the handle 0x800 + f (R331); the others belong to their port's owner. -/
def Chip.instOwner (c : Chip) (h : Nat) : Option Nat :=
  (c.inst h).map fun i => if i.svc == .enum then h - 0x800 else c.ownerOf i.port

/-! ### Transaction translators (R177, R199) -/

/-- The nearest HS hub above a FS or LS device, and its port on the way down (R177). -/
def Chip.ttOf : Nat → Chip → Nat → Option (Nat × Nat)
  | 0, _, _ => none
  | k + 1, c, d =>
    match (c.dev d).bind Dev.parent with
    | none => none
    | some (hub, port) =>
      match c.dev hub with
      | some x => if x.speed = .high then some (hub, if x.multiTt then port else 0) else Chip.ttOf k c hub
      | none => none

/-- The transaction translator of a device: none at HS or on an FS or LS root port. -/
def Chip.tt (c : Chip) (d : Nat) : Option (Nat × Nat) :=
  match c.dev d with
  | some x => if x.speed = .high then none else Chip.ttOf 6 c d
  | none => none

/-- Append to what the block emits. -/
def Chip.emit (c : Chip) (o : Out) : Chip := { c with out := c.out ++ [o] }

/-- Take a free value: its number, and the chip with the next number (log entry 3). -/
def Chip.fresh (c : Chip) : Nat × Chip := (c.free, { c with free := c.free + 1 })

/-- Repeat a change of the chip over a list, in its order. -/
def Chip.each {α : Type} (c : Chip) (l : List α) (g : Chip → α → Chip) : Chip := l.foldl g c

/-- R66: a function exists: PF0, or VFn with VF Enable 1 and n no greater than NumVFs. -/
def Chip.fnExists (c : Chip) (f : Nat) : Bool := f == 0 || (c.pci.vfEnable && f ≤ c.pci.numVfs)

/-- The functions that exist. -/
def Chip.fnNums (c : Chip) : List Nat := (List.range 128).filter c.fnExists

/-- A net-homed function (R403). -/
def Chip.homed (c : Chip) (f : Nat) : Bool := (c.fn f).home.isSome

/-- R75: the function's DMA is held. -/
def Chip.dmaHeld (c : Chip) (f : Nat) : Bool :=
  match (c.fn f).home with
  | some h => (c.assoc h.assoc).st == .stalled || (c.assoc h.assoc).st == .dormant
  | none => !(c.fn f).bme || c.pci.holdPerst || c.pci.holdLink

/-- R391: every function is asleep while PF0 is in D3hot or the device is in NAP or DEEP. (DEDUCED, log 191) -/
def Chip.asleep (c : Chip) : Bool := c.pci.d3hot || c.pwr.st == .nap || c.pwr.st == .deep

/-- The fabric island's clock runs and it has power (R376, R447, R459, R501): not in NAP, DEEP, WAKE_FAIL. -/
def Chip.fabricRuns (c : Chip) : Bool :=
  !(c.pwr.st == .nap || c.pwr.st == .deep || c.pwr.st == .wakeFail || c.pwr.st == .exiting)

/-- The scheduler island makes device microframe edges: not while the device sleeps, exits or is in its safe state
(R446, R447, R501). (DEDUCED, log 14) -/
def Chip.mfnRuns (c : Chip) : Bool := (c.pwr.st == .active || c.pwr.st == .entering) && !c.tst.safe

/-- R376, R460: the fabric island is clocked: it runs, and DOZE has not gated it. -/
def Chip.fabricClocked (c : Chip) : Bool := c.fabricRuns && (c.pwr.st != .doze || c.pwr.ungated.contains 5)

/-- R564: the first poll of the POLL WQs that satisfy `pr` falls due. -/
def Chip.pollsDue (c : Chip) (pr : Wq → Bool) : Chip :=
  { c with wqs := c.wqs.map fun (e : Nat × Wq) => (e.1, if e.2.mode == .poll && pr e.2 then { e.2 with pollDue := true } else e.2) }

/-! ### Reports to the fault collector -/

/-- R474: a block reports `kind` with `addr` from `src`. The source's buffer holds up to 4 messages; one that finds it
full adds 1 to REP of the newest and to FLT_DROPPED. -/
def Chip.report (c : Chip) (src kind addr : Nat) : Chip :=
  let q := (c.fltSrc src).queue
  if q.length < 4 then c.updFltSrc src fun s => { s with queue := s.queue ++ [{ kind := kind, addr := addr }] }
  else
    let c := c.updFltSrc src fun s =>
      { s with queue := s.queue.dropLast ++ (s.queue.getLast?.map fun m => { m with rep := satAdd 255 m.rep 1 }).toList }
    { c with flt := { c.flt with dropped := satAdd 0xFFFFFFFF c.flt.dropped 1 } }

/-- R473: the kinds by their codes. -/
def Kind.correctedSymbol : Nat := 0x01
def Kind.uncorrectable : Nat := 0x02
def Kind.timeout : Nat := 0x03
def Kind.range : Nat := 0x04
def Kind.protocol : Nat := 0x05
def Kind.overcurrent : Nat := 0x06
def Kind.undervolt : Nat := 0x07
def Kind.overvolt : Nat := 0x08
def Kind.lockstep : Nat := 0x09
def Kind.retentionLost : Nat := 0x0A
def Kind.readyTimeout : Nat := 0x0B
def Kind.babble : Nat := 0x0C
def Kind.linkDown : Nat := 0x0D
def Kind.accessViolation : Nat := 0x0E
def Kind.selftestFail : Nat := 0x0F
def Kind.thermalWarn : Nat := 0x10
def Kind.thermalCrit : Nat := 0x11
def Kind.escalated : Nat := 0x12

/-! ### Memory that a function's addresses reach -/

/-- What a byte of a window that nothing has written reads as: a window is filled with zeros when it is taken (R403). -/
def Memory.blank (_ : Nat) : Byte := 0#8
/-- The one form of a window's memory: offsets strictly rising, no byte listed that equals an unlisted one. -/
def Memory.wf (m : List Host.Cell) : Bool := Tab.wf Memory.blank m
/-- The byte at an offset. -/
def Memory.get (m : List Host.Cell) (o : Nat) : Byte := Tab.get Memory.blank m o
/-- Write bytes from offset `o` on. -/
def Memory.write (m : List Host.Cell) (o : Nat) : List Byte → List Host.Cell
  | [] => m
  | b :: r => Memory.write (Tab.set Memory.blank m o b) (o + 1) r

/-- The size of a homed window in bytes (R404). -/
def Home.size (h : Home) : Nat := h.pages * 4096
/-- Read `n` bytes of a window from offset `o`. -/
def Home.read (h : Home) (o n : Nat) : List Byte := (List.range n).map fun i => Memory.get h.mem (o + i)
/-- Write bytes to a window at offset `o`; a write that does not lie in it does nothing. -/
def Home.write (h : Home) (o : Nat) (bs : List Byte) : Home :=
  if h.size < o + bs.length then h else
  { h with mem := Memory.write h.mem o bs,
           poison := h.poison.filter fun p => !(o / 8 ≤ p / 8 && p / 8 ≤ (o + bs.length - 1) / 8) }
/-- R404: a range lies within the window. -/
def Home.within (h : Home) (o n : Nat) : Bool := o + n ≤ h.size
/-- R421: a range touches a poisoned word. (DEDUCED, log 125) -/
def Home.poisoned (h : Home) (o n : Nat) : Bool := h.poison.any fun p => o / 8 ≤ p / 8 && p / 8 ≤ (o + n - 1) / 8

/-- A write of the device for function `f`: to its window when it is homed (R404), else a posted memory write with the
function's Requester ID (R47). -/
def Chip.hostWrite (c : Chip) (f : Nat) (a : Addr) (bs : List Byte) (noSnoop : Bool := false) : Chip :=
  match (c.fn f).home with
  | some _ => c.updFn f fun x => { x with home := x.home.map fun h => h.write a.toNat bs }
  | none => c.emit (.memWrite f a bs noSnoop)

/-- A read request of the device for function `f`. A homed function's window answers at pool speed, with no PCIe
request (R404, R405). -/
def Chip.hostReadReq (c : Chip) (f : Nat) (a : Addr) (n : Nat) (noSnoop : Bool := false) : Chip :=
  if c.homed f then c else c.emit (.memRead f a n noSnoop)

/-- What such a read returns: the window's bytes for a homed function, else the bytes host memory returned. -/
def Chip.hostReadData (c : Chip) (f : Nat) (a : Addr) (n : Nat) (returned : List Byte) : List Byte :=
  match (c.fn f).home with
  | some h => h.read a.toNat n
  | none => returned

/-- Log an error in a function's AER registers (R49). -/
def Chip.logAer (c : Chip) (f : Nat) (e : AerErr) : Chip := c.updFn f fun x => { x with aer := x.aer ++ [e] }

end Sys2Proof.Machine
end

