-- ==== Sys2Proof/Machine/CalStore.lean ====
section
/-!
DEFINITION. The calibration store's records (R536 to R541): their bodies, legal values, headers, and the values in
force. The commands that write the store stand in Machine/Calibration.lean.
-/
namespace Sys2Proof.Machine

/-- R536: the record types, and the body bytes of each. -/
def calLen (t : Nat) : Option Nat :=
  if t = 0x01 then some 4 else if 0x10 ≤ t ∧ t < 0x20 then some 32 else if 0x20 ≤ t ∧ t < 0x30 then some 36 else none

/-- R536: the store offset of a record's slot. -/
def calOffset (t : Nat) : Nat :=
  if t = 0x01 then 0x040 else if t < 0x20 then 0x080 + (t - 0x10) * 0x40 else 0x480 + (t - 0x20) * 0x40

/-- R536: the record type whose slot covers a store offset. -/
def calAt (o : Nat) : Option Nat :=
  let k := o / 0x40
  if k = 1 then some 0x01 else if 2 ≤ k ∧ k < 18 then some (0x10 + (k - 2)) else if 18 ≤ k ∧ k < 34 then some (0x20 + (k - 18)) else none

/-- R538: dword `i` of a body holds legal values. -/
def calWordOk (t : Nat) (w : Word) : Bool :=
  if t = 0x01 then bits w 31 16 == 0
  else if t < 0x20 then bits w 7 5 == 0 && bits w 15 13 == 0 && bits w 31 20 == 0
  else 0x4000 ≤ bits w 31 16 && bits w 31 16 ≤ 0xC000 && (bits w 15 0 ≤ 2047 || 63488 ≤ bits w 15 0)

/-- R539: a body is legal for its type. -/
def calBodyOk (t : Nat) (bs : List Byte) : Bool :=
  match calLen t with
  | some n => bs.length == n && (bytesWords bs (n / 4)).all (calWordOk t)
  | none => false

/-- R536: what the factory wrote: free values within the ranges of R538 (log 4). (DESIGN CHOICE, log 73) -/
def calFactory (t : Nat) : List Byte :=
  let v := fun k => Config.factoryCal t k
  wordsBytes (if t = 0x01 then [mkWord [(v 0 % 256, 0), (v 1 % 256, 8)]]
    else if t < 0x20 then (List.range 8).map fun i =>
      mkWord [(v (3 * i) % 32, 0), (v (3 * i + 1) % 32, 8), (v (3 * i + 2) % 16, 16)]
    else (List.range 9).map fun i =>
      mkWord [(0x4000 + v (2 * i) % 0x8001, 16), ((63488 + v (2 * i + 1) % 4096) % 65536, 0)])

/-- R541: the neutral values. -/
def calNeutral (t : Nat) : List Byte :=
  wordsBytes (if t = 0x01 then [mkWord [(0x80, 0), (0x80, 8)]]
    else if t < 0x20 then List.replicate 8 (mkWord [(16, 0), (16, 8), (8, 16)])
    else List.replicate 9 (mkWord [(0x8000, 16)]))

def Chip.calSlot (c : Chip) (t : Nat) : CalSlot := Tab.get (fun _ => {}) c.cal.slots t
def Chip.updCal (c : Chip) (t : Nat) (g : CalSlot → CalSlot) : Chip :=
  { c with cal := { c.cal with slots := Tab.upd (fun _ => {}) c.cal.slots t g } }

/-- The body that stands in the array, and the one in force: the always-on island's copy (R541). -/
def Chip.calStored (c : Chip) (t : Nat) : List Byte := (c.calSlot t).body.getD (calFactory t)
def Chip.calBody (c : Chip) (t : Nat) : List Byte := if (c.calSlot t).neutral then calNeutral t else c.calStored t

/-- CLU_MONCALn (R269, R538). -/
def Chip.monCal (c : Chip) (k n : Nat) : Word := wordAt (c.calBody (0x20 + k)) (4 * n)
/-- The PHY trims of port `p` (R538). -/
def Chip.portTrim (c : Chip) (p : Nat) : Word := wordAt (c.calBody (0x10 + p / 8)) (4 * (p % 8))

/-- R539: the trims that a port takes as it enters RESETTING, DISCONNECTED or OFF; none for the factory's. -/
def Chip.takeTrim (c : Chip) (p : Nat) : Option Word :=
  if c.calSlot (0x10 + p / 8) = {} then none else some (c.portTrim p)

/-- R241: a raw sample corrected with its channel's calibration values. -/
def correct (cal : Word) (raw : Nat) : Nat :=
  let off : Int := if bits cal 15 0 < 32768 then (bits cal 15 0 : Int) else (bits cal 15 0 : Int) - 65536
  min (((raw : Int) - off) * (bits cal 31 16 : Int) / 32768).toNat 16383

/-- CRC-32 of IEEE 802.3 (R537, R546), one bit at a time. -/
def crc32 (bs : List Byte) : Word :=
  let step := fun (r : Word) (b : Byte) =>
    (List.range 8).foldl (fun r _ => if bit r 0 then (r >>> 1) ^^^ 0xEDB88320#32 else r >>> 1) (r ^^^ b.setWidth 32)
  (bs.foldl step 0xFFFFFFFF#32) ^^^ 0xFFFFFFFF#32

/-- R537: the 8-byte header of a slot with the CRC over dword 0x00 and the body. -/
def calHeader (t : Nat) (s : CalSlot) (body : List Byte) : List Byte :=
  let w := mkWord [(t, 0), (body.length, 8), (b2n s.body.isSome, 16), (s.writes, 17)]
  wordBytes w ++ wordBytes (crc32 (wordBytes w ++ body))

/-- R542: byte `o` of the store as it stands in the array. A slot whose record does not check holds what cannot be
told: a free byte (log 3). -/
def Chip.calByte (c : Chip) (o : Nat) : Byte :=
  match calAt o with
  | none => 0#8
  | some t =>
    let s := c.calSlot t
    if s.bad then Config.freeByte (0x1000 * s.writes + o)
    else (calHeader t s (c.calStored t) ++ c.calStored t).getD (o % 0x40) 0#8

end Sys2Proof.Machine
end

