-- ==== Sys2Proof/Machine/Descriptors.lean ====
section
/-!
DEFINITION. Work descriptors (chapter 04): their fields, the checks made at consumption, and the completion entry.
-/
namespace Sys2Proof.Machine

/-! ### Fields (R128, R129) -/

def Desc.type (d : Desc) : Nat := bits (dw d 0) 4 0
def Desc.ioc (d : Desc) : Bool := bit (dw d 0) 8
def Desc.express (d : Desc) : Bool := bit (dw d 0) 9
def Desc.index (d : Desc) : Bool := bit (dw d 0) 10
def Desc.noSnoop (d : Desc) : Bool := bit (dw d 0) 11
def Desc.zlp (d : Desc) : Bool := bit (dw d 0) 16
def Desc.phase (d : Desc) : Nat := bits (dw d 0) 31 31
def Desc.length (d : Desc) : Nat := bits (dw d 1) 25 0
def Desc.addr (d : Desc) : Addr := addr64 (dw d 2) (dw d 3)
/-- Index table address of the RAW types, and packet list address of the ISO types (R129). -/
def Desc.table (d : Desc) : Addr := addr64 (dw d 4) (dw d 5)
def Desc.elemLen (d : Desc) : Nat := bits (dw d 6) 15 0
def Desc.tmo (d : Desc) : Nat := bits (dw d 7) 15 0
def Desc.start (d : Desc) : Mfn := (dw d 6).extractLsb' 0 14
def Desc.asap (d : Desc) : Bool := bit (dw d 6) 31
def Desc.npkt (d : Desc) : Nat := bits (dw d 7) 12 0
/-- The eight set-up bytes (R136). -/
def Desc.setup (d : Desc) : List Byte := wordBytes (dw d 4) ++ wordBytes (dw d 5)
/-- SVC_REQ fields (R337). -/
def Desc.req (d : Desc) : Nat := bits (dw d 0) 24 17
def Desc.argA (d : Desc) : Nat := bits (dw d 4) 15 0
def Desc.argB (d : Desc) : Nat := bits (dw d 4) 31 16
def Desc.argC (d : Desc) : Word := if d.index then 0#32 else dw d 5
def Desc.svcTable (d : Desc) : Addr := addr64 (dw d 5) (dw d 6)
def Desc.svcElemLen (d : Desc) : Nat := bits (dw d 7) 31 16
/-- STREAM_JOB fields (R337): 0 in STALL means 5,000 ms. -/
def Desc.tag (d : Desc) : Nat := bits (dw d 4) 15 0
def Desc.stall (d : Desc) : Nat := if bits (dw d 7) 15 0 = 0 then 5000 else bits (dw d 7) 15 0

/-- The type table of R128. -/
inductive DType where
  | control | bulkOut | bulkIn | intrOut | intrIn | isoOut | isoIn | noop | svcReq | streamJob
  deriving DecidableEq, Repr

def DType.of : Nat → Option DType
  | 0x01 => some .control
  | 0x02 => some .bulkOut
  | 0x03 => some .bulkIn
  | 0x04 => some .intrOut
  | 0x05 => some .intrIn
  | 0x06 => some .isoOut
  | 0x07 => some .isoIn
  | 0x08 => some .noop
  | 0x10 => some .svcReq
  | 0x11 => some .streamJob
  | _ => none

def Desc.ty (d : Desc) : Option DType := DType.of d.type

/-- Service types: a request or a job on a service instance. -/
def DType.isSvc : DType → Bool
  | .svcReq | .streamJob => true
  | _ => false
def DType.isIso : DType → Bool
  | .isoOut | .isoIn => true
  | _ => false
def DType.isXferIn : DType → Bool
  | .bulkIn | .intrIn => true
  | _ => false
def DType.isXferOut : DType → Bool
  | .bulkOut | .intrOut => true
  | _ => false

/-- R136: the data stage of a control transfer is IN. -/
def Desc.setupIn (d : Desc) : Bool := bit (dw d 4) 7
/-- The data of the descriptor goes from the device to the host. -/
def Desc.dataIn (d : Desc) : Bool :=
  match d.ty with
  | some .control => d.setupIn && d.length != 0
  | some .bulkIn | some .intrIn | some .isoIn => true
  | _ => false
/-- The data of a RAW descriptor goes from the host to the device. -/
def Desc.dataOut (d : Desc) : Bool :=
  match d.ty with
  | some .control => !d.setupIn && d.length != 0
  | some .bulkOut | some .intrOut | some .isoOut => true
  | _ => false

/-! ### Index tables (R134) -/

/-- Where byte `i` of a RAW transfer lies, given the index entries read so far (R132, R134). -/
def Desc.byteAddr (d : Desc) (idx : List Word) (i : Nat) : Addr :=
  if d.index then d.addr + (dw idx (i / d.elemLen)).setWidth 64 + BitVec.ofNat 64 (i % d.elemLen)
  else d.addr + BitVec.ofNat 64 i

/-- The entries of the index table (R134): E = ⌈LENGTH ÷ ELEMLEN⌉. -/
def Desc.entries (d : Desc) : Nat := if d.elemLen = 0 then 0 else (d.length + d.elemLen - 1) / d.elemLen

/-! ### Service requests: codes, directions and ranges (R267, R343, R346, R359, R365, R369) -/

/-- Directions of a request (R338). -/
inductive ReqDir where
  | out | in_ | inout | none
  deriving DecidableEq, Repr

/-- What a request table gives for a code: direction, the checks of A, B and C, the check of LENGTH, and whether the
request uses C. -/
structure ReqRow where
  dir : ReqDir
  okA : Nat → Bool
  okB : Nat → Bool
  okC : Nat → Bool
  len : Nat → Nat → Bool
  usesC : Bool := false

/-- RECV of any service (R343). -/
def recvRow : ReqRow := ⟨.in_, (· == 0), (· ≤ 255), fun _ => true, fun _ n => 64 ≤ n && n ≤ 65536, false⟩

/-- ENUM's requests (R267). -/
def enumRow : Nat → Option ReqRow
  | 0x01 => some ⟨.in_, (· ≤ 0x7FF), (· == 0), (· == 0), fun _ n => 64 ≤ n && n ≤ 65536, false⟩
  | 0x02 => some ⟨.none, (· ≤ 0x7FF), (· ≤ 255), (· == 0), fun _ n => n == 0, false⟩
  | 0x03 => some ⟨.none, (· ≤ 0x7FF), fun _ => true, (· == 0), fun _ n => n == 0, false⟩
  | 0x04 => some ⟨.none, (· ≤ 0x1FFF), (· ≤ 1), (· == 0), fun _ n => n == 0, false⟩
  | 0x05 => some ⟨.none, (· ≤ 0x1FFF), fun b => 1 ≤ b && b ≤ 16, (· == 0), fun _ n => n == 0, false⟩
  | 0x06 => some ⟨.none, (· ≤ 0x7FF), (· == 0), (· == 0), fun _ n => n == 0, false⟩
  | 0x07 => some ⟨.none, (· ≤ 0x7FF), (· == 0), (· == 0), fun _ n => n == 0, false⟩
  | 0x08 => some ⟨.none, (· ≤ 0x7FF), (· == 0), (· == 0), fun _ n => n == 0, false⟩
  | 0x80 => some { recvRow with okC := (· == 0) }
  | _ => none

/-- HIDX's requests (R346). Unused arguments are not judged. -/
def hidxRow : Nat → Option ReqRow
  | 0x01 => some ⟨.in_, fun _ => true, fun _ => true, fun _ => true, fun _ n => 1 ≤ n && n ≤ 4096, false⟩
  | 0x02 => some ⟨.out, fun _ => true, fun _ => true, fun _ => true, fun _ n => 8 ≤ n && n ≤ 2048, false⟩
  | 0x03 => some ⟨.none, (· ≤ 2), fun b => b % 16 ≤ 4, fun _ => true, fun _ n => n == 0, false⟩
  | 0x04 => some ⟨.out, fun _ => true, fun _ => true, fun _ => true, fun _ n => n == 0 || n == 256, false⟩
  | 0x05 => some ⟨.out, fun a => a == 2 || a == 3, (· ≤ 255), fun _ => true, fun _ n => 1 ≤ n && n ≤ 4096, false⟩
  | 0x06 => some ⟨.in_, fun a => a == 1 || a == 3, (· ≤ 255), fun _ => true, fun _ n => 1 ≤ n && n ≤ 4096, false⟩
  | 0x80 => some recvRow
  | _ => none

/-- CCID's requests (R359); `slots` is the number of the reader's slots. -/
def ccidRow (slots : Nat) : Nat → Option ReqRow
  | 0x01 => some ⟨.in_, (· < slots), fun _ => true, fun _ => true, fun _ n => 33 ≤ n && n ≤ 256, false⟩
  | 0x02 => some ⟨.none, (· < slots), fun _ => true, fun _ => true, fun _ n => n == 0, false⟩
  | 0x03 => some ⟨.inout, (· < slots), fun b => 4 ≤ b && b ≤ 65535, fun _ => true, fun b n => b ≤ n && n ≤ 65538, false⟩
  | 0x04 => some ⟨.none, (· < slots), fun _ => true, fun _ => true, fun _ n => n == 0, false⟩
  | 0x05 => some ⟨.none, fun a => a < slots || a == 0xFFFF, (· < 8), fun _ => true, fun _ n => n == 0, false⟩
  | 0x06 => some ⟨.inout, (· < slots), (· ≤ 65535), fun _ => true, fun b n => b ≤ n, false⟩
  | 0x80 => some recvRow
  | _ => none

/-- STRM's requests (R365). -/
def strmRow : Nat → Option ReqRow
  | 0x01 => some ⟨.out, fun _ => true, fun _ => true, fun _ => true, fun _ n => 1 ≤ n && n ≤ 1048576, false⟩
  | 0x02 => some ⟨.none, fun a => [5, 6, 7, 8, 16].contains (a % 256) && a / 256 % 16 ≤ 4 && a / 4096 ≤ 2, fun _ => true,
      fun c => 1 ≤ c && c ≤ 16000000, fun _ n => n == 0, true⟩
  | 0x03 => some ⟨.none, (· < 4), fun _ => true, fun _ => true, fun _ n => n == 0, false⟩
  | 0x04 => some ⟨.none, fun _ => true, fun _ => true, fun _ => true, fun _ n => n == 0, false⟩
  | 0x05 => some ⟨.none, fun _ => true, fun _ => true, fun _ => true, fun _ n => n == 0, false⟩
  | 0x06 => some ⟨.in_, fun _ => true, fun _ => true, fun _ => true, fun _ n => 2 ≤ n && n ≤ 1024, false⟩
  | 0x07 => some ⟨.none, fun _ => true, fun _ => true, fun _ => true, fun _ n => n == 0, false⟩
  | 0x08 => some ⟨.none, fun a => 1 ≤ a && a ≤ 255, fun b => 64 ≤ b && b ≤ 4096, fun _ => true, fun _ n => n == 0, false⟩
  | 0x80 => some recvRow
  | _ => none

/-- HLTH's requests (R369). -/
def hlthRow : Nat → Option ReqRow
  | 0x01 => some ⟨.none, fun a => 8 ≤ a && a ≤ 4096, fun b => b % 16 != 0, fun _ => true, fun _ n => n == 0, false⟩
  | 0x02 => some ⟨.in_, fun _ => true, fun _ => true, fun _ => true, fun _ n => 16 ≤ n && n ≤ 16384, false⟩
  | 0x80 => some recvRow
  | _ => none

/-- The row of request code `r` on a service. -/
def reqRow (s : Svc) (slots : Nat) (r : Nat) : Option ReqRow :=
  match s with
  | .enum => enumRow r
  | .hidx => hidxRow r
  | .ccid => ccidRow slots r
  | .strm => strmRow r
  | .hlth => hlthRow r

/-! ### Checks at consumption (R130, R131, R137, R157, R158, R339) -/

/-- The reserved bits of each dword, by type (R128, R129, R130, R337). -/
def reservedMask (t : Option DType) (index : Bool) : List Word :=
  match t with
  | none => [0x7FFEF0E0#32, 0xFC000000#32, 0, 0, 0, 0, 0, 0]
  | some .control => [0x7FFEF0E0#32, 0xFC000000#32, 0, 0, 0, 0, 0xFFFFFFFF#32, 0xFFFF0000#32]
  | some .isoOut | some .isoIn => [0x7FFEF0E0#32, 0xFC000000#32, 0, 0, 0, 0, 0x7FFFC000#32, 0xFFFFE000#32]
  | some .noop => [0x7FFEF0E0#32, 0xFC000000#32, 0, 0, 0xFFFFFFFF#32, 0xFFFFFFFF#32, 0xFFFFFFFF#32, 0xFFFFFFFF#32]
  | some .svcReq =>
    [0x7E00F0E0#32, 0xFC000000#32, 0, 0, 0, 0, if index then 0 else 0xFFFFFFFF#32, if index then 0 else 0xFFFF0000#32]
  | some .streamJob =>
    [0x7FFEF0E0#32, 0xFC000000#32, 0, 0, 0xFFFF0000#32, 0, if index then 0 else 0xFFFFFFFF#32,
      if index then 0 else 0xFFFF0000#32]
  | some _ =>
    if index then [0x7FFEF0E0#32, 0xFC000000#32, 0, 0, 0, 0, 0xFFFF0000#32, 0xFFFF0000#32]
    else [0x7FFEF0E0#32, 0xFC000000#32, 0, 0, 0xFFFFFFFF#32, 0xFFFFFFFF#32, 0xFFFFFFFF#32, 0xFFFF0000#32]

/-- The lowest bit set in a word, if any. -/
def lowBit (w : Word) : Option Nat := (List.range 32).find? fun i => bit w i

/-- The reserved ranges of each dword in R128, R129 and R337: the lowest bit of the range that holds bit `b` of dword
`k`, which is the field of R158. (DESIGN CHOICE, log 33) -/
def fieldLow (k b : Nat) (t : Option DType) (index : Bool) : Nat :=
  if k = 0 then (if b < 8 then 5 else if b < 16 then 12 else if t = some .svcReq then 25 else 17)
  else if k = 1 then 26
  else if k = 6 then
    (match t with
     | some .isoOut | some .isoIn => 14
     | some .bulkOut | some .bulkIn | some .intrOut | some .intrIn => if index && decide (16 ≤ b) then 16 else 0
     | _ => 0)
  else if k = 7 then
    (match t with
     | some .isoOut | some .isoIn => 13
     | some .noop => 0
     | _ => 16)
  else if k = 4 ∧ t = some .streamJob then 16
  else 0

/-- A failed check: its code, the offset of the dword and the lowest bit of the field (R158). -/
structure Failed where
  code : Nat
  off : Nat
  bit : Nat
  deriving DecidableEq, Repr

/-- DETAIL0 of a DESC_ERROR (R158). -/
def Failed.d0 (x : Failed) : Word := mkWord [(x.code, 0), (x.off, 8), (x.bit, 16)]

/-- What a descriptor's checks need to know of its binding. -/
inductive BindInfo where
  /-- an endpoint context: type, direction, MPS -/
  | ep (e : Ep)
  /-- a service instance and, for CCID, its number of slots -/
  | svc (s : Svc) (slots : Nat)
  | none

/-- R131, R156: the type fits the binding. -/
def bindingOk (t : DType) (b : BindInfo) : Bool :=
  match b, t with
  | .none, _ => false
  | .ep _, .noop => true
  | .svc _ _, .noop => true
  | .ep e, .control => e.type == .control
  | .ep e, .bulkOut => e.type == .bulk && !e.isIn
  | .ep e, .bulkIn => e.type == .bulk && e.isIn
  | .ep e, .intrOut => e.type == .intr && !e.isIn
  | .ep e, .intrIn => e.type == .intr && e.isIn
  | .ep e, .isoOut => e.type == .iso && !e.isIn
  | .ep e, .isoIn => e.type == .iso && e.isIn
  | .svc _ _, .svcReq => true
  | .svc s _, .streamJob => s == .strm
  | _, _ => false

/-- R131: the first flag set where it is not legal: its bit. -/
def badFlag (t : DType) (d : Desc) : Option Nat :=
  let expOk := t == .intrOut || t == .intrIn
  let idxOk := match t with
    | .control | .noop => false
    | .intrOut | .intrIn => !d.express
    | _ => true
  let zlpOk := t == .bulkOut || (t == .intrOut && !d.express)
  if d.express && !expOk then some 9 else if d.index && !idxOk then some 10 else if d.zlp && !zlpOk then some 16 else none

/-- R131: LENGTH is in range for the type, MPS being that of the endpoint. -/
def lengthOk (t : DType) (d : Desc) (mps : Nat) : Bool :=
  match t with
  | .control => d.length ≤ 65535
  | .bulkOut => true
  | .intrOut => !d.express || d.length ≤ mps
  | .bulkIn => 1 ≤ d.length
  | .intrIn => 1 ≤ d.length && (!d.express || d.length ≤ mps)
  | .isoOut | .isoIn | .streamJob => 1 ≤ d.length
  | .noop => d.length == 0
  | .svcReq => true

/-- R137: a CONTROL request that is refused: SET_ADDRESS, SET_CONFIGURATION or SET_INTERFACE, or one whose recipient
is bound to a service (`boundTo`). The lowest bit of the field that it is refused for: bRequest, or bmRequestType.
(DEDUCED, log 228) -/
def requestRefused (d : Desc) (boundTo : Nat → Nat → Bool) : Option Nat :=
  let rt := bits (dw d 4) 7 0
  let rq := bits (dw d 4) 15 8
  if rt / 32 % 4 = 0 ∧ (rq = 5 ∨ rq = 9 ∨ rq = 11) then some 8
  else if boundTo (rt % 32) (bits (dw d 5) 15 0) then some 0
  else none

/-- The first failing check of R157 and R339, in ascending order of check code. `now` is the MFN of the first plan
built after the fetch (R151). (DEDUCED, log 19) -/
def Desc.check (d : Desc) (b : BindInfo) (boundTo : Nat → Nat → Bool) (now : Mfn) : Option Failed :=
  let t? := d.ty
  let rsv := (List.range 8).findSome? fun k =>
    (lowBit (dw d k &&& dw (reservedMask t? d.index) k)).map fun i => (⟨0x01, 4 * k, fieldLow k i t? d.index⟩ : Failed)
  match rsv with
  | some x => some x
  | none =>
  match t? with
  | none => some ⟨0x02, 0, 0⟩
  | some t =>
  if !bindingOk t b then some ⟨0x03, 0, 0⟩
  else match badFlag t d with
  | some i => some ⟨0x04, 0, i⟩
  | none =>
  let mps := match b with | .ep e => e.mps | _ => 0
  if !lengthOk t d mps then some ⟨0x05, 4, 0⟩
  else if d.index && !t.isIso && (if t.isSvc then d.svcElemLen == 0 else d.elemLen == 0) then
    some (if t.isSvc then ⟨0x06, 0x1C, 16⟩ else ⟨0x06, 0x18, 0⟩)
  else if t.isIso && bits (dw d 4) 2 0 != 0 then some ⟨0x07, 0x10, 0⟩
  else if d.index && !t.isIso && (if t.isSvc then bits (dw d 5) 1 0 != 0 else bits (dw d 4) 1 0 != 0) then
    some ⟨0x07, if t.isSvc then 0x14 else 0x10, 0⟩
  else if t == .control && d.length != bits (dw d 5) 31 16 then some ⟨0x08, 4, 0⟩
  else match (if t == .control then requestRefused d boundTo else none) with
  | some i => some ⟨0x09, 0x10, i⟩
  | none =>
  if t.isIso && (d.npkt == 0 || 4096 < d.npkt) then some ⟨0x0A, 0x1C, 0⟩
  else if t.isIso && !d.asap && 4096 < mfnAfter d.start now && mfnAfter d.start now < 8192 then some ⟨0x0B, 0x18, 0⟩
  else match t, b with
  | .svcReq, .svc s slots =>
    match reqRow s slots d.req with
    | none => some ⟨0x20, 0, 17⟩
    | some r =>
      if !r.okA d.argA then some ⟨0x21, 0x10, 0⟩
      else if !r.okB d.argB then some ⟨0x21, 0x10, 16⟩
      else if !r.okC d.argC.toNat then some ⟨0x21, 0x14, 0⟩
      else if d.index && (s == .enum || r.usesC || r.dir == .none || r.dir == .inout) then some ⟨0x22, 0, 10⟩
      else if !r.len d.argB d.length then some ⟨0x23, 4, 0⟩
      else none
  | _, _ => none

/-! ### The completion entry (R111) -/

/-- The status codes of R159. -/
def St.success : Nat := 0x00
def St.short : Nat := 0x01
def St.stall : Nat := 0x02
def St.babble : Nat := 0x03
def St.xactError : Nat := 0x04
def St.poolWaitAbort : Nat := 0x05
def St.missedService : Nat := 0x06
def St.splitError : Nat := 0x07
def St.cancelled : Nat := 0x08
def St.dataError : Nat := 0x09
def St.portReset : Nat := 0x0A
def St.detached : Nat := 0x0B
def St.powerCancelled : Nat := 0x0C
def St.timeout : Nat := 0x0D
def St.descError : Nat := 0x0E
def St.accessError : Nat := 0x0F
def St.late : Nat := 0x10
def St.suspended : Nat := 0x11
def St.reshaped : Nat := 0x12
def St.serviceError : Nat := 0x13

/-- R146, R159: the statuses that halt an endpoint. -/
def St.halts (s : Nat) : Bool := s == St.stall || s == St.babble || s == St.xactError || s == St.splitError

/-- The eight dwords of a completion entry as it is written at a ring position of PHASE `ph` (R111). -/
def Cpl.words (e : Cpl) (spilled : Bool) (ph : Nat) : List Word :=
  [mkWord [(e.slot, 0), (e.wq, 16), (e.status, 24)], mkWord [(e.length, 0)],
   mkWord [(e.mfn.toNat, 0), (e.stage, 16), (b2n e.event, 20), (b2n spilled, 21), (b2n e.express, 22)],
   e.count, e.d0, e.d1, 0#32, mkWord [(ph, 31)]]

/-- DETAIL0 and DETAIL1 of the RAW types other than isochronous (R160). -/
def Xfer.rawD0 (x : Xfer) : Word := mkWord [(x.lastPid, 0), (x.errs, 8), (b2n x.overrun, 16)]
def Xfer.rawD1 (x : Xfer) : Word := mkWord [(x.naks, 0)]

/-- R154: the packets that ended with neither SUCCESS nor SHORT. -/
def IsoPkt.bad (p : IsoPkt) : Bool :=
  match p.pstat with
  | some s => s != St.success && s != St.short
  | none => false

/-- R154: DETAIL0, DETAIL1 of an isochronous descriptor: how many packets went badly, and the first. -/
def Xfer.isoD0 (x : Xfer) : Word := mkWord [((x.pkts.filter IsoPkt.bad).length, 0)]
def Xfer.isoD1 (x : Xfer) : Word :=
  match x.pkts.findIdx? IsoPkt.bad with
  | some i => BitVec.ofNat 32 i
  | none => 0xFFFFFFFF#32

end Sys2Proof.Machine
end

