-- ==== Sys2Proof/Machine/Events.lean ====
section
/-!
DEFINITION. Knot, the event controller (chapter 11): sources, vectors, claim and completion.
-/
namespace Sys2Proof.Machine

/-! ### Which sources are claimable -/

/-- R377: a source is claimable when it is enabled and PENDING. -/
def Src.claimable (s : Src) : Bool := s.enable && s.st == .pending

/-- R380: the states that count as one arrival at a new vector; STATE shows them as pending (R397). -/
def SrcState.isPending : SrcState → Bool
  | .pending | .activePending => true
  | _ => false

/-- Some source mapped to vector `v` of function `f`, private or routed there, is claimable. -/
def Chip.vecClaimable (c : Chip) (f v : Nat) : Bool :=
  ((List.range 32).any fun i => (c.src f i).claimable && (c.src f i).vector == v) ||
  ((List.range 64).any fun s => (c.sh s).src.claimable && (c.sh s).src.vector == v && (c.sh s).target == f)

/-! ### Vectors (R383, R384) -/

/-- Issue the message of vector `v`: the MSI-X write, or for a homed function an EVENT record (R384, R405). -/
def Chip.sendMsg (c : Chip) (f v : Nat) : Chip :=
  match (c.fn f).home with
  | some h => c.updAssoc h.assoc fun a => { a with queue := a.queue ++ [.event v] }
  | none => c.emit (.msix f v (c.msix f v).addr (c.msix f v).data)

/-- R384: the Mask bit or the Function Mask holds the vector, so that its PBA bit sets. A homed function's MSI-X
settings have no effect (R405). -/
def Chip.vecMasked (c : Chip) (f v : Nat) : Bool := !c.homed f && ((c.msix f v).mask || (c.fn f).fmask)

/-- R384, R405: any other hold, so that the vector is marked due. -/
def Chip.vecHeld (c : Chip) (f : Nat) : Bool :=
  match (c.fn f).home with
  | some h => (c.fn f).evt.gdis || (c.assoc h.assoc).st != .opened
  | none => (c.fn f).evt.gdis || !(c.fn f).msixEn || c.dmaHeld f || c.asleep || c.tst.safe || (c.fn f).transPend || (c.fn f).resetting

/-- R384: deliver or hold the message of a vector that triggers. -/
def Chip.deliver (c : Chip) (f v : Nat) : Chip :=
  if c.vecMasked f v then c.updMsix f v fun m => { m with pba := true }
  else if c.vecHeld f then c.updVec f v fun x => { x with due := true }
  else c.sendMsg f v

/-- R383: the trigger rule, with the timer running on or expired. Only an entry below VECTORS has an engine (R382). -/
def Chip.vecJudge (c : Chip) (f v : Nat) (expired : Bool) : Chip :=
  if v < (c.fn f).vectors ∧ ((c.vec f v).count ≤ (c.vec f v).c ∨ expired) ∧ c.vecClaimable f v then
    (c.deliver f v).updVec f v fun x => { x with c := 0, timer := false }
  else if expired then c.updVec f v fun x => { x with c := 0, timer := false }
  else c

/-- R383: an arrival at an enabled source mapped to `v` counts. An entry at or above VECTORS has no source mapped to
it (R54) and counts nothing. (DEDUCED, log 232) -/
def Chip.vecCount (c : Chip) (f v : Nat) : Chip :=
  if v < (c.fn f).vectors then c.updVec f v fun x => { x with c := satAdd 255 x.c 1, timer := x.timer || x.time != 0 }
  else c

/-- R383: an arrival at an enabled source mapped to `v`, and the trigger rule after it. -/
def Chip.vecArrive (c : Chip) (f v : Nat) : Chip := (c.vecCount f v).vecJudge f v false

/-- R383: a completion after which a source mapped to `v` is claimable. -/
def Chip.vecComplete (c : Chip) (f v : Nat) : Chip :=
  if v < (c.fn f).vectors ∧ c.vecClaimable f v then
    (c.updVec f v fun x => { x with c := max x.c 1, timer := x.timer || x.time != 0 }).vecJudge f v false
  else c

/-- R384: when the last hold on a due vector or a set PBA bit ends, one message if a source is still claimable. -/
def Chip.vecHoldEnd (c : Chip) (f v : Nat) : Chip :=
  if ((c.vec f v).due ∨ (c.msix f v).pba) ∧ ¬ c.vecMasked f v ∧ ¬ c.vecHeld f then
    let d := (c.updVec f v fun x => { x with due := false }).updMsix f v fun m => { m with pba := false }
    if c.vecClaimable f v then d.sendMsg f v else d
  else c

/-- Judge the holds of every vector of a function. -/
def Chip.holdsEnd (c : Chip) (f : Nat) : Chip := c.each (List.range 64) fun c v => c.vecHoldEnd f v

/-! ### Arrivals at private sources (R372, R374, R375, R377) -/

/-- The state after an arrival at an edge source (R377). -/
def SrcState.onEdge : SrcState → SrcState
  | .idle => .pending
  | .pending => .pending
  | .active => .activePending
  | .activePending => .activePending

/-- R372: private sources 0 to 16 and 18 have level inputs, the others pulses. -/
def isLevelSrc (i : Nat) : Bool := i < 17 || i == 18

/-- The state a level source takes when its input is `b` (R377): judged in IDLE and PENDING only. -/
def SrcState.onLevel (b : Bool) : SrcState → SrcState
  | .idle => if b then .pending else .idle
  | .pending => if b then .pending else .idle
  | .active => .active
  | .activePending => .activePending

/-- Count an arrival (R375), and count it toward the vector when the source is enabled (R378, R383). -/
def Chip.countArrival (c : Chip) (f i : Nat) : Chip :=
  let c := c.updSrc f i fun s => { s with arrivals := satAdd 255 s.arrivals 1 }
  if (c.src f i).enable then c.vecArrive f (c.src f i).vector else c

/-- A pulse at private source `i` of `f` (R372). -/
def Chip.raise (c : Chip) (f i : Nat) : Chip :=
  (c.updSrc f i fun s => { s with st := s.st.onEdge }).countArrival f i

/-- The input of private source `i` takes the value `b`, and its state follows (R377). -/
def Chip.inLevel (c : Chip) (f i : Nat) (b : Bool) : Chip :=
  c.updSrc f i fun s => { s with input := b, st := s.st.onLevel b }

/-- The level of private source `i` takes the value `b`. A rise is an arrival except at sources 0 to 16, whose arrivals
are the entries of R372 (R374). Without an arrival the trigger rule of its vector is judged as it is (R383). -/
def Chip.setLevel (c : Chip) (f i : Nat) (b : Bool) : Chip :=
  let rise := b && !(c.src f i).input
  let c := c.inLevel f i b
  if rise && 17 ≤ i then c.countArrival f i else c.vecJudge f (c.src f i).vector false

/-- An entry that is an arrival at level source `i`: its level is asserted and it counts (R372, R374). -/
def Chip.entryArrive (c : Chip) (f i : Nat) : Chip := (c.inLevel f i true).countArrival f i

/-! ### Arrivals at shared sources -/

/-- R374: a change of the input from `a` to `b` is an arrival under a sense. -/
def Sense.arrives (s : Sense) (a b : Bool) : Bool :=
  match s with
  | .levelHigh | .edgeRise => !a && b
  | .levelLow | .edgeFall => a && !b
  | .edgeBoth => a != b

/-- A level sense (R374). -/
def Sense.isLevel : Sense → Bool
  | .levelHigh | .levelLow => true
  | _ => false

/-- R374: the input is asserted, for a level sense. -/
def Sense.asserted (s : Sense) (b : Bool) : Bool := if s == .levelLow then !b else b

/-- R391: a shared source with WAKE 1 that becomes claimable while PF0 is in D3hot with PME_En set sends PM_PME, or
asserts WAKE# when the link is in L2. -/
def Chip.shWake (c : Chip) (s : Nat) : Chip :=
  if (c.sh s).src.claimable && (c.sh s).wake && c.pci.d3hot && c.pci.pmeEn then
    if c.pci.link == .l23 then (c.emit (.wakeN true)) else c.emit .pmPme
  else c

/-- Count an arrival at shared source `s`, toward the vector of its target. -/
def Chip.shCount (c : Chip) (s : Nat) : Chip :=
  let c := c.updSh s fun x => { x with src := { x.src with arrivals := satAdd 255 x.src.arrivals 1 } }
  let c := if (c.sh s).src.enable then c.vecArrive (c.sh s).target (c.sh s).src.vector else c
  c.shWake s

/-- A pulse at a shared source whose sense is fixed at EDGE_RISE (R373). -/
def Chip.shPulse (c : Chip) (s : Nat) : Chip :=
  (c.updSh s fun x => { x with src := { x.src with st := x.src.st.onEdge } }).shCount s

/-- The input of shared source `s` takes the value `b` (R374, R377). -/
def Chip.shInput (c : Chip) (s : Nat) (b : Bool) : Chip :=
  let x := c.sh s
  let arr := x.sense.arrives x.src.input b
  let st := if x.sense.isLevel then x.src.st.onLevel (x.sense.asserted b)
            else if arr then x.src.st.onEdge else x.src.st
  let c := c.updSh s fun x => { x with src := { x.src with input := b, st := st } }
  if arr then c.shCount s else c

/-- R376: the sources that the always-on latches watch while the fabric island does not run. -/
def isLatched (s : Nat) : Bool := (16 ≤ s && s < 32) || s == 35 || s == 36 || s == 38

/-- R376: a change of a watched input while the fabric island is not clocked: the latch sets on what would be an arrival. -/
def Chip.latch (c : Chip) (s : Nat) (b : Bool) : Chip :=
  let arr := (c.sh s).sense.arrives (c.sh s).src.input b
  let c := c.updSh s fun x => { x with src := { x.src with input := b } }
  if arr && !c.evsh.latches.contains s then
    { c with evsh := { c.evsh with latches := (List.range 64).filter fun k => k == s || c.evsh.latches.contains k } }
  else c

/-- R376: the fabric island runs again: level sources are judged by their inputs, and each set latch gives one arrival,
in ascending source order. -/
def Chip.releaseLatches (c : Chip) : Chip :=
  let l := c.evsh.latches
  let c := { c with evsh := { c.evsh with latches := [] } }
  let c := c.each ((List.range 64).filter isLatched) fun c s => c.updSh s fun x =>
    if x.sense.isLevel then { x with src := { x.src with st := x.src.st.onLevel (x.sense.asserted x.src.input) } } else x
  c.each l fun c s =>
    let c := c.updSh s fun x =>
      { x with latched := true, src := { x.src with st := if x.sense.isLevel then x.src.st else x.src.st.onEdge } }
    c.shCount s

/-! ### Claim (R386, R387) -/

/-- A candidate of a claim: priority, shared or not, number. -/
structure Cand where
  prio : Nat
  shared : Bool
  num : Nat
  deriving DecidableEq, Repr

/-- R386: `a` ranks above `b`: higher PRIO, then private before shared, then the lower number. -/
def Cand.above (a b : Cand) : Bool :=
  b.prio < a.prio || (a.prio == b.prio && ((!a.shared && b.shared) || (a.shared == b.shared && a.num < b.num)))

/-- The claimable sources of function `f`, among those mapped to `v` if one is given. -/
def Chip.candidates (c : Chip) (f : Nat) (v : Option Nat) : List Cand :=
  let ok (s : Src) : Bool := s.claimable && (match v with | some v => s.vector == v | none => true)
  (((List.range 32).filter fun i => ok (c.src f i)).map fun i => { prio := (c.src f i).prio, shared := false, num := i }) ++
  (((List.range 64).filter fun s => (c.sh s).target == f && ok (c.sh s).src).map fun s =>
    { prio := (c.sh s).src.prio, shared := true, num := s })

/-- The highest-ranked of a list of candidates. -/
def Cand.best : List Cand → Option Cand
  | [] => none
  | a :: r => match Cand.best r with
    | none => some a
    | some b => if b.above a then some b else some a

/-- R386: the claim value and the chip after the claim. -/
def Chip.claim (c : Chip) (f : Nat) (v : Option Nat) : Word × Chip :=
  match Cand.best (c.candidates f v) with
  | none => (0#32, c)
  | some a =>
    if a.shared then
      let x := (c.sh a.num).src
      (mkWord [(1, 31), (x.arrivals, 16), (x.prio, 8), (0x40 + a.num, 0)],
        c.updSh a.num fun y => { y with claimer := f, src := { y.src with st := .active, arrivals := 0 } })
    else
      let x := c.src f a.num
      (mkWord [(1, 31), (x.arrivals, 16), (x.prio, 8), (a.num, 0)],
        c.updSrc f a.num fun y => { y with st := .active, arrivals := 0 })

/-! ### Completion (R388, R389) -/

/-- R377: the state after a completion by the claimer. -/
def SrcState.onComplete (level asserted : Bool) : SrcState → SrcState
  | .active => if level && asserted then .pending else .idle
  | .activePending => .pending
  | s => s

def SrcState.isActive : SrcState → Bool
  | .active | .activePending => true
  | _ => false

/-- An ACTIVE shared source takes the state that its claimer's completion gives it (R377). -/
def Chip.shEndState (c : Chip) (s : Nat) : Chip := c.updSh s fun x =>
  { x with src := { x.src with st := x.src.st.onComplete x.sense.isLevel (x.sense.asserted x.src.input) } }

/-- End an ACTIVE shared source as its claimer's completion does; its vector is judged in its target (R380, R388). -/
def Chip.shEnd (c : Chip) (s : Nat) : Chip := (c.shEndState s).vecComplete (c.sh s).target (c.sh s).src.vector

/-- R388, R389: a completion write of function `f`. -/
def Chip.complete (c : Chip) (f id : Nat) : Chip :=
  if id < 32 ∧ (c.src f id).st.isActive then
    let c := c.updSrc f id fun s => { s with st := s.st.onComplete (isLevelSrc id) s.input }
    c.vecComplete f (c.src f id).vector
  else if 0x40 ≤ id ∧ id < 0x80 ∧ (c.sh (id - 0x40)).src.st.isActive ∧ (c.sh (id - 0x40)).claimer = f then
    c.shEnd (id - 0x40)
  else c.updEvt f fun b => { b with stray := satAdd 0xFFFF b.stray 1 }

/-! ### Configuration writes (R378 to R384) -/

def Chip.evtCfgerr (c : Chip) (f : Nat) : Chip := c.updEvt f fun b => { b with cfgerr := true }

/-- R378: ENABLE going from 0 to 1 on a PENDING source counts as one arrival at its vector; any other write leaves the
trigger rule to be judged with the source at its vector (R383). (DEDUCED, log 18) -/
def Chip.srcConfig (c : Chip) (f i : Nat) (w : Word) : Chip :=
  let v := bits w 5 0
  if v < (c.fn f).vectors ∨ ((c.fn f).vectors = 0 ∧ v = 0) then
    let was := (c.src f i).enable
    let c := c.updSrc f i fun s => { s with enable := bit w 31, prio := bits w 11 8, vector := v }
    if !was && (c.src f i).claimable then c.vecArrive f v else c.vecJudge f v false
  else c.evtCfgerr f

/-- The sense a code names (R374). -/
def Sense.ofCode : Nat → Option Sense
  | 0 => some .levelHigh
  | 1 => some .levelLow
  | 2 => some .edgeRise
  | 3 => some .edgeFall
  | 4 => some .edgeBoth
  | _ => none

def Sense.code : Sense → Nat
  | .levelHigh => 0
  | .levelLow => 1
  | .edgeRise => 2
  | .edgeFall => 3
  | .edgeBoth => 4

/-- R379: a shared source may name vector `v` of function `t`. (DEDUCED, log 233) -/
def Chip.routeOk (c : Chip) (t v : Nat) : Bool := c.fnExists t && v < (c.fn t).vectors

/-- R380: shared source `s` moves to function `t` with vector `v`; PENDING or ACTIVE_PENDING and enabled, it counts as
one arrival there. -/
def Chip.moveSh (c : Chip) (s t v : Nat) : Chip :=
  let c := c.updSh s fun x => { x with target := t, src := { x.src with vector := v } }
  if (c.sh s).src.st.isPending && (c.sh s).src.enable then (c.vecCount t v).shWake s else c

/-- R374, R379: a write of EVT_SHs_CFG, alone or with EVT_SHs_ROUTE as one 64-bit write. `locked` is the shared
block's LOCK bit: TARGET, WAKE and SENSE are RWL (R398). The code in a SENSE field that the write does not reach (LOCK
set, or a pulse source, whose sense is fixed by R373) is not judged. All fields take effect in one cycle, and the
source then counts at most once: for a change of target (R380), or for ENABLE going from 0 to 1 while PENDING (R378).
The new sense follows in the next cycle and produces no arrival (R374). The trigger rule is judged with what the write
leaves (R383). (DEDUCED, log 230; DEDUCED, log 231) -/
def Chip.shConfig (c : Chip) (locked : Bool) (s : Nat) (w : Word) (route : Option Word) : Chip :=
  let t := match route with
    | some r => if locked then (c.sh s).target else bits r 6 0
    | none => (c.sh s).target
  let v := bits w 5 0
  let fixed := locked || ShSrc.isPulse s
  match (if fixed then some (c.sh s).sense else Sense.ofCode (bits w 18 16)) with
  | none => c.evtCfgerr 0
  | some sense =>
    if c.routeOk t v then
      let was := (c.sh s).src.claimable
      let off := !(c.sh s).src.enable
      let moved := (c.sh s).target != t
      let c := c.updSh s fun x =>
        { x with wake := if locked then x.wake else bit w 30, target := t,
                 src := { x.src with enable := bit w 31, prio := bits w 11 8, vector := v } }
      let counts := (moved && (c.sh s).src.st.isPending && (c.sh s).src.enable) || (off && (c.sh s).src.claimable)
      let c := (if counts then c.vecCount t v else c).vecJudge t v false
      let c := if fixed then c else c.updSh s fun x =>
        { x with sense := sense,
                 src := { x.src with st := if sense.isLevel then x.src.st.onLevel (sense.asserted x.src.input)
                                           else x.src.st } }
      let c := c.vecJudge t v false
      if !was || moved then c.shWake s else c
    else c.evtCfgerr 0

/-- R379: a write of EVT_SHs_ROUTE alone is judged with the vector in force. -/
def Chip.shRoute (c : Chip) (locked : Bool) (s : Nat) (w : Word) : Chip :=
  if locked || bits w 6 0 == (c.sh s).target then c
  else if c.routeOk (bits w 6 0) (c.sh s).src.vector then
    (c.moveSh s (bits w 6 0) (c.sh s).src.vector).vecJudge (bits w 6 0) (c.sh s).src.vector false
  else c.evtCfgerr 0

/-- R383, R396: a write of EVT_VCOALv. -/
def Chip.vcoal (c : Chip) (f v : Nat) (w : Word) : Chip :=
  let n := bits w 7 0
  let t := bits w 25 16
  if n = 0 ∨ (1 < n ∧ t = 0) then c.evtCfgerr f
  else
    let c := c.updVec f v fun x => { x with count := n, time := t }
    if (c.vec f v).count ≤ (c.vec f v).c then c.vecJudge f v false else c

/-- R384, R396: a write of EVT_CTRL: GDIS is set or cleared, RLOST and CFGERR clear on 1. (DEDUCED, log 10) -/
def Chip.evtCtrl (c : Chip) (f : Nat) (w : Word) : Chip :=
  let c := c.updEvt f fun b =>
    { b with gdis := bit w 31, rlost := b.rlost && !bit w 30, cfgerr := b.cfgerr && !bit w 29 }
  c.holdsEnd f

/-! ### Resets of banks -/

/-- R380: an FLR or function reset of `f` ends every ACTIVE shared source it had claimed, all in one cycle; each vector
concerned is judged once. -/
def Chip.endClaims (c : Chip) (f : Nat) : Chip :=
  let l := (List.range 64).filter fun s => (c.sh s).src.st.isActive && (c.sh s).claimer == f
  let c := c.each l Chip.shEndState
  c.each (l.map fun s => ((c.sh s).target, (c.sh s).src.vector)).eraseDups fun c e => c.vecComplete e.1 e.2

/-- R381: every shared source routed to `f` is retargeted to PF0 with VECTOR 0, all in one cycle. -/
def Chip.shToPf0 (c : Chip) (f : Nat) : Chip :=
  (c.each (List.range 64) fun c s => if (c.sh s).target == f then c.moveSh s 0 0 else c).vecJudge 0 0 false

/-- R70, R381: the vectors at or above `v` of `f` are withdrawn: every source mapped to one is remapped to entry 0 with
its state and arrivals kept; a PENDING or ACTIVE_PENDING one counts there as a retargeted source does (R380). The remap
takes effect first, and the message, if any, is sent from entry 0 (R390). -/
def Chip.remapVectors (c : Chip) (f v : Nat) : Chip :=
  let c := c.each (List.range 32) fun c i =>
    if v ≤ (c.src f i).vector then
      let c := c.updSrc f i fun s => { s with vector := 0 }
      if (c.src f i).st.isPending && (c.src f i).enable then c.vecCount f 0 else c
    else c
  let c := c.each (List.range 64) fun c s =>
    if (c.sh s).target == f && v ≤ (c.sh s).src.vector then c.moveSh s f 0 else c
  let c := c.each ((List.range 64).filter fun i => v ≤ i) fun c i =>
    (c.updVec f i fun x => { x with c := 0, timer := false, due := false }).updMsix f i fun m => { m with pba := false }
  c.vecJudge f 0 false

/-- R393: the private bank of `f` returns to its reset values. -/
def Chip.resetBank (c : Chip) (f : Nat) : Chip :=
  (c.updEvt f fun _ => {}).endClaims f

end Sys2Proof.Machine
end

