-- ==== Sys2Proof/Machine/Queues.lean ====
section
/-!
DEFINITION. Queues (chapter 03): counts and PHASE, completion entries with spill and hold, the ending of
descriptors, WQ stops, fetching and its arbitration, and admin completions.
-/
namespace Sys2Proof.Machine

/-! ### Ring arithmetic (R85) -/

def slotOf (n : Nat) (c : Word) : Nat := c.toNat % 2 ^ n
def phaseOf (n : Nat) (c : Word) : Nat := c.toNat / 2 ^ n % 2
def usedOf (p c : Word) : Nat := (p - c).toNat
/-- The address of the entry at count `c`, for entries of `sz` bytes. -/
def entryAddr (base : Addr) (n : Nat) (c : Word) (sz : Nat) : Addr := base + BitVec.ofNat 64 (slotOf n c * sz)

/-- R94: what a new producer count does. -/
inductive PCheck where
  | nothing | accept | refuse
  deriving DecidableEq, Repr

def pcheck (n : Nat) (pnew pobs c : Word) : PCheck :=
  if (pnew - pobs).toNat = 0 then .nothing
  else if (pnew - pobs).toNat ≤ (c + BitVec.ofNat 32 (2 ^ n) - pobs).toNat then .accept
  else .refuse

/-- R115: a consumer count is accepted. -/
def ccheck (cnew cold pdev : Word) : Bool := (cnew - cold).toNat ≤ (pdev - cold).toNat

/-! ### Completion queues (R114 to R121) -/

/-- K of R118: descriptors fetched and not yet completed on every WQ bound to CQ `n` of `f`. -/
def Chip.cqK (c : Chip) (f n : Nat) : Nat :=
  ((c.wqs.filter fun e => e.1 / 64 == f && e.2.cq == n).map fun e => e.2.work.length).sum

/-- The ring of a CQ has a free slot (R85). -/
def Cq.ringFree (q : Cq) : Bool := usedOf q.pcount q.ccount < 2 ^ q.log2

/-- R117: source 18 is asserted while any CQ of the function holds spill entries. -/
def Chip.spillLevel (c : Chip) (f : Nat) : Chip :=
  c.setLevel f 18 (c.cqs.any fun e => e.1 / 16 == f && !e.2.spill.isEmpty)

/-- R118, R119: judge the hold of a CQ. -/
def Cq.judgeHold (q : Cq) (k : Nat) : Cq :=
  if q.held then { q with held := !(decide (q.spill.length ≤ q.spillSize / 2)) }
  else { q with held := !q.spill.isEmpty && decide (q.spillSize - q.spill.length ≤ k) }

def Chip.judgeCq (c : Chip) (f n : Nat) : Chip := c.updCq f n fun q => q.judgeHold (c.cqK f n)

/-- R111, R116: write an entry to the ring of CQ `n` of `f`, whole, in one write. A homed function's entry is also sent
in a COMPLETION record (R405, R411). An entry with EVENT 1 is one arrival at source n (R114). -/
def Chip.cqRing (c : Chip) (f n : Nat) (e : Cpl) (spilled : Bool) : Chip :=
  match c.cq f n with
  | none => c
  | some q =>
    let bs := wordsBytes (e.words spilled (phaseOf q.log2 q.pcount))
    let c := c.hostWrite f (entryAddr q.base q.log2 q.pcount 32) bs
    let c := match (c.fn f).home with
      | some h => c.updAssoc h.assoc fun a => { a with queue := a.queue ++ [RecOut.completion n q.pcount bs] }
      | none => c
    let c := c.putCq f n { q with pcount := q.pcount + 1#32, events := if e.event then q.events ++ [q.pcount] else q.events }
    if e.event then c.entryArrive f n else c

/-- R116, R121: place a completion: to the ring when the spill area is empty, the ring has a free slot and DMA is not
held; else to the tail of the spill area. A CQ that is being deleted takes none (R109). -/
def Chip.cqPlace (c : Chip) (f n : Nat) (e : Cpl) : Chip :=
  match c.cq f n with
  | none => c
  | some q =>
    if q.spill.isEmpty && q.ringFree && !c.dmaHeld f then (c.cqRing f n e false).judgeCq f n
    else
      let c := c.updCq f n fun q =>
        let s := q.spill ++ [e]
        { q with spill := s, peak := max q.peak s.length }
      (c.judgeCq f n).spillLevel f

/-- The next completion of CQ (f, n) takes the spill path, so that an express IN completion is an ordinary one (R29).
(DEDUCED, log 61) -/
def Chip.cqSpills (c : Chip) (f n : Nat) : Bool :=
  match c.cq f n with
  | some q => !(q.spill.isEmpty && q.ringFree && !c.dmaHeld f)
  | none => false

/-- R298: a poisoned spill entry is rebuilt with STATUS DATA_ERROR, LENGTH 0, STAGE 0, EVENT 1 and the MFN of its
writing. What DETAIL0 and DETAIL1 then hold is not stated: free values. -/
def Cpl.repaired (e : Cpl) (mfn : Mfn) (k : Nat) : Cpl :=
  if e.poison then
    { e with
      status := St.dataError
      length := 0
      stage := 0
      event := true
      mfn := mfn
      d0 := BitVec.ofNat 32 (Config.freeNat k)
      d1 := BitVec.ofNat 32 (Config.freeNat k / 2 ^ 32)
      poison := false }
  else e

/-- R116: while the ring has a free slot and DMA is not held, the oldest spill entries go to the ring. -/
def Chip.cqDrain : Nat → Chip → Nat → Nat → Chip
  | 0, c, _, _ => c
  | k + 1, c, f, n =>
    match c.cq f n with
    | none => c
    | some q =>
      match q.spill with
      | [] => c
      | e :: r =>
        if q.ringFree && !c.dmaHeld f then
          let t := if e.poison then c.fresh else (0, c)
          Chip.cqDrain k ((t.2.putCq f n { q with spill := r }).cqRing f n (e.repaired c.mfn t.1) true) f n
        else c

/-- Drain what can be drained and judge the hold and source 18 (R116, R117, R119). -/
def Chip.cqSettle (c : Chip) (f n : Nat) : Chip :=
  match c.cq f n with
  | none => c
  | some q => ((Chip.cqDrain q.spill.length c f n).judgeCq f n).spillLevel f

/-- R114: the level of CQ n's source: the ring holds an unconsumed entry with EVENT 1. -/
def Chip.cqLevel (c : Chip) (f n : Nat) : Chip :=
  match c.cq f n with
  | none => c.setLevel f n false
  | some q => c.setLevel f n (!q.events.isEmpty)

/-! ### Admin completions (R125, R426, R428) -/

/-- The 64 bytes of an admin completion at a ring position of PHASE `ph` (R426). -/
def AdminCpl.bytes (a : AdminCpl) (mfn : Mfn) (sqc : Word) (ph : Nat) : List Byte :=
  wordsBytes ([mkWord [(a.cid, 0), (a.opcode, 16), (a.status, 24)], mkWord [(bits a.detail 15 0, 0), (a.opid, 16)],
    mkWord [(mfn.toNat, 0)], sqc] ++ (List.range 11).map (fun i => dw a.outs i) ++ [mkWord [(ph, 31)]])

/-- The level of source 16: the admin completion ring holds an entry not yet consumed (R125). -/
def Chip.aqLevel (c : Chip) (f : Nat) : Chip := c.setLevel f 16 ((c.fn f).aq.cqP != (c.fn f).aq.cqC)

/-- R123: ENABLE has gone from 1 to 0 since the command now carried out was fetched. (DEDUCED, log 238) -/
def Aq.stale (q : Aq) : Bool := q.cmdEpoch != q.epoch

/-- Write an admin completion to the ring (R125): one arrival at source 16. While DMA is held it is held, in order
(R75). Once the AQ is disabled it is discarded (R123). -/
def Chip.adminWrite (c : Chip) (f : Nat) (a : AdminCpl) : Chip :=
  let q := (c.fn f).aq
  if !q.enable then c
  else if c.dmaHeld f then c.updFn f fun x => { x with aq := { x.aq with held := x.aq.held ++ [a] } }
  else
    let bs := a.bytes a.mfn q.sqC (phaseOf q.cqLog q.cqP)
    let c := c.hostWrite f (entryAddr q.cqBase q.cqLog q.cqP 64) bs
    let c := match (c.fn f).home with
      | some h => c.updAssoc h.assoc fun s => { s with queue := s.queue ++ [RecOut.completion 0xFF q.cqP bs] }
      | none => c
    let c := c.updFn f fun x => { x with aq := { x.aq with cqP := x.aq.cqP + 1#32 } }
    c.entryArrive f 16

/-- Write the admin completions held while DMA was held, in order (R75). -/
def Chip.adminRelease (c : Chip) (f : Nat) : Chip :=
  let h := (c.fn f).aq.held
  let c := c.updFn f fun x => { x with aq := { x.aq with held := [] } }
  c.each h fun c a => c.adminWrite f a

/-! ### Ending descriptors (R111, R113, R146, R154, R159) -/

/-- The completion of descriptor `x` of WQ `n` with a status (R111, R114, R141, R154, R160). -/
def Xfer.cpl (x : Xfer) (n : Nat) (q : Wq) (mfn : Mfn) (status : Nat) : Cpl :=
  let t := x.d.ty
  let iso := t == some .isoIn || t == some .isoOut
  let raw := !iso && t != some .svcReq && t != some .streamJob && t != some .noop
  { slot := slotOf q.log2 x.count, wq := n, status := status,
    length := if iso then (x.pkts.map IsoPkt.len).sum else x.done, mfn := mfn,
    stage := if t == some .control then x.stage else 0,
    event := x.d.ioc || !(status == St.success || status == St.short), express := x.express, count := x.count,
    d0 := if iso then x.isoD0 else if raw then x.rawD0 else 0#32,
    d1 := if iso then x.isoD1 else if raw then x.rawD1 else 0#32 }

/-- A decided descriptor is ready to complete: its received data has been written to host memory (R76, R142). -/
def Xfer.ready (x : Xfer) : Bool := x.result.isSome && (!x.d.dataIn || decide (x.done ≤ x.moved))

/-- R343: a RECV that waits. -/
def Xfer.waitingRecv (x : Xfer) : Bool := x.result.isNone && x.svcRun && x.d.ty == some .svcReq && x.d.req == 0x80

/-- R155, R157: a NOOP or a failed check completes in its place, once every earlier descriptor has completed.
(DEDUCED, log 237) -/
def Cpl.inPlace (e : Cpl) (d : Desc) : Bool := d.ty == some .noop || e.status == St.descError

/-- R111: the completions now decided get their MFN: those of decided descriptors whose data has been written. -/
def Wq.stamp (q : Wq) (m : Mfn) : Wq :=
  { q with work := q.work.map fun x =>
      if x.ready && !x.decided then { x with decided := true, result := x.result.map fun e => { e with mfn := m } } else x }

/-- The bytes a message takes in its buffer (R342). -/
def Msg.size (m : Msg) : Nat := 16 + (m.body.length + 7) / 8 * 8
/-- The bytes an instance holds. -/
def Inst.held (i : Inst) : Nat := (i.msgs.map Msg.size).sum
/-- R343: what a RECV of a WQ tells of: the bytes its instance still holds. -/
def Chip.recvHeld (c : Chip) (q : Wq) : Nat :=
  match q.bind with
  | .svc h => (match c.inst h with | some i => i.held | none => 0)
  | _ => 0

/-- R113, R133, R343: write the completions at the head of WQ (f, n), in WQCOUNT order. A waiting RECV at the head
completes with SUCCESS and LENGTH 0 once a later descriptor is ready. -/
def Chip.flush : Nat → Chip → Nat → Nat → Chip
  | 0, c, _, _ => c
  | k + 1, c, f, n =>
    match c.wq f n with
    | none => c
    | some q =>
      match q.work with
      | [] => c
      | x :: r =>
        match x.result with
        | some e =>
          if x.ready then
            let c := c.putWq f n { q with work := r, ended := if e.status = St.cancelled then q.ended + 1 else q.ended }
            let e := { e with mfn := if e.inPlace x.d then c.mfn else e.mfn, express := e.express && !(x.d.ty == some .intrIn && c.cqSpills f q.cq) }
            Chip.flush k (c.cqPlace f q.cq e) f n
          else c
        | none =>
          if x.waitingRecv && r.any Xfer.ready then
            Chip.flush k ((c.putWq f n { q with work := r }).cqPlace f q.cq
              { x.cpl n q c.mfn St.success with d1 := BitVec.ofNat 32 (c.recvHeld q) }) f n
          else c

/-- Finish the command now carried out by `f` with its completion (R426, R428). READY of a disabled AQ clears once no
fetched command runs, and the completion of a command fetched before the disable is discarded (R123). -/
def Chip.adminDone (c : Chip) (f status : Nat) (detail : Word := 0#32) (outs : List Word := []) (opid : Nat := 0) : Chip :=
  match (c.fn f).aq.running with
  | none => c
  | some d =>
    let a : AdminCpl := { cid := bits (dw d 1) 15 0, opcode := bits (dw d 0) 7 0, status := status, detail := detail,
                          opid := opid, mfn := c.mfn, outs := outs }
    let c := if (c.fn f).aq.stale then c else c.adminWrite f a
    c.updFn f fun x => { x with aq := { x.aq with running := none, begun := false, ready := x.aq.ready && x.aq.enable } }

/-- The command of opcode `op` that `f` carries out, and that waits for its end. -/
def Chip.adminWaits (c : Chip) (f op : Nat) : Option (List Word) :=
  match (c.fn f).aq.running with
  | some d => if (c.fn f).aq.begun ∧ bits (dw d 0) 7 0 = op then some d else none
  | none => none

/-- A WQ stops with an error code and raises source 17. -/
def Chip.wqHalt (c : Chip) (f n : Nat) (err : Nat) : Chip :=
  match c.wq f n with
  | none => c
  | some q => (c.putWq f n { q with stopped := true, err := err, reading := false, rereads := 0, rereadDue := false }).raise f 17

/-- A WQ leaves its binding. -/
def Chip.unbindWq (c : Chip) (f n : Nat) : Chip :=
  match c.wq f n with
  | none => c
  | some q =>
    let c := match q.bind with
      | .ep h => c.updEp h fun e => { e with wq := none }
      | .svc h => c.updInst h fun i => { i with wq := none }
      | .none => c
    c.putWq f n { q with bind := .none, moveHold := false }

/-- R68, R70, R108: once the last descriptor of a WQ that is drained or deleted has completed, and no entry is still to be
drained, the WQ is left stopped without its binding, or is removed; a DELETE_WQ then completes. -/
def Chip.wqSettle (c : Chip) (f n : Nat) : Chip :=
  match c.wq f n with
  | none => c
  | some q =>
    let more := q.draining && !q.stopped && q.mode != .poll && (q.reading || q.pobs != q.ccount)
    if !q.work.isEmpty || more then c
    else if q.deleting.isSome then
      let c := (c.unbindWq f n).delWq f n
      if q.deleting = some true then c.adminDone f 0 0#32 [BitVec.ofNat 32 q.ended] else c
    else if q.draining && q.bind != .none then
      let c := c.unbindWq f n
      if q.stopped then c else c.wqHalt f n 4
    else c

/-- R110: a WQ stops with an error code and raises source 17. -/
def Chip.wqStop (c : Chip) (f n : Nat) (err : Nat) : Chip := (c.wqHalt f n err).wqSettle f n

def Chip.flushWq (c : Chip) (f n : Nat) : Chip :=
  match c.wq f n with
  | none => c
  | some q => (Chip.flush q.work.length (c.putWq f n (q.stamp c.mfn)) f n).wqSettle f n

/-- Set a bound endpoint HALTED where the status halts it (R146): never a default control or isochronous one. -/
def Chip.haltFor (c : Chip) (b : Binding) (status : Nat) : Chip :=
  match b with
  | .ep h => if St.halts status then c.updEp h fun e => if e.dflt || e.type == .iso then e else { e with halted := true } else c
  | _ => c

/-- OUT0 of R449: a descriptor ends by the entry that runs: the device's, or that of its port's cluster (R467). -/
def Chip.countCancelled (c : Chip) (b : Binding) : Chip :=
  if c.pwr.st = .entering then { c with pwr := { c.pwr with cancelled := c.pwr.cancelled + 1 } }
  else
    let p := match b with
      | .ep h => c.epPort h
      | .svc h => (c.inst h).map Inst.port
      | .none => none
    match p with
    | some p => c.updClu (p / 8) fun x => if x.slStep = 0 then x else { x with slCancelled := x.slCancelled + 1 }
    | none => c

/-- Decide descriptor `count` of WQ (f, n): its completion is `g` of the one its fields give (R111). -/
def Chip.finishWith (c : Chip) (f n : Nat) (count : Word) (status : Nat) (g : Cpl → Cpl) : Chip :=
  match c.wq f n with
  | none => c
  | some q =>
    let w := q.work.map fun x =>
      if x.count = count ∧ x.result = none then { x with result := some (g (x.cpl n q c.mfn status)) } else x
    let c : Chip := if status = St.powerCancelled && (q.work.any fun x => x.count == count && x.result.isNone) then
        c.countCancelled q.bind
      else c
    ((c.putWq f n { q with work := w }).haltFor q.bind status).flushWq f n

def Chip.finish (c : Chip) (f n : Nat) (count : Word) (status : Nat) : Chip := c.finishWith f n count status id

/-- Change descriptor `count` of WQ (f, n). -/
def Chip.updXfer (c : Chip) (f n : Nat) (count : Word) (g : Xfer → Xfer) : Chip :=
  c.updWq f n fun q => { q with work := q.work.map fun x => if x.count = count then g x else x }

/-- The descriptor in progress: the oldest one not yet decided (R133). -/
def Wq.current (q : Wq) : Option Xfer := q.work.find? fun x => x.result.isNone

/-- R161: end every descriptor of WQ (f, n) by an outside cause: what its transactions have moved counts for the one in
progress; each staged one has LENGTH 0 and STAGE 0 already. -/
def Chip.endAll (c : Chip) (f n : Nat) (status : Nat) : Chip :=
  match c.wq f n with
  | none => c
  | some q => c.each (q.work.filter fun x => x.result.isNone) fun c x => c.finish f n x.count status

/-! ### Stops (R110) -/

/-- R124: the AQ stops with an error code and raises source 17. -/
def Chip.aqStop (c : Chip) (f : Nat) (err : Nat) : Chip :=
  (c.updFn f fun x => { x with aq := { x.aq with stopped := true, err := err, reading := false, rereads := 0 } }).raise f 17

/-! ### Fetching (R90 to R93, R99, R103, R157) -/

/-- R91: the depth of a binding. -/
def Binding.depth : Binding → Nat
  | .ep _ => 2
  | .svc _ => 4
  | .none => 0

/-- R146: the WQ's endpoint is halted, so nothing is fetched. -/
def Chip.bindHalted (c : Chip) (b : Binding) : Bool :=
  match b with
  | .ep h => match c.ep h with
    | some e => e.halted
    | none => false
  | _ => false

/-- R565: admin commands are fetched in ACTIVE, and during an entry until its step 6. -/
def Chip.adminRuns (c : Chip) : Bool :=
  (c.pwr.st == .active || (c.pwr.st == .entering && decide (c.pwr.step < 6))) && !c.tst.safe

/-- R564: the WQ's binding is an endpoint on a port whose cluster sleeps. -/
def Chip.bindAsleep (c : Chip) (b : Binding) : Bool :=
  match b with
  | .ep h => match c.epPort h with
    | some p => bit (BitVec.ofNat 32 c.pwr.clusleep) (p / 8) || (c.clu (p / 8)).slStep != 0
    | none => false
  | _ => false

/-- R434: a PERIPH_DOWNLOAD that is not DONE uses the endpoint. -/
def Chip.loading (c : Chip) (h : Nat) : Bool :=
  c.ops.recs.any fun o => o.kind == .download && o.st != .done && bits (dw o.cmd 5) 12 0 == h

def Chip.bindLoading (c : Chip) (b : Binding) : Bool :=
  match b with
  | .ep h => c.loading h
  | _ => false

/-- A WQ that is being drained under step 4 of R68 fetches what is published, one entry after the other. -/
def Chip.fetchable (c : Chip) (f : Nat) (q : Wq) : Bool :=
  if q.draining then !q.stopped && q.pobs != q.ccount && q.mode != .poll
  else !q.stopped && q.deleting.isNone && !q.moveHold && !q.suspHold && !c.bindAsleep q.bind && !c.bindHalted q.bind && !c.bindLoading q.bind &&
    decide (q.work.length < q.bind.depth) && (match c.cq f q.cq with | some k => !k.held | none => false) &&
    (match q.mode with | .poll => q.pollDue | _ => q.pobs != q.ccount)

/-- R103: a WQ is eligible for a ring read in arbitration; the reads of R92 are outside it. -/
def Chip.eligible (c : Chip) (f n : Nat) : Bool :=
  match c.wq f n with
  | none => false
  | some q => !q.reading && q.rereads == 0 && c.fetchable f q

/-- R103: a WQ that has work and is not eligible only because its read is outstanding is waiting. -/
def Chip.waitingWq (c : Chip) (f n : Nat) : Bool :=
  match c.wq f n with
  | none => false
  | some q => q.reading && c.fetchable f q

/-- R447, R564: no ring is fetched while the device is entering, asleep or leaving sleep, nor in its safe state. -/
def Chip.fetchRuns (c : Chip) : Bool :=
  c.pwr.st == .active && !c.tst.safe

def Chip.fnEligible (c : Chip) (f : Nat) : Bool := !c.dmaHeld f && (c.wqNums f).any (c.eligible f)
def Chip.fnWaiting (c : Chip) (f : Nat) : Bool :=
  !c.dmaHeld f && !(c.wqNums f).any (c.eligible f) && (c.wqNums f).any (c.waitingWq f)

/-- R619: the first member of an ascending list that satisfies `p`, after `cur`, wrapping. (DESIGN CHOICE, log 6) -/
def nextAfter (l : List Nat) (cur : Nat) (p : Nat → Bool) : Option Nat :=
  match l.find? fun m => cur < m && p m with
  | some m => some m
  | none => l.find? p

/-- What a level of R104's pick decides: the member chosen, and whether its turn is new, goes on, or it is a gap. -/
inductive Turn where
  | cont | gap | new
  deriving DecidableEq, Repr

/-- R104: the pick at one level, on members with their credit after a refill. -/
def pick (members : List Nat) (cur : Nat) (elig wait : Nat → Bool) (credit used burst : Nat → Nat) : Option (Nat × Turn) :=
  if elig cur && 0 < credit cur && used cur < burst cur then some (cur, .cont)
  else
    let nx := nextAfter members cur fun m => elig m && 0 < credit m
    if wait cur && 0 < credit cur && used cur < burst cur then nx.map fun m => (m, .gap) else nx.map fun m => (m, .new)

/-- R104: refill the functions when none with credit is eligible or waiting. -/
def Chip.refillFns (c : Chip) : Chip :=
  if c.fnNums.any fun f => 0 < (c.fn f).credit && (c.fnEligible f || c.fnWaiting f) then c
  else c.each c.fnNums fun c f => c.updFn f fun x =>
    let w := (x.nextArb.getD (x.weight, x.burst))
    { x with weight := w.1, burst := w.2, nextArb := none, credit := w.1, used := 0 }

/-- R104: refill the WQs of function `f`. -/
def Chip.refillWqs (c : Chip) (f : Nat) : Chip :=
  if (c.wqNums f).any fun n => (match c.wq f n with | some q => decide (0 < q.credit) | none => false) &&
      (c.eligible f n || c.waitingWq f n) then c
  else c.each (c.wqNums f) fun c n => c.updWq f n fun q => { q with credit := q.weight, used := 0 }

def Chip.wqCredit (c : Chip) (f n : Nat) : Nat := ((c.wq f n).map Wq.credit).getD 0
def Chip.wqUsed (c : Chip) (f n : Nat) : Nat := ((c.wq f n).map Wq.used).getD 0
def Chip.wqBurst (c : Chip) (f n : Nat) : Nat := ((c.wq f n).map Wq.burst).getD 0

/-- Issue the ring read of WQ (f, n) (R90): one read of exactly the entry's size. -/
def Chip.issueRing (c : Chip) (f n : Nat) : Chip :=
  match c.wq f n with
  | none => c
  | some q =>
    (c.putWq f n { q with reading := true, pollDue := false, rereadDue := false }).hostReadReq f (entryAddr q.base q.log2 q.ccount 32) 32

/-- The ring reads now outstanding across the device. -/
def Chip.ringReads (c : Chip) : Nat := (c.wqs.filter fun e => e.2.reading).length

/-- R104: one read opportunity. At most 256 ring reads are outstanding. -/
def Chip.readOpportunity (c : Chip) : Chip :=
  if c.fnNums.any c.fnEligible && c.fetchRuns && decide (c.ringReads < 256) then
    let c := c.refillFns
    match pick c.fnNums c.arbPtr c.fnEligible c.fnWaiting (fun f => (c.fn f).credit) (fun f => (c.fn f).used)
        (fun f => (c.fn f).burst) with
    | none => c
    | some (f, tf) =>
      let c := if tf = .new then ({ c with arbPtr := f }).updFn f fun x => { x with used := 0 } else c
      let c := c.refillWqs f
      match pick (c.wqNums f) (c.fn f).wqPtr (c.eligible f) (c.waitingWq f) (c.wqCredit f) (c.wqUsed f) (c.wqBurst f) with
      | none => c
      | some (n, tn) =>
        let c := if tn = .new then (c.updFn f fun x => { x with wqPtr := n }).updWq f n fun q => { q with used := 0 } else c
        let c := c.updFn f fun x =>
          { x with credit := x.credit - 1, used := if c.arbPtr = f then x.used + 1 else x.used }
        let c := c.updWq f n fun q =>
          { q with credit := q.credit - 1, used := if (c.fn f).wqPtr = n then q.used + 1 else q.used }
        c.issueRing f n
  else c

/-! ### Consumption (R91, R99, R131, R155, R157, R159) -/

/-- What a descriptor's checks need of the WQ's binding. -/
def Chip.bindInfo (c : Chip) (b : Binding) : BindInfo :=
  match b with
  | .ep h => match c.ep h with
    | some e => .ep e
    | none => .none
  | .svc h => match c.inst h with
    | some i => .svc i.svc i.slots
    | none => .none
  | .none => .none

/-- R137: the recipient of a CONTROL request is an interface bound to a service, or an endpoint of one. -/
def Chip.boundTo (c : Chip) (b : Binding) (recipient index : Nat) : Bool :=
  match b with
  | .ep h => match c.ep h with
    | some e =>
      if recipient = 1 then (match c.dev e.dev with | some d => (Tab.find d.bound (index % 256)).isSome | none => false)
      else if recipient = 2 then
        c.eps.any fun x => x.2.dev == e.dev && !x.2.dflt && x.2.addr == index % 256 && x.2.inst.isSome
      else false
    | none => false
  | _ => false

/-- R58: the binding still belongs to function `f`. -/
def Chip.bindOwned (c : Chip) (f : Nat) (b : Binding) : Bool :=
  match b with
  | .ep h => c.epOwner h == some f
  | .svc h => c.instOwner h == some f
  | .none => false

/-- R159: the binding's device is detached. -/
def Chip.bindGone (c : Chip) (b : Binding) : Bool :=
  match b with
  | .ep h => match c.ep h with
    | some e => e.gone || (match c.dev e.dev with
      | some d => d.detached
      | none => true)
    | none => true
  | .svc h => (c.inst h).isNone
  | .none => true

/-- The status, if any, with which a descriptor ends as it is consumed: DETACHED for a detached device's context,
ACCESS_ERROR where the isolation check fails (R58), DESC_ERROR under R157, RESHAPED in a drain (R68). A NOOP is decided
with SUCCESS (R155). -/
def Chip.consumeResult (c : Chip) (f n : Nat) (q : Wq) (x : Xfer) : Option Cpl :=
  if q.draining then some (x.cpl n q c.mfn St.reshaped)
  else if c.bindGone q.bind then some (x.cpl n q c.mfn St.detached)
  else if !c.bindOwned f q.bind then some (x.cpl n q c.mfn St.accessError)
  else match x.d.check (c.bindInfo q.bind) (c.boundTo q.bind) (c.mfn + 2#14) with
    | some e => some { (x.cpl n q c.mfn St.descError) with d0 := e.d0, d1 := 0#32 }
    | none => if x.d.ty = some .noop then some (x.cpl n q c.mfn St.success) else none

/-- R562, R563: the descriptor takes the express path: not through a transaction translator; IN not for a net-homed
function, OUT only with INLINE data. -/
def Chip.expressPath (c : Chip) (f : Nat) (b : Binding) (d : Desc) (inline : Bool) : Bool :=
  match b with
  | .ep h => match c.ep h with
    | some e => d.express && (c.tt e.dev).isNone &&
      ((d.ty == some .intrIn && !c.homed f) || (d.ty == some .intrOut && inline))
    | none => false
  | _ => false

/-- Consume an entry into the binding (R91, R157): the consumer count advances, and completions that are due are
written. -/
def Chip.consume (c : Chip) (f n : Nat) (d : Desc) (inline : Option (List Byte)) : Chip :=
  match c.wq f n with
  | none => c
  | some q =>
    let x : Xfer := { count := q.ccount, d := d, inline := inline, express := c.expressPath f q.bind d inline.isSome }
    let x := { x with result := c.consumeResult f n q x }
    let c := c.putWq f n { q with ccount := q.ccount + 1#32, work := q.work ++ [x], reading := false, rereads := 0 }
    (c.flushWq f n).judgeCq f q.cq

/-- R90, R92, R93: an entry of WQ (f, n) has been read: with the right PHASE it is consumed; else a POLL WQ waits for its
next poll (one that a PCOUNT write has made due since the read was issued follows at once, R97), and another WQ reads it again, the third wrong PHASE stopping it. -/
def Chip.ringEntry (c : Chip) (f n : Nat) (q : Wq) (d : Desc) : Chip :=
  if d.phase = phaseOf q.log2 q.ccount then
    (c.consume f n d none).updWq f n fun r => if r.mode = .poll then { r with pollDue := true } else r
  else if q.mode = .poll then c.putWq f n { q with reading := false }
  else if q.rereads = 2 then c.wqStop f n 2
  else c.putWq f n { q with reading := false, rereads := q.rereads + 1, rereadDue := true }

/-! ### The AQ (R122 to R125, R428) -/

/-- R109: the CQ goes; a DELETE_CQ that waited for it completes. -/
def Chip.endCqDelete (c : Chip) (f n : Nat) : Chip :=
  match c.cq f n with
  | none => c
  | some q =>
    let c := ((c.delCq f n).cqLevel f n).spillLevel f
    if q.deleting = some true then c.adminDone f 0 0#32 [BitVec.ofNat 32 q.spill.length] else c

/-- R115: a CCOUNT write and what it frees of the CQ. -/
def Chip.ccountTake (c : Chip) (f n : Nat) (w : Word) : Chip :=
  match c.cq f n with
  | none => c
  | some q =>
    if ccheck w q.ccount q.pcount then
      let c := c.putCq f n { q with ccount := w, events := q.events.filter fun e => (e - w).toNat < (q.pcount - w).toNat }
      let c := (c.cqSettle f n).cqLevel f n
      match c.cq f n with
      | some r => if r.deleting.isSome && r.spill.isEmpty then c.endCqDelete f n else c
      | none => c
    else (c.putCq f n { q with badcons := true }).raise f 17

/-- R122, R123: a write of Q_AQ_CFG. A disable discards the completions of every command fetched, those of long operations
and of waiting LONG_SUSPENDs with them, and nothing stays reserved for them. -/
def Chip.aqCfg (c : Chip) (f : Nat) (w : Word) : Chip :=
  let q := (c.fn f).aq
  if q.enable then
    if bit w 31 then c
    else
      let c := c.updOps fun x => { x with recs := x.recs.map fun o => { o with suspWait := o.suspWait.filter fun w => w.1 != f } }
      c.updFn f fun x =>
        { x with aq := { x.aq with enable := false, starting := false, reading := false, rereads := 0, held := [], slots := 0,
                                   epoch := x.aq.epoch + 1, ready := x.aq.ready && x.aq.running.isSome } }
  else
    let sq := bits w 4 0
    let cq := bits w 12 8
    let c := c.updFn f fun x => { x with aq := { x.aq with sqLog := sq, cqLog := cq, enable := bit w 31 } }
    if !bit w 31 then c
    else if sq < 4 ∨ 16 < sq ∨ cq < 4 ∨ 16 < cq then c.updFn f fun x => { x with aq := { x.aq with err := 5, ready := false } }
    else
      (c.updFn f fun x => { x with aq := { x.aq with err := 0, stopped := false, ready := false, sqP := 0#32, sqC := 0#32,
                                                     cqP := 0#32, cqC := 0#32, starting := true, reading := false, rereads := 0 } }).aqLevel f

/-- R124: a write of SQPCOUNT. -/
def Chip.sqPcount (c : Chip) (f : Nat) (w : Word) : Chip :=
  let q := (c.fn f).aq
  if !q.ready || q.stopped then c
  else match pcheck q.sqLog w q.sqP q.sqC with
  | .nothing => c
  | .accept => c.updFn f fun x => { x with aq := { x.aq with sqP := w } }
  | .refuse => c.aqStop f 1

/-- R124: a write of CQCCOUNT. -/
def Chip.cqCcount (c : Chip) (f : Nat) (w : Word) : Chip :=
  let q := (c.fn f).aq
  if !q.ready then c
  else if ccheck w q.cqC q.cqP then (c.updFn f fun x => { x with aq := { x.aq with cqC := w } }).aqLevel f
  else (c.updFn f fun x => { x with aq := { x.aq with badcons := true } }).raise f 17

/-- R125, R428: the function's next admin command may be read: the AQ runs with none carried out, and the completion
ring has a slot beside those reserved. -/
def Chip.aqReady (c : Chip) (f : Nat) : Bool :=
  let q := (c.fn f).aq
  q.ready && q.enable && !q.stopped && q.running.isNone && !q.reading && q.rereads == 0 && q.sqP != q.sqC &&
    decide (usedOf q.cqP q.cqC + q.slots + q.held.length < 2 ^ q.cqLog) && !c.dmaHeld f && c.adminRuns

/-- Read the admin command at the consumer count, whole (R90). -/
def Chip.issueAdmin (c : Chip) (f : Nat) : Chip :=
  let q := (c.fn f).aq
  (c.updFn f fun x => { x with aq := { x.aq with reading := true } }).hostReadReq f (entryAddr q.sqBase q.sqLog q.sqC 64) 64

end Sys2Proof.Machine
end

