-- ==== Sys2Proof/Machine/Messages.lean ====
section
/-!
DEFINITION. Service messages (R342 to R344, R262 to R265), the answers of service requests (R338, R340), and the
writing of an answer to a descriptor's buffer.
-/
namespace Sys2Proof.Machine

/-! ### Writing data to host memory (R78, R292) -/

/-- Split `n` bytes from byte `i` of a buffer into contiguous pieces: at element boundaries of an index table, at 4 KiB
boundaries and at `max` bytes (R292). Each piece: its offset in the buffer and its length. -/
def splitRun : Nat → (Nat → Addr) → Nat → Nat → Nat → Nat → List (Nat × Nat)
  | 0, _, _, _, _, _ => []
  | k + 1, at_, elem, max_, i, n =>
    if n = 0 then []
    else
      let a := (at_ i).toNat
      let l := min n (min max_ (4096 - a % 4096))
      let l := if elem = 0 then l else min l (elem - i % elem)
      (i, l) :: splitRun k at_ elem max_ (i + l) (n - l)

/-- Where byte `i` of a service descriptor's buffer lies (R134, R337). -/
def Xfer.svcAddr (x : Xfer) (i : Nat) : Addr :=
  if x.d.index then x.d.addr + (dw x.index (i / x.d.svcElemLen)).setWidth 64 + BitVec.ofNat 64 (i % x.d.svcElemLen)
  else x.d.addr + BitVec.ofNat 64 i

/-- R404: the first `n` bytes of a service descriptor's buffer lie in a homed function's window. -/
def Chip.svcWithin (c : Chip) (f : Nat) (x : Xfer) (n : Nat) : Bool :=
  match (c.fn f).home with
  | none => true
  | some h => (List.range n).all fun i => h.within (x.svcAddr i).toNat 1

/-- Write an answer over a service descriptor's buffer from offset 0 (R78, R338). -/
def Chip.writeAnswer (c : Chip) (f : Nat) (x : Xfer) (bs : List Byte) : Chip :=
  let ns := x.d.noSnoop && (c.fn f).nosnoop
  let ps := splitRun bs.length x.svcAddr (if x.d.index then x.d.svcElemLen else 0) c.pci.mps 0 bs.length
  c.each ps fun c p => c.hostWrite f (x.svcAddr p.1) ((bs.drop p.1).take p.2) ns

/-! ### The message format (R342) -/

/-- Padding to a multiple of 8 bytes. -/
def padTo8 (bs : List Byte) : List Byte := bs ++ List.replicate ((8 - bs.length % 8) % 8) 0#8

/-- A message as the host receives it. -/
def Msg.bytes (m : Msg) (svc : Svc) (h : Nat) : List Byte :=
  wordsBytes [mkWord [(m.type, 0), (svc.code, 8), (m.body.length, 16)], mkWord [(h, 0), (m.devh, 16)],
    mkWord [(m.mfn.toNat, 0), (b2n m.ovf, 14), (m.seq, 16)], m.ref] ++ padTo8 m.body

/-- The data space of its buffer (R344): all but the last 1 KiB. -/
def Inst.dataSpace (i : Inst) : Nat := i.kib * 1024 - 1024

/-- R344: a message is put into the buffer. -/
def Inst.accept (i : Inst) (type devh : Nat) (mfn : Mfn) (ref : Word) (body : List Byte) : Inst :=
  let m : Msg := { type := type, devh := devh, mfn := mfn, ovf := i.lostMsg, seq := i.seq, ref := ref, body := body }
  let ms := i.msgs ++ [m]
  { i with msgs := ms, seq := (i.seq + 1) % 65536, lostMsg := false,
           peak := max i.peak (((ms.map Msg.size).sum + 15) / 16) }

/-- R344: a status message is put into the buffer, or discarded when it does not fit even in the reserve. -/
def Inst.takeStatus (i : Inst) (type devh : Nat) (mfn : Mfn) (ref : Word) (body : List Byte) : Inst :=
  if i.held + (16 + (body.length + 7) / 8 * 8) ≤ i.kib * 1024 then i.accept type devh mfn ref body
  else { i with lostMsg := true, ovfDrop := satAdd 255 i.ovfDrop 1 }

def noRef : Word := 0xFFFFFFFF#32

/-! ### RECV (R343) -/

/-- The messages a RECV of capacity `cap` and limit `mx` takes (R343): whole ones, oldest first. -/
def takeMsgs : List Msg → Nat → Nat → List Msg
  | [], _, _ => []
  | _, _, 0 => []
  | m :: r, cap, k + 1 => if m.size ≤ cap then m :: takeMsgs r (cap - m.size) k else []

/-- R344: a message found poisoned at delivery is replaced, in its place, by DATALOSS. -/
def Msg.repaired (m : Msg) : Msg :=
  if m.poison then { m with type := 0xF3, body := [BitVec.ofNat 8 m.type], poison := false } else m

/-- R262, R344: waiting data messages enter the buffer: ENUM's as soon as they fit, another service's once half the
data space is free. -/
def Inst.refill : Nat → Inst → Inst
  | 0, i => i
  | k + 1, i =>
    match i.waitMsgs with
    | [] => { i with stopped := false }
    | w :: r =>
      let ok := i.held + (16 + (w.body.length + 7) / 8 * 8) ≤ i.dataSpace
      let half := i.svc == .enum || !i.stopped || decide (i.held ≤ i.dataSpace / 2)
      if ok ∧ half then Inst.refill k ({ i with waitMsgs := r, stopped := false }.accept w.type w.devh w.mfn noRef w.body)
      else i

/-- R262: the ENUM flow of a port is HELD while a message concerning its tree waits; it is let go when none does. -/
def Chip.judgeEnumHold (c : Chip) (h p : Nat) : Chip :=
  match c.inst h with
  | none => c
  | some i =>
    let w := i.svc == .enum && i.waitMsgs.any fun m => m.port == p
    c.updFlow p fun x =>
      if w then (if x.st = .open_ then { x with st := .held } else x)
      else (if x.st = .held then { x with st := .open_ } else x)

/-- Let waiting messages in, and let go of the ENUM flows whose messages have all entered (R262). -/
def Chip.refillInst (c : Chip) (h : Nat) : Chip :=
  match c.inst h with
  | none => c
  | some i =>
    let ports := (i.waitMsgs.map WaitMsg.port).eraseDups
    let c := c.updInst h fun i => Inst.refill (i.waitMsgs.length + 1) i
    if i.svc == .enum then c.each ports fun c p => c.judgeEnumHold h p else c

/-- R343: deliver held messages to a RECV. The request is described by its WQ and WQCOUNT. (DEDUCED, log 253) -/
def Chip.recvFill (c : Chip) (h f n : Nat) (x : Xfer) : Chip :=
  match c.inst h with
  | none => c
  | some i =>
    let ms := i.msgs.map Msg.repaired
    match ms with
    | [] => c
    | m :: _ =>
      if x.d.length < m.size then
        let d0 := mkWord [(0x07, 0), (i.svc.code, 8)]
        let d1 := BitVec.ofNat 32 m.size
        let c := c.finishWith f n x.count St.serviceError fun e => { e with length := 0, d0 := d0, d1 := d1 }
        let c := c.updSvc fun s => { s with svcErr := satAdd 0xFFFF s.svcErr 1 }
        c.updInst h fun i => i.takeStatus 0xF2 i.dev c.mfn x.count (wordsBytes [d0, d1])
      else
        let t := takeMsgs ms x.d.length (if x.d.argB = 0 then ms.length else x.d.argB)
        let bs := t.flatMap fun m => m.bytes i.svc h
        let rest := ms.drop t.length
        if !c.svcWithin f x bs.length then c.finishWith f n x.count St.accessError fun e => { e with length := 0 }
        else
        let c := c.updInst h fun i => { i with msgs := rest }
        let c := c.writeAnswer f x bs
        let c := c.finishWith f n x.count St.success fun e =>
          { e with length := bs.length, d0 := BitVec.ofNat 32 t.length,
                   d1 := BitVec.ofNat 32 ((rest.map Msg.size).sum) }
        c.refillInst h

/-- R343, R344: waiting RECVs take what the instance holds, oldest first, unless no WQ is bound or its CQ is held. -/
def Chip.recvLoop : Nat → Chip → Nat → Chip
  | 0, c, _ => c
  | k + 1, c, h =>
    match c.inst h with
    | none => c
    | some i =>
      match i.wq with
      | none => c
      | some (f, n) =>
        match c.wq f n with
        | none => c
        | some q =>
          let held := match c.cq f q.cq with | some k => k.held | none => true
          if held || i.msgs.isEmpty || c.dmaHeld f then c
          else match q.work.find? Xfer.waitingRecv with
            | some x => Chip.recvLoop k (c.recvFill h f n x) h
            | none => c

/-- As many RECVs wait as the WQ has descriptors at most. -/
def Chip.recvTry (c : Chip) (h : Nat) : Chip :=
  let k := match (c.inst h).bind Inst.wq with
    | some (f, n) => (match c.wq f n with | some q => q.work.length | none => 0)
    | none => 0
  Chip.recvLoop k c h

/-- R75, R118, R119: a hold on the CQs or the DMA of `f` may have ended: its waiting RECVs take what is held for them. -/
def Chip.recvResume (c : Chip) (f : Nat) : Chip :=
  c.each ((c.insts.filter fun e => (e.2.wq.map Prod.fst) == some f).map Prod.fst) Chip.recvTry

/-- R115: a CCOUNT write. -/
def Chip.ccount (c : Chip) (f n : Nat) (w : Word) : Chip := (c.ccountTake f n w).recvResume f

/-! ### Queueing messages (R262, R344) -/

/-- R344: a status message: discarded when it does not fit even in the reserve. -/
def Chip.statusMsg (c : Chip) (h type devh : Nat) (ref : Word) (body : List Byte) : Chip :=
  (c.updInst h fun i => i.takeStatus type devh c.mfn ref body).recvTry h

/-- R262, R344: a data message: one that does not fit waits, and the instance stops taking data. (DEDUCED, log 109) -/
def Chip.dataMsg (c : Chip) (h port type devh : Nat) (body : List Byte) : Chip :=
  match c.inst h with
  | none => c
  | some i =>
    if i.waitMsgs.isEmpty && decide (i.held + (16 + (body.length + 7) / 8 * 8) ≤ i.dataSpace) then
      (c.updInst h fun i => i.accept type devh c.mfn noRef body).recvTry h
    else
      let c := c.updInst h fun i =>
        { i with waitMsgs := i.waitMsgs ++ [{ port := port, type := type, devh := devh, body := body, mfn := c.mfn }],
                 stopped := i.stopped || i.svc != .enum,
                 stops := if i.stopped || i.svc == .enum then i.stops else satAdd 0xFFFF i.stops 1 }
      c.judgeEnumHold h port

/-! ### Failing a request (R340) -/

/-- The service code of an instance. -/
def Chip.svcCode (c : Chip) (h : Nat) : Nat := match c.inst h with | some i => i.svc.code | none => 0

/-- R340: a request fails in its service: SERVICE_ERROR with its detail, and a REQ_ERROR message that carries it. -/
def Chip.svcFail (c : Chip) (h f n : Nat) (x : Xfer) (detail value : Nat) (d1 : Word := 0#32) : Chip :=
  let d0 := mkWord [(detail, 0), (c.svcCode h, 8), (value, 16)]
  let dev := match c.inst h with | some i => i.dev | none => 0xFFFF
  let c := c.finishWith f n x.count St.serviceError fun e => { e with length := 0, d0 := d0, d1 := d1 }
  let c := c.updSvc fun s => { s with svcErr := satAdd 0xFFFF s.svcErr 1 }
  c.statusMsg h 0xF2 dev x.count (wordsBytes [d0, d1])

/-- R340: a request succeeds with its DETAIL dwords. -/
def Chip.svcOk (c : Chip) (f n : Nat) (x : Xfer) (len : Nat := 0) (d0 d1 : Word := 0#32) : Chip :=
  c.finishWith f n x.count St.success fun e => { e with length := len, d0 := d0, d1 := d1 }

/-- R338: answer an IN or IN/OUT request: an answer longer than LENGTH writes nothing. -/
def Chip.svcAnswer (c : Chip) (h f n : Nat) (x : Xfer) (bs : List Byte) (d0 d1 : Word := 0#32) : Chip :=
  if x.d.length < bs.length then c.svcFail h f n x 0x07 0 (BitVec.ofNat 32 bs.length)
  else if !c.svcWithin f x bs.length then c.finishWith f n x.count St.accessError fun e => { e with length := 0 }
  else (c.writeAnswer f x bs).svcOk f n x bs.length d0 d1

/-! ### ENUM's messages (R262 to R265) -/

/-- The ENUM instance of the function that owns port `p`. -/
def Chip.enumOf (c : Chip) (p : Nat) : Nat := 0x800 + c.ownerOf p

def handleOr (h : Option Nat) : Nat := h.getD 0xFFFF

/-- The default control endpoint's context of a device (R257). -/
def Chip.ep0 (c : Chip) (h : Nat) : Option Nat :=
  (c.eps.find? fun e => e.2.dev == h && e.2.dflt).map Prod.fst

def Speed.code : Option Speed → Nat
  | none => 0
  | some .low => 1
  | some .full => 2
  | some .high => 3

/-- R264: the ATTACH body of device `h`. -/
def Chip.attachBody (c : Chip) (h : Nat) (d : Dev) (reason : Nat) : List Byte :=
  let ser := d.serial.take 32
  wordsBytes [mkWord [(h, 0), (handleOr (d.parent.map Prod.fst), 16)],
    mkWord [(d.port, 0), ((d.parent.map Prod.snd).getD 0, 8), (d.addr, 16), (b2n d.hub, 23), (d.depth, 24),
      (Speed.code (some d.speed), 27), (b2n d.lpm, 29), (b2n d.refused, 30)],
    mkWord [(halfAt d.desc 8, 0), (halfAt d.desc 10, 16)],
    mkWord [(halfAt d.desc 12, 0), (byteAt d.desc 4, 16), (byteAt d.desc 5, 24)],
    mkWord [(byteAt d.desc 6, 0), (d.cfgVal, 8), (if d.cfgVal = 0 then 0 else byteAt d.cfg 4, 16), (reason, 24)],
    mkWord [(if d.hub then 0xFFFF else handleOr (c.ep0 h), 0)], mkWord [(d.serial.length / 2, 0)], 0#32] ++
  ser ++ List.replicate (32 - ser.length) 0#8

/-- An ATTACH message to the function that owns the device's port (R262, R264). -/
def Chip.sendAttach (c : Chip) (h reason : Nat) : Chip :=
  match c.dev h with
  | some d =>
    let c := c.dataMsg (c.enumOf d.port) d.port 0x01 h (c.attachBody h d reason)
    if c.insts.any fun i => i.2.svc == .hlth && i.2.port == d.port then
      c.updSc d.port fun s => { s with attachLog := s.attachLog ++ [(d.parent, d.serial)] }
    else c
  | none => c

/-- A DETACH message to function `f` (R265). -/
def Chip.sendDetach (c : Chip) (f h reason : Nat) : Chip :=
  match c.dev h with
  | some d => c.dataMsg (0x800 + f) d.port 0x02 h (wordsBytes [mkWord [(h, 0), (handleOr (d.parent.map Prod.fst), 16)],
      mkWord [(d.port, 0), ((d.parent.map Prod.snd).getD 0, 8), (d.addr, 16)], mkWord [(reason, 0)],
      mkWord [(c.mfn.toNat, 0)]])
  | none => c

/-- R265: a PORT_STATUS message for a state change of port `p`; `flags` are HOSTRES, RWS, L1 of the record it tells. -/
def Chip.sendPortStatus (c : Chip) (p : Nat) (host rws l1 : Bool := false) : Chip :=
  let x := c.port p
  c.dataMsg (c.enumOf p) p 0x03 0xFFFF (wordsBytes [mkWord [(p, 0), (x.st.code, 8), (Speed.code x.speed, 12),
    (b2n host, 14), (b2n rws, 15), (b2n l1, 16), (b2n x.spare, 17)], mkWord [(0xFFFF, 0)], mkWord [(c.mfn.toNat, 0)]])

/-- R265: a PORT_STATUS message for a device behind a hub whose suspend state changed. -/
def Chip.sendDevStatus (c : Chip) (h : Nat) (susp : Bool) : Chip :=
  match c.dev h with
  | some d =>
    let x := c.port d.port
    c.dataMsg (c.enumOf d.port) d.port 0x03 h (wordsBytes [mkWord [(d.port, 0), (x.st.code, 8), (Speed.code x.speed, 12),
      (b2n x.spare, 17)], mkWord [(h, 0), (b2n susp, 16)], mkWord [(c.mfn.toNat, 0)]])
  | none => c

/-- R263, R265: an ENUM_FAIL message, and the report to Beryl. (DEDUCED, log 87) -/
def Chip.sendEnumFail (c : Chip) (p : Nat) (at_ : Option (Nat × Nat)) (step status reason : Nat) : Chip :=
  let c := c.updPort p fun x => { x with lastReason := reason, lastStep := step }
  let c := c.report p (if reason = 1 then Kind.timeout else Kind.protocol) 0
  c.dataMsg (c.enumOf p) p 0x04 0xFFFF (wordsBytes [mkWord [(p, 0), ((at_.map Prod.snd).getD 0, 8),
    (handleOr (at_.map Prod.fst), 16)], mkWord [(step, 0), (status, 8), (reason, 16)]])

/-- R265: a POWER message. -/
def Chip.sendPower (c : Chip) (p reason : Nat) : Chip :=
  let x := (c.port p).pw
  c.dataMsg (c.enumOf p) p 0x05 0xFFFF (wordsBytes [mkWord [(p, 0), (reason, 8), (x.left, 12)],
    mkWord [(x.filt, 0)], mkWord [(c.mfn.toNat, 0)]])

/-- The devices of port `p` that have handles, hubs first and each tree in the order of depth and handle. -/
def Chip.devsOf (c : Chip) (p : Nat) : List Nat :=
  (List.range 6).flatMap fun k =>
    (c.devs.filter fun e => e.1 < 0x800 && e.2.port == p && !e.2.detached && e.2.depth == k).map Prod.fst

/-- R73, R264: ENUM sends the attach messages owed to `f`, with reason RELOAD. -/
def Chip.sendOwed (c : Chip) (f : Nat) : Chip :=
  if (c.fn f).aq.owed then
    let c := c.updAq f fun q => { q with owed := false }
    c.each ((List.range 128).filter fun p => c.ownerOf p == f) fun c p => c.each (c.devsOf p) fun c h => c.sendAttach h 3
  else c

end Sys2Proof.Machine
end

