-- ==== Sys2Proof/Machine/Tasks.lean ====
section
/-!
DEFINITION. Splice's operations (chapter 09): creating, readying, placing, cancelling and releasing task records. The
commands stand in Machine/Splice.lean.
-/
namespace Sys2Proof.Machine

/-! ### Flows and their tasks -/

/-- The function that a flow counts against (R309): the owner of its port. -/
def Chip.flowFn (c : Chip) (i : Nat) : Nat :=
  if i < 128 then c.ownerOf i
  else match (c.flow i).bind Flow.inst with
    | some h => (c.instOwner h).getD 0
    | none => 0

/-- The tasks of flow `i`, by creation. -/
def Chip.flowTasks (c : Chip) (i : Nat) : List Task := c.dsp.tasks.filter fun t => t.flow == some i

/-- R329: STATE of a flow: 0 FREE, 1 IDLE, 2 BUSY, 3 HELD, 4 CLOSING, 5 LOST. -/
def Chip.flowState (c : Chip) (i : Nat) : Nat :=
  match c.flow i with
  | none => 0
  | some x => match x.st with
    | .held => 3
    | .closing => 4
    | .lost => 5
    | .open_ => if (c.flowTasks i).isEmpty then 1 else 2

def Chip.task (c : Chip) (id : Nat) : Option Task := c.dsp.tasks.find? fun t => t.id == id

/-- Change a task record. -/
def Chip.updTask (c : Chip) (id : Nat) (g : Task → Task) : Chip :=
  c.updDsp fun d => { d with tasks := d.tasks.map fun t => if t.id = id then g t else t }

/-! ### Readiness (R306, R312) -/

/-- R306: a waiting task with its counter 0 and PREV clear becomes ready. -/
def Chip.settleTask (c : Chip) (id : Nat) : Chip :=
  match c.task id with
  | none => c
  | some t =>
    if t.st = .waiting ∧ t.deps = 0 ∧ t.prev = false then
      (c.updTask id fun t => { t with st := .ready, readyAt := c.dsp.clock, timer := false, deadline := false }).updDsp fun d =>
        { d with clock := d.clock + 1 }
    else c

/-- R306: one awaited item of a task is there. A decrement after a deadline's expiry has no effect (R308). -/
def Chip.decTask (c : Chip) (id : Nat) : Chip :=
  (c.updTask id fun t => if t.st = .waiting && !t.timedOut then { t with deps := t.deps - 1 } else t).settleTask id

/-- R305, R311: a task may be created in a flow now. -/
def Chip.windowFree (c : Chip) (i : Nat) : Bool :=
  match c.flow i with
  | some x => (x.next + 65536 - x.rel) % 65536 < 64
  | none => false

/-- Create the task record of a happening (R304, R312). -/
def Chip.makeTask (c : Chip) (h : Happening) : Chip :=
  let id := c.dsp.nextId
  match h.flow, h.flow.bind c.flow with
  | none, _ =>
    let t : Task := { id := id, flow := none, seq := 0, st := .waiting, job := h.job }
    (c.updDsp fun d => { d with tasks := d.tasks ++ [t], nextId := id + 1, peak := max d.peak (d.tasks.length + 1) }).settleTask id
  | _, none => c
  | some flow, some x =>
    let t : Task := { id := id, flow := some flow, seq := x.next, deps := h.deps, prev := x.atomic && x.next != x.rel,
                      st := .waiting, job := h.job, deadline := h.deadline, timer := h.timer }
    let c := c.updFlow flow fun y => { y with next := (y.next + 1) % 65536 }
    (c.updDsp fun d => { d with tasks := d.tasks ++ [t], nextId := id + 1, peak := max d.peak (d.tasks.length + 1) }).settleTask id

/-- R304, R305, R311: a happening creates a task in its flow, or waits. None is created in a flow that is being deleted
or is LOST (R325). -/
def Chip.happen (c : Chip) (flow deps : Nat) (job : Job) (deadline : Bool := false) (timer : Bool := false) : Chip :=
  let h : Happening := { flow := some flow, deps := deps, deadline := deadline, timer := timer, job := job }
  match c.flow flow with
  | none => c
  | some x =>
    if x.st = .closing ∨ x.st = .lost then c
    else if 8192 ≤ c.dsp.tasks.length then
      c.updDsp fun d => { d with waiting := d.waiting ++ [h], taskFull := satAdd 0xFFFF d.taskFull 1 }
    else if !c.windowFree flow || c.dsp.waiting.any (fun w => w.flow == some flow) then
      c.updDsp fun d => { d with waiting := d.waiting ++ [h], winFull := satAdd 0xFFFF d.winFull 1 }
    else c.makeTask h

/-- A task made for no function, for lane `lane`, is created, or waits (R304, R305, R316). (DEDUCED, log 260) -/
def Chip.testTask (c : Chip) (lane : Nat) : Chip :=
  let h : Happening := { flow := none, deps := 0, deadline := false, timer := false, job := .test lane }
  if 8192 ≤ c.dsp.tasks.length then
    c.updDsp fun d => { d with waiting := d.waiting ++ [h], taskFull := satAdd 0xFFFF d.taskFull 1 }
  else c.makeTask h

/-- R305: waiting happenings are served in the order in which they began to wait, as slots free. -/
def Chip.serveWaiting (c : Chip) : Chip :=
  c.each c.dsp.waiting fun c h =>
    if c.dsp.tasks.length < 8192 && (match h.flow with | some i => c.windowFree i | none => true) then
      (c.updDsp fun d => { d with waiting := d.waiting.erase h }).makeTask h
    else c

/-! ### Cancellation (R320 to R322) -/

/-- Clear the PREV mark of the task after sequence `s` of flow `i`. (DEDUCED, log 113) -/
def Chip.clearPrev (c : Chip) (i s : Nat) : Chip :=
  match (c.flowTasks i).find? fun t => t.seq == (s + 1) % 65536 with
  | some t => (c.updTask t.id fun t => { t with prev := false }).settleTask t.id
  | none => c

/-- R321, R322: cancel one task: its slot becomes an empty marker, at once or when it ends on its lane. The next task's
PREV clears once neither this task nor one before it still holds it back (R310, R312). -/
def Chip.cancelTask (c : Chip) (t : Task) : Chip :=
  if t.marker || t.cancelled then c
  else
    let c := c.updDsp fun d => { d with cancelled := satAdd 0xFFFF d.cancelled 1 }
    if t.st = .inService then c.updTask t.id fun t => { t with cancelled := true }
    else
      let c := c.updTask t.id fun t =>
        { t with st := .done, marker := true, timer := false, deadline := false }
      match t.flow with
      | some i => if t.prev then c else c.clearPrev i t.seq
      | none => c

/-- Cancel the tasks of which `p` holds (R320). -/
def Chip.cancelTasks (c : Chip) (p : Task → Bool) : Chip :=
  c.each (c.dsp.tasks.filter p) fun c t => match c.task t.id with | some t => c.cancelTask t | none => c

/-- The task of a request or job (R304). -/
def Task.ofRequest (f n : Nat) (count : Word) (t : Task) : Bool := t.job == .request f n count

/-! ### Release (R315) -/

/-- R315: the task at RELSEQ of flow `i`, if it is done. -/
def Chip.releasable (c : Chip) (i : Nat) : Option Task :=
  match c.flow i with
  | some x => (c.flowTasks i).find? fun t => t.seq == x.rel && t.st == .done
  | none => none

/-- Take a released task's record away: RELSEQ advances, the next task's PREV clears, and a CLOSING flow without tasks
becomes FREE (R315, R325). -/
def Chip.dropTask (c : Chip) (i : Nat) (t : Task) : Chip :=
  let c := c.updDsp fun d =>
    { d with tasks := d.tasks.filter fun u => u.id != t.id,
             markers := if t.marker then satAdd 0xFFFF d.markers 1 else d.markers }
  let c := c.updFlow i fun x =>
    { x with rel := (x.rel + 1) % 65536, released := if t.marker then x.released else satAdd 0xFFFF x.released 1 }
  let c := (c.clearPrev i t.seq).serveWaiting
  match c.flow i with
  | some x =>
    if (x.st = .closing ∨ x.st = .lost) ∧ (c.flowTasks i).isEmpty ∧ 128 ≤ i then
      c.updDsp fun d => { d with flows := Tab.erase d.flows i }
    else c
  | none => c

/-! ### Flows of an instance (R309, R325) -/

/-- The flows not FREE (R328). -/
def Chip.flowsInUse (c : Chip) : Nat := 128 + (c.dsp.flows.filter fun e => 128 ≤ e.1).length

/-- The lowest free flow ID (R309). -/
def Chip.freeFlow (c : Chip) : Nat :=
  ((List.range (c.dsp.flows.length + 1)).find? fun k => (Tab.find c.dsp.flows (128 + k)).isNone).getD 0 + 128

/-- Create a flow for instance `h` (R309, R310). -/
def Chip.newFlow (c : Chip) (h : Nat) (atomic : Bool) : Nat × Chip :=
  let i := c.freeFlow
  (i, c.updDsp fun d => { d with flows := Tab.put d.flows i { atomic := atomic, inst := some h } })

/-- R325: a flow is being deleted: every task in flight is cancelled; with none in flight it is FREE at once. -/
def Chip.closeFlow (c : Chip) (i : Nat) : Chip :=
  let c := c.updFlow i fun x => { x with st := .closing }
  let c := c.updDsp fun d => { d with waiting := d.waiting.filter fun h => h.flow != some i }
  let c := c.cancelTasks fun t => t.flow == some i
  if (c.flowTasks i).isEmpty ∧ 128 ≤ i then c.updDsp fun d => { d with flows := Tab.erase d.flows i } else c

/-! ### Placement (R316 to R318) -/

/-- A lane is a candidate (R317). -/
def Lane.candidate (l : Lane) : Bool := l.present && l.off == 0
/-- The ready queue of lane `l`; its order is that of `placedAt` (R319). -/
def Chip.laneQueue (c : Chip) (l : Nat) : List Task := c.dsp.tasks.filter fun t => t.st == .queued && t.lane == l
/-- The task in service on lane `l`. -/
def Chip.laneTask (c : Chip) (l : Nat) : Option Task := c.dsp.tasks.find? fun t => t.st == .inService && t.lane == l
/-- R317: a lane's load. -/
def Chip.laneLoad (c : Chip) (l : Nat) : Nat := (c.laneQueue l).length + b2n (c.laneTask l).isSome

/-- A ready task that may be placed: its flow is not HELD (R325), nor ENUM's flow of a port that is being moved (R68). -/
def Chip.placeable (c : Chip) (t : Task) : Bool :=
  t.st == .ready && (match t.flow with
    | none => true
    | some i => !(decide (i < 128) && (c.own i).moving) && (match c.flow i with
      | some x => x.st != .held
      | none => false))

/-- R316 (3): the earlier ready, then the lower flow, then the lower sequence number. -/
def Task.before (a b : Task) : Bool :=
  a.readyAt < b.readyAt || (a.readyAt == b.readyAt && (a.flow.getD 0 < b.flow.getD 0 || (a.flow == b.flow && a.seq < b.seq)))

/-- The first of a list under an order. -/
def firstBy {α : Type} (lt : α → α → Bool) : List α → Option α
  | [] => none
  | a :: r => match firstBy lt r with
    | none => some a
    | some b => if lt b a then some b else some a

/-- The function a ready task counts against, for R316. -/
def Chip.taskFn (c : Chip) (t : Task) : Nat := match t.flow with | some i => c.flowFn i | none => 0

/-- R317: the candidate with the least load, the lowest number among equals. -/
def Chip.leastLane (c : Chip) : Option Nat :=
  firstBy (fun a b => c.laneLoad a < c.laneLoad b) ((List.range 32).filter fun l => (c.lane l).candidate)

/-- R317: the lane of a task and whether it is by affinity. -/
def Chip.laneFor (c : Chip) (t : Task) : Option (Nat × Bool) :=
  match t.job, t.flow with
  | .test l, _ => some (l, false)
  | _, some i =>
    match c.flow i with
    | none => none
    | some x =>
      if (c.lane x.lane).candidate && decide ((c.laneQueue x.lane).length < 4) then some (x.lane, true)
      else match c.leastLane with
        | some l => if (c.laneQueue l).length < 8 then some (l, false) else none
        | none => none
  | _, none => none

/-- R318: where the context of flow `i` must be brought from for lane `l`: nothing, a copy (1), or Garnet (2).
(DEDUCED, log 114) -/
def Flow.ctxNeed (x : Flow) (l : Nat) : Nat :=
  if x.ctxOut then 2 else match x.ctxLane with
    | none => 0
    | some k => if k = l then 0 else 1

/-- R318: when lane `l` holds 32 contexts of 4 KiB, the least recently used one with no task there is written out. -/
def Chip.evict (c : Chip) (l i : Nat) : Chip :=
  let here := c.dsp.flows.filter fun e => e.2.ctxLane == some l && e.1 != i
  if here.length < 32 then c
  else
    let idle := here.filter fun e => !(c.dsp.tasks.any fun t => t.flow == some e.1 && t.lane == l &&
      (t.st == .queued || t.st == .inService))
    match firstBy (fun a b => a.2.ctxUsed < b.2.ctxUsed) idle with
    | some e => c.updFlow e.1 fun x => { x with ctxLane := none, ctxOut := true }
    | none => c

/-- Place a task on a lane (R316, R317, R318). -/
def Chip.placeOn (c : Chip) (t : Task) (l : Nat) (aff : Bool) : Chip :=
  let k := c.dsp.clock
  let c := c.updDsp fun d => { d with clock := k + 1 }
  match t.flow with
  | none => c.updTask t.id fun t => { t with st := .queued, lane := l, placedAt := k }
  | some i =>
    let need := match c.flow i with | some x => x.ctxNeed l | none => 0
    let c := c.evict l i
    let c := c.updFlow i fun x =>
      { x with lane := l, ctxLane := some l, ctxOut := false, ctxUsed := k,
               moves := if need = 1 then satAdd 0xFFFF x.moves 1 else x.moves }
    let c := c.updLane l fun y =>
      if aff then { y with affinity := satAdd 0xFFFF y.affinity 1 } else { y with fallback := satAdd 0xFFFF y.fallback 1 }
    c.updTask t.id fun t => { t with st := .queued, lane := l, placedAt := k, ctx := need }

/-- R304: a step of a measurement needs a lane; which one it names is not stated, so it is a free choice among those that
are online. -/
def Chip.measureTask (c : Chip) : Chip :=
  let ls := (List.range 32).filter fun l => (c.lane l).candidate
  let (v, c) := c.fresh
  match ls[Config.freeNat v % max 1 ls.length]? with
  | some l => c.testTask l
  | none => c

/-- R316: one placement. A task made for no function goes first; it counts against PF0 (R309). -/
def Chip.place (c : Chip) : Chip :=
  let rdy := c.dsp.tasks.filter c.placeable
  match firstBy Task.before (rdy.filter fun t => t.flow.isNone) with
  | some t => match c.laneFor t with
    | some (l, a) => (c.placeOn t l a).updFn 0 fun x => { x with placed := satAdd 0xFFFFFFFF x.placed 1 }
    | none => c
  | none =>
    let has := fun f => rdy.any fun t => c.taskFn t == f
    let fs := (List.range 128).filter has
    let c := if fs.any fun f => 0 < (c.fn f).dspCredit then c
      else c.each (List.range 128) fun c f => c.updFn f fun x => { x with dspCredit := x.share }
    match nextAfter fs c.dsp.ptr fun f => 0 < (c.fn f).dspCredit with
    | none => c
    | some f =>
      match firstBy Task.before (rdy.filter fun t => c.taskFn t == f) with
      | none => c
      | some t => match c.laneFor t with
        | none => c
        | some (l, a) =>
          let c := (c.placeOn t l a).updDsp fun d => { d with ptr := f }
          c.updFn f fun x => { x with dspCredit := x.dspCredit - 1, placed := satAdd 0xFFFFFFFF x.placed 1 }

/-! ### Lanes going offline (R327) -/

/-- R327: lane `l` goes offline: its queued tasks return to READY with their ready times, and contexts held only there
are written out; on a failed lane they are lost, which the caller handles. -/
def Chip.laneOffline (c : Chip) (l : Nat) (failed : Bool) : Chip :=
  let c := c.updDsp fun d => { d with tasks := d.tasks.map fun t =>
    if t.st = .queued ∧ t.lane = l then { t with st := .ready, ctx := 0 } else t }
  let busy := (c.laneTask l).isSome
  let c := c.updLane l fun x => { x with off := if busy && !failed then 1 else 2 }
  if failed then c
  else c.updDsp fun d => { d with flows := d.flows.map fun e =>
    (e.1, if e.2.ctxLane = some l then { e.2 with ctxLane := none, ctxOut := true } else e.2) }

end Sys2Proof.Machine
end

