-- ==== Sys2Proof/Machine/LongOps.lean ====
section
/-!
DEFINITION. Long operations (R435 to R442): records, state changes, and the completions they owe. The LONG_ commands
stand in Machine/Admin.lean.
-/
namespace Sys2Proof.Machine

/-- The admin status codes (R427). -/
def Ad.success : Nat := 0x00
def Ad.invalidOpcode : Nat := 0x01
def Ad.invalidParam : Nat := 0x02
def Ad.access : Nat := 0x03
def Ad.resource : Nat := 0x04
def Ad.deviceError : Nat := 0x05
def Ad.badState : Nat := 0x06
def Ad.noOp : Nat := 0x07
def Ad.cancelled : Nat := 0x08
def Ad.image : Nat := 0x09
def Ad.testFail : Nat := 0x0A

/-- Opcodes of R430 that completions outside their command name. -/
def Opc.longSuspend : Nat := 0x20

/-- R364, R366: the JOB message of a STREAM_JOB, with its bytes acknowledged. -/
def Chip.jobMsg (c : Chip) (i : Nat) : Chip :=
  match c.op i with
  | none => c
  | some o => match o.job with
    | none => c
    | some (f, n, count, h) =>
      let x := (c.wq f n).bind fun q => q.work.find? fun x => x.count == count
      let tag := match x with | some x => x.d.tag | none => 0
      let stalled := match c.inst h with | some t => t.strm.stalled | none => false
      let dev := match c.inst h with | some t => t.dev | none => 0xFFFF
      c.statusMsg h 0x03 dev noRef (wordsBytes [mkWord [(i, 0), (tag, 16)], mkWord [(o.st.code, 0), (b2n stalled, 4)],
        mkWord [(o.progress, 0)]])

/-- A state change of an operation, with its MFN; a STREAM_JOB queues its JOB message (R364), and source 22 rises in the
owner, but not at the normal end of SCRUB (R436). -/
def Chip.opState (c : Chip) (i : Nat) (st : OpSt) : Chip :=
  match c.op i with
  | none => c
  | some o =>
    let c := (c.updOp i fun o => { o with st := st, mfn := c.mfn }).jobMsg i
    if o.dropped ∨ (o.kind = .scrub ∧ o.st = .running ∧ st = .done) then c else c.raise o.fn 22

/-- Write the completion of a command whose slot was reserved (R428). -/
def Chip.adminLate (c : Chip) (f : Nat) (a : AdminCpl) : Chip :=
  (c.updAq f fun q => { q with slots := q.slots - 1 }).adminWrite f a

/-- The LONG_SUSPEND commands that wait on operation `i` complete with a status (R439). (DEDUCED, log 48) -/
def Chip.endSuspends (c : Chip) (i status : Nat) : Chip :=
  match c.op i with
  | none => c
  | some o =>
    let c := c.updOp i fun o => { o with suspWait := [], suspReq := false }
    c.each o.suspWait fun c w =>
      c.adminLate w.1 { cid := w.2, opcode := Opc.longSuspend, status := status, opid := i, mfn := c.mfn }

/-- An operation reaches DONE with an OUTCOME (R438): a waiting LONG_SUSPEND completes BAD_STATE (R441), and the
starting command's completion is written (R428), unless the AQ has been disabled since (R123). One whose owner was reset leaves no completion and no record (R442). -/
def Chip.opDone (c : Chip) (i outcome : Nat) (detail : Word := 0#32) (outs : List Word := []) : Chip :=
  match c.op i with
  | none => c
  | some o =>
    let c := (c.endSuspends i Ad.badState).opState i .done
    let c := c.updOp i fun o => { o with outcome := outcome, cut := none, delay := false, busy := false }
    if o.dropped then c.updOps fun x => { x with recs := x.recs.filter fun r => r.opid != i }
    else if o.kind = .scrub ∨ o.kind = .streamJob ∨ o.epoch ≠ (c.fn o.fn).aq.epoch then c
    else c.adminLate o.fn { cid := o.cid, opcode := bits (dw o.cmd 0) 7 0, status := outcome, detail := detail,
                            opid := i, mfn := c.mfn, outs := outs }

/-- R438: a safe point: with SUSPREQ set the operation enters SUSPENDED and the waiting commands complete. (DEDUCED,
log 127) -/
def Chip.safePoint (c : Chip) (i : Nat) : Chip :=
  match c.op i with
  | none => c
  | some o =>
    if o.st = .running ∧ o.suspReq then
      (c.endSuspends i Ad.success).opState i .suspended
    else c

/-- The next OPID: in turn after the last assigned, skipping those in use (R436). -/
def Chip.nextOpid (c : Chip) : Nat :=
  let l := c.ops.lastId
  let cand := fun k => (l + k) % 0xFFFE + 1
  match (List.range 257).find? fun k => (c.op (cand k)).isNone with
  | some k => cand k
  | none => 0

/-- R436: make room for a record of function `f`: below 16 its own, or in place of its oldest DONE record. (DEDUCED,
log 240) -/
def Chip.opRoom (c : Chip) (f : Nat) : Option Chip :=
  if (c.ops.recs.filter fun o => o.fn == f).length < 16 && decide (c.ops.recs.length < 256) then some c
  else match c.ops.recs.find? fun o => o.fn == f && o.st == .done with
    | some o => some (c.updOps fun x => { x with recs := x.recs.filter fun r => r.opid != o.opid })
    | none => none

/-- Put a new operation's record in place; it is RUNNING (R436). The result: its OPID and the chip. -/
def Chip.addOp (c : Chip) (f : Nat) (kind : OpKind) (cid : Nat) (cmd : List Word) (total : Nat) : Nat × Chip :=
  let i := c.nextOpid
  let o : Op := { opid := i, fn := f, kind := kind, cid := cid, cmd := cmd, total := total, mfn := c.mfn,
                  epoch := (c.fn f).aq.cmdEpoch }
  (i, c.updOps fun x => { x with recs := x.recs ++ [o], lastId := i })

/-- As addOp, with the arrival of its state change (R436). -/
def Chip.newOp (c : Chip) (f : Nat) (kind : OpKind) (cid : Nat) (cmd : List Word) (total : Nat) : Nat × Chip :=
  let (i, c) := c.addOp f kind cid cmd total
  (i, if kind = .scrub then c else c.raise f 22)

/-- R428: the command now carried out by `f` has started a long operation, or waits as a LONG_SUSPEND: it finishes, and
one admin completion slot stays reserved for it, unless its completion is discarded (R123). -/
def Chip.adminLater (c : Chip) (f : Nat) : Chip :=
  let c := if (c.fn f).aq.stale then
      c.updOps fun x => { x with recs := x.recs.map fun o => { o with suspWait := o.suspWait.filter fun w => w.1 != f } }
    else c
  c.updAq f fun q => { q with running := none, begun := false, slots := if q.stale then q.slots else q.slots + 1,
                              ready := q.ready && q.enable }

end Sys2Proof.Machine
end

