-- ==== Sys2Proof/Machine/Pool.lean ====
section
/-!
DEFINITION. The buffer pool (R274 to R291): reserves, limits, grants and releases of cells; and the descriptor or
transfer that a channel serves now (R133, R139).
-/
namespace Sys2Proof.Machine

/-! ### The transfer a channel serves (R133, R139, R341) -/

/-- What a channel serves: a transfer of ENUM, a service or a download, or a WQ's descriptor. -/
inductive Chan where
  | svc (s : SvcXfer)
  | raw (f n : Nat) (x : Xfer)
  deriving DecidableEq, Repr

def Chan.x : Chan → Xfer
  | .svc s => s.x
  | .raw _ _ x => x

/-- R139: a started RAW transfer goes on; otherwise ENUM's, a service's or a download's transfer goes first. -/
def Chip.chan (c : Chip) (h : Nat) : Option Chan :=
  match c.ep h with
  | none => none
  | some e =>
    let raw := e.wq.bind fun w => ((c.wq w.1 w.2).bind Wq.current).map fun x => Chan.raw w.1 w.2 x
    match e.svc with
    | [] => raw
    | s :: _ =>
      if s.x.started then some (.svc s)
      else match raw with
        | some r => if r.x.started then some r else some (.svc s)
        | none => some (.svc s)

/-- Change the transfer a channel serves. -/
def Chip.updChan (c : Chip) (h : Nat) (g : Xfer → Xfer) : Chip :=
  match c.chan h with
  | none => c
  | some (.raw f n x) => c.updXfer f n x.count g
  | some (.svc _) => c.updEp h fun e =>
    { e with svc := match e.svc with | s :: r => { s with x := g s.x } :: r | [] => [] }

/-- Append received bytes to a service's transfer, or take them from the data it sends. -/
def Chip.updSvcData (c : Chip) (h : Nat) (g : List Byte → List Byte) : Chip :=
  c.updEp h fun e => { e with svc := match e.svc with | s :: r => { s with data := g s.data } :: r | [] => [] }

/-- R139: queue a transfer on an endpoint: ENUM's before a service's or a download's that has not started. -/
def Chip.queueSvc (c : Chip) (h : Nat) (s : SvcXfer) : Chip :=
  c.updEp h fun e => match s.who with
    | .enum _ =>
      let k := (e.svc.takeWhile fun t => t.x.started || (match t.who with | .enum _ => true | _ => false)).length
      { e with svc := e.svc.take k ++ [s] ++ e.svc.drop k }
    | _ => { e with svc := e.svc ++ [s] }

/-- A transfer as a descriptor (R128, R136): type, LENGTH and the set-up dwords. -/
def mkDesc (type len : Nat) (s0 s1 : Word) (tmo : Nat := 0) : Desc :=
  [mkWord [(type, 0)], mkWord [(len, 0)], 0#32, 0#32, s0, s1, 0#32, mkWord [(tmo, 0)]]

/-- The mark of a STREAM_JOB's transfers among those of its instance (R364). -/
def Strm.jobTag : Nat := 2

/-- The set-up dwords of a control request. -/
def setup0 (rt rq val : Nat) : Word := mkWord [(rt, 0), (rq, 8), (val, 16)]
def setup1 (idx len : Nat) : Word := mkWord [(idx, 0), (len, 16)]

/-! ### Counts (R279, R280, R301, R303) -/

/-- Transactions per microframe, t of R279. -/
def Ep.t (e : Ep) : Nat := if e.periodic then e.mult else 1
/-- R279: the reserve. -/
def Ep.reserve (e : Ep) : Nat := 2 * e.t
/-- R280: the limit. -/
def Ep.limit (e : Ep) : Nat := 2 * e.t + e.qc
/-- (DEDUCED, log 126) -/
def Ep.heldCells (e : Ep) : Nat := e.cells.length
/-- Empty cells lent for IN. -/
def Ep.empties (e : Ep) : Nat := (e.cells.filter fun k => !k.full && k.size == 0).length
/-- Cells that hold data. -/
def Ep.dataCells (e : Ep) : Nat := (e.cells.filter fun k => k.full).length

/-- R282: an endpoint's settings by type. -/
def Ep.withDefaults (e : Ep) : Ep :=
  match e.type with
  | .control => { e with qc := 2, hmOut := 4, lmOut := 2, hmIn := 1, lmIn := 0, weight := 2 }
  | .bulk => { e with qc := 30, hmOut := 32, lmOut := 16, hmIn := 1, lmIn := 0, weight := 4 }
  | .intr => { e with qc := 2, hmOut := 4, lmOut := 2, hmIn := 1, lmIn := 0 }
  | .iso => { e with qc := 6 * e.t, hmOut := 8 * e.t, lmOut := 4 * e.t, hmIn := 1, lmIn := 0 }

def Grn.total (g : Grn) : Nat := g.poolMb * 1024 - g.retired
/-- R301: cells set aside as reserves. -/
def Chip.resvCells (c : Chip) : Nat := (c.eps.map fun e => e.2.reserve).sum
/-- R301: cells neither held nor reserved. -/
def Chip.freeCells (c : Chip) : Nat := c.grn.total - (c.eps.map fun e => max e.2.heldCells e.2.reserve).sum
/-- R303: the cells that a function's channels hold above their reserves. -/
def Chip.fnUse (c : Chip) (f : Nat) : Nat :=
  ((c.eps.filter fun e => c.epOwner e.1 == some f).map fun e => e.2.heldCells - e.2.reserve).sum

/-- R280: a cell may be granted to a channel. -/
def Chip.grantable (c : Chip) (h : Nat) : Bool :=
  match c.ep h with
  | none => false
  | some e =>
    decide (e.heldCells < e.reserve) ||
    (decide (e.heldCells < e.limit) && decide (0 < c.freeCells) &&
      (match c.epOwner h with | some f => decide (c.fnUse f < (c.fn f).cells) | none => false))

/-! ### Grants, waiting and releases (R280, R281, R284, R285, R290) -/

/-- R290, R302: the channel waits for pool cells, or waits no more; how long a wait took is a free value in µs.
(DESIGN CHOICE, log 246) -/
def Chip.setWaiting (c : Chip) (h : Nat) (b : Bool) : Chip :=
  let c := if b = false ∧ (c.ep h).any Ep.waiting then
      let v := c.fresh
      v.2.updEp h fun e => { e with maxWait := max e.maxWait (Config.freeNat v.1 % 65536) }
    else c
  let c := c.updEp h fun e => { e with waiting := b }
  c.updGrn fun g => { g with waiters := if b then (if g.waiters.contains h then g.waiters else g.waiters ++ [h])
                                         else g.waiters.filter fun k => k != h }

/-- R284, R290: the channel asks for an empty IN cell while it has a descriptor in progress: up to 2t empty cells. It
waits when it holds none and none can be granted, but not while it drains at its reserve. -/
def Chip.supply : Nat → Chip → Nat → Chip
  | 0, c, _ => c
  | k + 1, c, h =>
    match c.ep h, c.chan h with
    | some e, some ch =>
      let ty := ch.x.d.ty
      let wants := ch.x.d.dataIn && (match ch with | .raw _ _ x => !x.express | .svc _ => true) &&
        !(ty == some .control && ch.x.stage == 3) &&
        (match e.inst.bind c.inst with | some i => !i.stopped | none => true)
      if !wants then c.setWaiting h false
      else if e.empties < 2 * e.t ∧ e.heldCells < e.limit ∧ c.grantable h then
        Chip.supply k (c.updEp h fun e => { e with cells := e.cells ++ [{}] }) h
      else c.setWaiting h (e.empties == 0 && !(decide (e.heldCells ≤ e.reserve) && e.cells.any fun k => k.full && k.draining))
    | _, _ => c.setWaiting h false

def Chip.supplyEp (c : Chip) (h : Nat) : Chip := Chip.supply 16 c h

/-- R285, R297: release the cells of a channel of which `p` holds; a cell with a poisoned word is retired. -/
def Chip.release (c : Chip) (h : Nat) (p : Cell → Bool) : Chip :=
  match c.ep h with
  | none => c
  | some e =>
    let r := (e.cells.filter fun k => p k && (k.poison || k.retire)).length
    let c := c.updEp h fun e => { e with cells := e.cells.filter fun k => !p k }
    c.updGrn fun g => { g with retired := satAdd 0xFFFF g.retired r }

/-- R285: when the channel's descriptors have all ended, its empty cells return to the pool. -/
def Chip.releaseIdle (c : Chip) (h : Nat) : Chip :=
  if (c.chan h).isNone then (c.release h fun k => !k.full).setWaiting h false else c

/-- R281: who is served first among the waiters: periodic channels, then the oldest request. -/
def Chip.nextWaiter (c : Chip) : Option Nat :=
  let g := c.grn.waiters.filter c.grantable
  match g.find? fun h => (c.ep h).any Ep.periodic with
  | some h => some h
  | none => g.head?

/-! ### Ending a channel's transfer -/

/-- R306: the outcome of a transfer is decided: the waiting continuation of flow `fl` that `p` names is decremented,
or its happening, if it still waits for a record. -/
def Chip.contReady (c : Chip) (fl : Nat) (p : Job → Bool) : Chip :=
  match (c.flowTasks fl).find? fun t => t.st == .waiting && decide (0 < t.deps) && p t.job with
  | some t => c.decTask t.id
  | none => match c.dsp.waiting.find? fun h => h.flow == some fl && decide (0 < h.deps) && p h.job with
    | some h => c.updDsp fun d => { d with waiting := d.waiting.map fun k => if k = h then { k with deps := k.deps - 1 } else k }
    | none => c

/-- The continuations of ENUM's work on port `p`, and of an instance's work. -/
def Job.enumCont (p : Nat) : Job → Bool
  | .enum q 3 _ => p == q
  | _ => false
def Job.instCont (h tag : Nat) : Job → Bool
  | .cont i t => i == h && t == tag
  | _ => false

/-- A transfer of a service, of ENUM or of a download that polls an IN endpoint for as long as it is bound. -/
def SvcXfer.isPoll (s : SvcXfer) : Bool := s.x.d.ty == some .bulkIn || s.x.d.ty == some .intrIn

/-- R310, R335: free an instance: its flows close, its interfaces become RAW, its WQ stays without a binding. -/
def Chip.freeInst (c : Chip) (h : Nat) : Chip :=
  match c.inst h with
  | none => c
  | some i =>
    let c := c.each i.flows fun c fl => c.closeFlow fl
    let c := match i.wq with
      | some (f, n) => c.updWq f n fun q => { q with bind := .none }
      | none => c
    let c := c.updDev i.dev fun d => { d with bound := d.bound.filter fun b => b.2 != h }
    let es := (c.eps.filter fun e => e.2.inst == some h).map Prod.fst
    let c := c.each es fun c e => c.updEp e fun x => { x with inst := none, svc := [] }
    { c with insts := Tab.erase c.insts h }

/-- The mark of a poll that has ended, and of the CLEAR_FEATURE that follows, by endpoint (R341). -/
def pollTag (ep : Nat) : Nat := 63 + 64 * ep
def clearTag (ep : Nat) : Nat := 62 + 64 * ep

/-- R335: one of the transfers of an unbind has ended; after the last the instance is freed and the command completes. -/
def Chip.closingStep (c : Chip) (h : Nat) : Chip :=
  match c.inst h with
  | none => c
  | some i =>
    if 1 < i.step then c.updInst h fun i => { i with step := i.step - 1 }
    else match i.forFn with
      | some f => (c.freeInst h).adminDone f Ad.success
      | none => c.freeInst h

/-- The outcome of a transfer that is no WQ's: it leaves its endpoint, and whoever issued it learns of it by a task
(R304, R306). A download's outcome is kept in its record (R434). (DESIGN CHOICE, log 20) -/
def Chip.svcOutcome (c : Chip) (h : Nat) (s : SvcXfer) (status : Nat) : Chip :=
  match s.who with
  | .enum p =>
    if s.isPoll then (c.updRun p fun r => { r with todo := r.todo ++ [.clearHalt h] }).happen p 0 (.enum p 6 0)
    else
      let c := c.updRun p fun r => { r with got := s.data, status := status }
      c.contReady p (Job.enumCont p)
  | .inst k tag =>
    match c.inst k with
    | none => c
    | some i =>
      if i.st = .closing then c.closingStep k
      else if s.isPoll then
        match i.flows.head? with
        | some fl => c.happen fl 0 (.cont k (pollTag h))
        | none => c
      else
        let c := c.updInst k fun i => { i with outcomes := i.outcomes ++ [(tag, status, if s.x.d.dataOut then s.data.take s.x.done else s.data)] }
        c.each i.flows fun c fl => c.contReady fl (Job.instCont k tag)
  | .op i => c.updOp i fun o =>
    let ok := status == St.success
    { o with busy := false, lastStatus := status, delay := ok, progress := if ok then o.progress + 1 else o.progress }

/-- R341: a service's control transfer that ended with TIMEOUT or XACT_ERROR is repeated once, from its start. -/
def SvcXfer.repeats (s : SvcXfer) (status : Nat) : Bool :=
  (match s.who with | .inst _ _ => true | _ => false) && s.x.d.ty == some .control && !s.again &&
  (status == St.timeout || status == St.xactError)
def SvcXfer.afresh (s : SvcXfer) : SvcXfer :=
  { s with
    again := true
    data := if s.x.d.dataOut then s.data else []
    x := { s.x with done := 0, stage := 0, started := false, errs := 0, naks := 0, cause := none, tmo := some 4000 } }

/-- The channel's transfer ends: no complete-split is owed for it any more. (DEDUCED, log 244) -/
def Chip.dropOwed (c : Chip) (h : Nat) : Chip :=
  match c.epPort h with
  | some p => c.updSc p fun s => { s with owedCs := s.owedCs.filter fun k => k != h }
  | none => c

/-- The head transfer of an endpoint ends with a status; the endpoint halts where R146 says so. -/
def Chip.svcEnd (c : Chip) (h status : Nat) : Chip :=
  match (c.ep h).bind fun e => e.svc.head? with
  | none => c
  | some s =>
    let c := (c.dropOwed h).updEp h fun e => { e with svc := e.svc.drop 1 }
    let c := c.release h fun k => k.full && s.x.d.dataOut
    let c := c.haltFor (.ep h) status
    if s.repeats status then (c.queueSvc h s.afresh).releaseIdle h
    else (c.svcOutcome h s status).releaseIdle h

/-- End the transfer a channel serves with what its transaction gave, or with the outside cause that has waited for
the transaction (R161, R162). (DEDUCED, log 243) -/
def Chip.endChan (c : Chip) (h status : Nat) : Chip :=
  match c.chan h with
  | none => c
  | some (.raw f n x) =>
    let c := (c.dropOwed h).release h fun k => x.d.dataOut && k.owner == x.count
    (c.finish f n x.count (x.cause.getD status)).releaseIdle h
  | some (.svc s) => c.svcEnd h (s.x.cause.getD status)

end Sys2Proof.Machine
end

