-- ==== Sys2Proof/Machine/Wire.lean ====
section
/-!
DEFINITION. Packets on a root port's bus: PIDs, CRCs, exact lengths with bit stuffing (R175, R277), and the bus-time
charges of R175 and R177.
-/
namespace Sys2Proof.Machine

/-! ### PIDs (USB 2.0, which R142, R207 and R210 use by name), low nibble with its check field -/

def Pid.out : Nat := 0xE1
def Pid.in_ : Nat := 0x69
def Pid.sof : Nat := 0xA5
def Pid.setup : Nat := 0x2D
def Pid.data0 : Nat := 0xC3
def Pid.data1 : Nat := 0x4B
def Pid.data2 : Nat := 0x87
def Pid.mdata : Nat := 0x0F
def Pid.ack : Nat := 0xD2
def Pid.nak : Nat := 0x5A
def Pid.stall : Nat := 0x1E
def Pid.nyet : Nat := 0x96
def Pid.err : Nat := 0x3C
def Pid.split : Nat := 0x78
def Pid.ping : Nat := 0xB4
def Pid.ext : Nat := 0xF0

/-- R8: PIDs of DATA0 and DATA1 by toggle (R208). -/
def Pid.data (t : Bool) : Nat := if t then Pid.data1 else Pid.data0

/-! ### CRCs and bit stuffing -/

/-- The bits of a number, lowest first. -/
def bitsOf (n v : Nat) : List Bool := (List.range n).map fun i => v.testBit i

/-- USB CRC5 over a bit list, as it is sent. -/
def crc5 (bs : List Bool) : Nat :=
  (bs.foldl (fun c b => if (c % 2 == 1) != b then (c / 2) ^^^ 0x14 else c / 2) 0x1F) ^^^ 0x1F

/-- USB CRC16 over a bit list, as it is sent. -/
def crc16 (bs : List Bool) : Nat :=
  (bs.foldl (fun c b => if (c % 2 == 1) != b then (c / 2) ^^^ 0xA001 else c / 2) 0xFFFF) ^^^ 0xFFFF

/-- The bits stuffed into a stream: a 0 after every six 1s. -/
def stuffed (bs : List Bool) : Nat :=
  (bs.foldl (fun (s : Nat × Nat) b => if !b then (0, s.2) else if s.1 = 5 then (0, s.2 + 1) else (s.1 + 1, s.2)) (0, 0)).2

/-- T: the exact length of a token (R175): 64 to 68 bit times at HS, 35 to 39 at FS and LS. -/
def tokenLen (hs : Bool) (pid addr ep : Nat) : Nat :=
  let f := bitsOf 11 (addr % 128 + ep % 16 * 128)
  (if hs then 40 else 11) + 24 + stuffed (bitsOf 8 pid ++ f ++ bitsOf 5 (crc5 f))

/-- B(D) of R175. -/
def bLen (d : Nat) : Nat := 8 * d + 24
/-- W(D): the worst-case length of a data packet (R175). -/
def wLen (hs : Bool) (d : Nat) : Nat := (if hs then 40 else 11) + bLen d + bLen d / 6
/-- E(D): the exact length of a data packet sent with a PID (R175, R277). -/
def eLen (hs : Bool) (pid : Nat) (data : List Byte) : Nat :=
  let p := data.flatMap fun b => bitsOf 8 b.toNat
  (if hs then 40 else 11) + bLen data.length + stuffed (bitsOf 8 pid ++ p ++ bitsOf 16 (crc16 p))

/-! ### Charges (R175, R177) -/

/-- R_HS or R_FL of R175, `h` hubs above the device. -/
def respLen (hs : Bool) (h : Nat) : Nat := if hs then 192 + 72 * h else 16
/-- The gap before a packet the Vetia sends, after one it sent; and after one the device sent (R175). -/
def gapOwn (hs : Bool) : Nat := if hs then 90 else 4
def gapDev (hs : Bool) : Nat := if hs then 10 else 4
def hsLen (hs : Bool) : Nat := if hs then 48 else 19

/-- The kinds of charge in R175. -/
inductive Charge where
  | inAck | outAck | ping | isoIn | isoOut
  deriving DecidableEq, Repr

/-- R175: what a transaction is charged: T, the OUT packet's length `e`, M, and the hubs above the device. -/
def charge (k : Charge) (hs : Bool) (h t e m : Nat) : Nat :=
  match k with
  | .inAck => t + respLen hs h + wLen hs m + gapDev hs + hsLen hs + gapOwn hs
  | .outAck => t + gapOwn hs + e + respLen hs h + hsLen hs + gapDev hs
  | .ping => t + respLen hs h + hsLen hs + gapDev hs
  | .isoIn => t + respLen hs h + wLen hs m + gapDev hs
  | .isoOut => t + gapOwn hs + e + gapOwn hs

/-- The gap with which a charge ends, which R169 leaves out. -/
def Charge.tail (k : Charge) (hs : Bool) : Nat :=
  match k with
  | .inAck | .isoOut => gapOwn hs
  | _ => gapDev hs

/-- R175: the longest token. -/
def tMax (hs : Bool) : Nat := if hs then 68 else 39

/-- R177: the HS charge of a start-split; `e` is the data packet an OUT carries. -/
def chargeSs (isOut iso : Bool) (h t e : Nat) : Nat :=
  72 + 90 + t + (if isOut then 90 + e else 0) + (if iso then 90 else respLen true h + 48 + 10)
/-- R177: the HS charge of a complete-split. -/
def chargeCs (isIn : Bool) (h t m : Nat) : Nat :=
  72 + 90 + t + respLen true h + (if isIn then wLen true m + 10 else 48 + 10)

/-- R168: the protection point of the bus a port runs. -/
def protection : Speed → Nat
  | .high => 59440
  | .full => 11936
  | .low => 1484

/-- R168: the first token's earliest bit. -/
def firstToken : Speed → Nat
  | .high => 184
  | .full => 37
  | .low => 5

/-! ### PRE (R212) -/

/-- An LS device behind an FS hub on an FS root port is reached by PRE (R212). -/
def Chip.usesPre (c : Chip) (d : Nat) : Bool :=
  match c.dev d with
  | some x => x.speed == .low && x.parent.isSome && (c.tt d).isNone
  | none => false

end Sys2Proof.Machine
end

