-- ==== Sys2Proof/Machine/Admit.lean ====
section
/-!
DEFINITION. Periodic reservation and admission (R180 to R183).
-/
namespace Sys2Proof.Machine

/-- The largest power of two not above `n`, for n up to 255. -/
def pow2Below (n : Nat) : Nat := if n < 2 then 1 else 2 ^ Nat.log2 n

/-- R180: the service interval in microframes; none where the endpoint is refused. A bInterval outside the standard's
range is taken as the nearest legal value. -/
def svcInterval (sp : Speed) (ty : EpType) (b : Nat) : Option Nat :=
  match ty, sp with
  | .intr, .high => some (min (2 ^ (min (max b 1) 16 - 1)) 256)
  | .intr, .full => some (8 * pow2Below (min (max b 1) 32))
  | .intr, .low => some (8 * pow2Below (min (max b 10) 32))
  | .iso, .high => if 13 < b then none else some (2 ^ (max b 1 - 1))
  | .iso, .full => if 10 < b then none else some (8 * 2 ^ (max b 1 - 1))
  | _, _ => none

/-- An endpoint to be admitted: its handle's fields that matter, and what R181 books. -/
structure Want where
  interval : Nat
  hs : Bool
  tt : Option (Nat × Nat)
  iso : Bool
  isIn : Bool
  mps : Nat
  mult : Nat
  hubs : Nat
  /-- LS device -/
  ls : Bool
  /-- behind an FS hub by PRE -/
  pre : Bool
  deriving DecidableEq, Repr

/-- R175: the admission charge of one transaction on the bus of the device's speed. -/
def Want.charge1 (w : Want) : Nat :=
  let hs := w.hs
  let k := if w.iso then (if w.isIn then Charge.isoIn else .isoOut) else if w.isIn then .inAck else .outAck
  let ch := charge k hs w.hubs (tMax hs) (wLen hs w.mps) w.mps
  if w.pre then 8 * ch + 20 * (if w.isIn then (if w.iso then 1 else 2) else 2) else ch

/-- The load table of a port: positions, charges and items booked (R181). -/
def Chip.loadAt (c : Chip) (p x : Nat) (skip : List Nat) : Nat × Nat :=
  c.eps.foldl (fun a e =>
    if c.epPort e.1 == some p && !skip.contains e.1 then
      match e.2.resv with
      | some r => r.books.foldl (fun a b => if x % r.span = b.1 then (a.1 + b.2.1, a.2 + b.2.2) else a) a
      | none => a
    else a) (0, 0)

/-- TT byte times booked at a frame position and microframe Y (R178). -/
def Chip.ttAt (c : Chip) (tt : Nat × Nat) (fr y : Nat) (skip : List Nat) : Nat :=
  c.eps.foldl (fun a e =>
    if skip.contains e.1 then a
    else match e.2.resv with
      | some r =>
        if r.tt = some tt ∧ fr % r.ttSpan = r.ttPos then
          r.ttBytes.foldl (fun a b => if b.1 = y then a + b.2 else a) a
        else a
      | none => a) 0

/-- The number of positions of a port's table, and its limit of charge (R181). -/
def tableSize (sp : Speed) : Nat := if sp = .high then 256 else 32
def Chip.perLimit (c : Chip) (sp : Speed) : Nat :=
  match sp with
  | .high => c.sch.perMax
  | .full => 10800
  | .low => 1350

/-- R178: the microframes of a split transaction's start- and complete-splits relative to Y0, with their charges. -/
def Want.splits (w : Want) (y n : Nat) : List (Nat × Nat) :=
  let d := min w.mps 188
  let ss := chargeSs (!w.isIn) w.iso w.hubs 68 (wLen true d)
  if w.iso && !w.isIn then (List.range n).map fun i => (y + i + 7, ss)
  else
    let lastY := y + n - 1
    let lastCs := max (lastY + 2) (y + 3)
    (y + 7, ss) :: ((List.range (lastCs - y)).map fun i => (y + 1 + i + 8, chargeCs w.isIn w.hubs 68 w.mps))

/-- R178: the budget of a split transaction from Y_first: 188 byte times a microframe, the remainder in the last. -/
def Want.budget (w : Want) (y : Nat) : List (Nat × Nat) :=
  let k := if w.iso then (if w.isIn then Charge.isoIn else .isoOut) else if w.isIn then .inAck else .outAck
  let fs := charge k false w.hubs (tMax false) (wLen false w.mps) w.mps
  let tot := ((if w.ls then 8 * fs else fs) + 7) / 8
  let n := max 1 ((tot + 187) / 188)
  (List.range n).map fun i => (y + i, if i + 1 < n then 188 else tot - 188 * (n - 1))

/-- The reservation that a phase gives (R181, R182). -/
def Want.resv (w : Want) (rootHs : Bool) (phi : Nat) : Resv :=
  let span := min w.interval 256
  match w.tt with
  | some tt =>
    let y := phi % 8
    let fr := phi / 8
    let b := w.budget y
    { interval := w.interval, phase := phi, span := span, tt := some tt, ttSpan := span / 8, ttPos := fr, ttBytes := b,
      books := (w.splits y b.length).map fun s => ((8 * fr + s.1 + span - 8) % span, s.2, 1) }
  | none =>
    if rootHs then
      { interval := w.interval, phase := phi, span := span, books := [(phi % span, w.charge1 * w.mult, w.mult)] }
    else
      { interval := w.interval, phase := phi, span := max 1 (span / 8), books := [(phi / 8 % max 1 (span / 8), w.charge1, 1)] }

/-- The table positions that a reservation books. -/
def Resv.positions (r : Resv) (size : Nat) : List Nat :=
  (List.range size).filter fun x => r.books.any fun b => x % r.span == b.1

/-- R181: the load of position `x` after booking `r`. -/
def Chip.loadWith (c : Chip) (p : Nat) (r : Resv) (skip : List Nat) (x : Nat) : Nat × Nat :=
  let a := c.loadAt p x skip
  r.books.foldl (fun a b => if x % r.span = b.1 then (a.1 + b.2.1, a.2 + b.2.2) else a) a

/-- R182: fits(): every limit of R181, the TT budget with it. -/
def Chip.fits (c : Chip) (p : Nat) (sp : Speed) (r : Resv) (skip : List Nat) : Bool :=
  ((r.positions (tableSize sp)).all fun x =>
    let l := c.loadWith p r skip x
    decide (l.1 ≤ c.perLimit sp) && decide (l.2 ≤ 128)) &&
  (match r.tt with
   | none => true
   | some tt => r.ttBytes.all fun b => decide (b.1 ≤ 5) &&
      ((List.range 32).filter fun fr => fr % r.ttSpan == r.ttPos).all fun fr =>
        decide (c.ttAt tt fr b.1 skip + b.2 ≤ 188))

/-- R182: the phases the loop takes. -/
def Want.phases (w : Want) (rootHs : Bool) : List Nat :=
  let span := min w.interval 256
  if rootHs then List.range span else (List.range (span / 8)).map fun k => 8 * k

/-- R182: the reservation with the lowest peak, the lowest phase among equals; none when refused. (DEDUCED, log 51) -/
def Chip.admission (c : Chip) (p : Nat) (sp : Speed) (w : Want) (skip : List Nat) : Option Resv :=
  let rs := ((w.phases (sp == .high)).map fun phi => w.resv (sp == .high) phi).filter fun r => c.fits p sp r skip
  let peak := fun r : Resv => ((r.positions (tableSize sp)).map fun x => (c.loadWith p r skip x).1).foldl max 0
  (firstBy (fun (a b : Resv × Nat) => a.2 < b.2) (rs.map fun r => (r, peak r))).map Prod.fst

/-- What an endpoint context asks of admission; none for an asynchronous one, and `refused` where R180 refuses it. -/
inductive Ask where
  | free | refused | want (w : Want)
  deriving DecidableEq, Repr

def Chip.ask (c : Chip) (e : Ep) : Ask :=
  match c.dev e.dev with
  | none => .refused
  | some d =>
    if !e.periodic then .free
    else match svcInterval d.speed e.type e.bInterval with
      | none => .refused
      | some i =>
        .want { interval := i, hs := d.speed == .high, tt := c.tt e.dev, iso := e.type == .iso, isIn := e.isIn,
                mps := e.mps, mult := if d.speed = .high then e.mult else 1, hubs := d.depth, ls := d.speed == .low,
                pre := c.usesPre e.dev }

/-- R183: admission of a list of endpoint contexts on port `p`, the contexts `skip` judged as released: the contexts with their
reservations, or none when one is refused. They are booked one after another, under the handles given. -/
def Chip.admitAll (p : Nat) (sp : Speed) (skip : List Nat) : Chip → List (Nat × Ep) → Option (List (Nat × Ep))
  | _, [] => some []
  | c, (h, e) :: r =>
    match c.ask e with
    | .refused => none
    | .free => ((Chip.admitAll p sp skip { c with eps := Tab.put c.eps h e } r).map fun l => (h, e) :: l)
    | .want w =>
      match c.admission p sp w skip with
      | none => none
      | some v =>
        let e := { e with resv := some v }
        (Chip.admitAll p sp skip { c with eps := Tab.put c.eps h e } r).map fun l => (h, e) :: l

/-- R198: the highest charge and the most items booked at any position of a port. -/
def Chip.maxLoad (c : Chip) (p : Nat) (sp : Speed) : Nat × Nat :=
  (List.range (tableSize sp)).foldl (fun a x => let l := c.loadAt p x []; (max a.1 l.1, max a.2 l.2)) (0, 0)

end Sys2Proof.Machine
end

