-- ==== Sys2Proof/Machine/Schedule.lean ====
section
/-!
DEFINITION. Bowline's plans (R167 to R191): what a channel has to serve, the building of a plan, the catch-up rule, and
the packets of isochronous descriptors.
-/
namespace Sys2Proof.Machine

/-! ### Ending a descriptor (R161, R163) -/

/-- The order of R163 among outside causes. -/
def causeRank (s : Nat) : Nat :=
  if s = St.detached then 0 else if s = St.portReset then 1 else if s = St.suspended then 2
  else if s = St.powerCancelled then 3 else if s = St.reshaped then 4 else if s = St.cancelled then 5
  else if s = St.timeout then 6 else 7

/-- The transaction of channel `h` is on the wire of its port. -/
def Chip.onWire (c : Chip) (h : Nat) : Bool :=
  match c.epPort h with
  | some p => match (c.port p).sc.txn with
    | some t => t.ep == h
    | none => false
  | none => false

/-- R153: write back dword 0x04 of a packet's list entry. -/
def Chip.writePkt (c : Chip) (f : Nat) (d : Desc) (k : Nat) (p : IsoPkt) : Chip :=
  c.hostWrite f (d.table + BitVec.ofNat 64 (8 * k + 4))
    (wordBytes (mkWord [(p.len, 0), (p.pstat.getD 0, 16), (min p.delay 255, 24)])) (d.noSnoop && (c.fn f).nosnoop)

/-- R152, R153: before an isochronous descriptor completes, every packet not reached takes the ending cause, and the
list is written back. -/
def Chip.isoClose (c : Chip) (f n : Nat) (x : Xfer) (status : Nat) : Chip :=
  let full := (x.pkts ++ List.replicate (x.d.npkt - x.pkts.length) ({ offset := 0#32, req := 0 } : IsoPkt)).take x.d.npkt
  let ps := full.map fun p => if p.pstat.isSome then p else { p with pstat := some status, len := 0 }
  let c := c.updXfer f n x.count fun y => { y with pkts := ps }
  c.each ps.zipIdx fun c e => c.writePkt f x.d e.2 e.1

/-- R154: the status of an isochronous descriptor that no cause ended. -/
def Xfer.isoStatus (x : Xfer) : Nat :=
  match x.pkts.find? IsoPkt.bad with
  | some p => p.pstat.getD St.success
  | none => St.success

/-- Finish a WQ's descriptor, isochronous ones with their list, and release what cells it has no more use of (R285). -/
def Chip.finishRaw (c : Chip) (f n : Nat) (x : Xfer) (status : Nat) (g : Cpl → Cpl := id) : Chip :=
  match c.wq f n with
  | none => c
  | some q =>
    let iso := match x.d.ty with | some t => t.isIso | none => false
    let c := if iso then c.isoClose f n x status else c
    match q.bind with
    | .ep h =>
      let c := if (q.current.map Xfer.count) == some x.count then c.dropOwed h else c
      let c := if x.d.dataOut then c.release h fun k => k.owner == x.count
        else c.updEp h fun e => { e with cells := e.cells.map fun k => if k.full ∧ k.owner = x.count then { k with draining := true } else k }
      (c.finishWith f n x.count status g).releaseIdle h
    | _ => c.finishWith f n x.count status g

/-- R161: an outside cause ends descriptor `x`: at once, or when the transaction on the wire has finished. -/
def Chip.causeEnd (c : Chip) (f n : Nat) (x : Xfer) (status : Nat) : Chip :=
  match c.wq f n with
  | none => c
  | some q =>
    let wire := match q.bind with | .ep h => x.started && c.onWire h | _ => false
    if wire then c.updXfer f n x.count fun y =>
      { y with cause := some (match y.cause with
          | some s => if causeRank s ≤ causeRank status then s else status
          | none => status) }
    else c.finishRaw f n x status

/-- R161: every descriptor of WQ (f, n) ends by an outside cause; with `started` only those in progress. -/
def Chip.endWq (c : Chip) (f n status : Nat) (started : Bool := false) : Chip :=
  match c.wq f n with
  | none => c
  | some q => c.each (q.work.filter fun x => x.result.isNone && (x.started || !started)) fun c x => c.causeEnd f n x status

/-! ### What a channel can do now (R118, R146, R184, R288, R289) -/

/-- R75, R118: the channel's WQ makes no token: its CQ is held, or the function's DMA is held and no cell is left. -/
def Chip.chanHeld (c : Chip) (h : Nat) : Bool :=
  match c.chan h with
  | some (.raw f n x) =>
    (match c.wq f n with
     | some q => match c.cq f q.cq with
       | some k => k.held
       | none => true
     | none => true) || (c.dmaHeld f && x.d.ty == some .intrIn && x.express)
  | _ => false

/-- The first OUT cell that holds the bytes to be sent next. (DEDUCED, log 115) -/
def Chip.outCell (c : Chip) (h : Nat) (x : Xfer) : Option Cell :=
  (c.ep h).bind fun e => e.cells.find? fun k => k.full && k.owner == x.count && k.off == x.done

/-- The bytes of the next OUT packet of a bulk, interrupt or control transfer, if they are there; none while they are not.
A zero-length packet needs no cell (R145, R277). -/
def Chip.outData (c : Chip) (h : Nat) (mps : Nat) : Option (List Byte) :=
  match c.chan h with
  | none => none
  | some (.svc s) => some ((s.data.drop s.x.done).take mps)
  | some (.raw _ _ x) =>
    if x.done = x.d.length then some []
    else match x.inline with
      | some b => some ((b.drop x.done).take mps)
      | none => match c.outCell h x with
        | some k => if k.poison then none else some k.data
        | none => none

/-- What the next transaction of a non-isochronous transfer is (R136, R140, R209). -/
inductive Next where
  | setup | dataIn | dataOut | statusIn | statusOut
  deriving DecidableEq, Repr

def Xfer.next (x : Xfer) : Next :=
  match x.d.ty with
  | some .control =>
    if x.stage = 0 then .setup
    else if x.stage = 3 then (if x.d.length != 0 && x.d.setupIn then .statusOut else .statusIn)
    else if x.d.setupIn then .dataIn else .dataOut
  | some .bulkIn | some .intrIn => .dataIn
  | _ => .dataOut

/-- R184: an asynchronous channel is ready: it has a transfer in progress that the pool can serve, and is not halted.
A data-stage IN of a transfer that is no WQ's needs no cell of the model's (log 20). -/
def Chip.ready (c : Chip) (h : Nat) : Bool :=
  match c.ep h, c.chan h with
  | some e, some ch =>
    !e.halted && !e.gone && ch.x.cause.isNone &&
    (match ch.x.next with
     | .dataIn => (match ch with
       | .svc s => (s.x.d.ty == some .control) || decide (0 < e.empties)
       | .raw _ _ _ => decide (0 < e.empties))
     | .dataOut => (c.outData h e.mps).isSome
     | _ => true)
  | _, _ => false

/-! ### The isochronous packets of a descriptor (R148 to R152) -/

/-- R149: packet `k` breaks the list's rules. -/
def Xfer.pktBad (x : Xfer) (e : Ep) (k : Nat) : Bool :=
  match x.pkts[k]? with
  | none => false
  | some p =>
    let before := ((x.pkts.take (k + 1)).map IsoPkt.req).sum
    decide (e.mps * e.mult < p.req) || decide (x.d.length < before)

/-- R154: when every packet is decided, the descriptor completes. -/
def Chip.isoJudge (c : Chip) (f n : Nat) (count : Word) : Chip :=
  match (c.wq f n).bind fun q => q.work.find? fun x => x.count == count with
  | some x =>
    if x.result.isNone && decide (x.d.npkt ≤ x.pkts.length) && x.pkts.all fun p => p.pstat.isSome then
      c.finishRaw f n x (x.cause.getD x.isoStatus)
    else c
  | none => c

/-- R152: packet `k` ends with a PSTAT, its bytes and its delay. -/
def Chip.pktEnd (c : Chip) (f n : Nat) (count : Word) (k pstat len delay : Nat) : Chip :=
  let c := c.updXfer f n count fun x =>
    let pad := x.pkts ++ List.replicate (k + 1 - x.pkts.length) ({ offset := 0#32, req := 0 } : IsoPkt)
    { x with pkts := pad.modify k fun p => if p.pstat.isSome then p else { p with pstat := some pstat, len := len, delay := delay } }
  c.isoJudge f n count

/-- Count a missed isochronous service of port `p` (R174, R191). -/
def Chip.countMissed (c : Chip) (p : Nat) : Chip := c.updSc p fun s => { s with missed := satAdd 0xFFFF s.missed 1 }

/-! ### Building a plan (R167, R170, R171) -/

/-- The services of an endpoint fall at the microframes of its phase and interval (R181). -/
def Ep.slotAt (e : Ep) (m : Mfn) : Bool :=
  match e.resv with
  | some r => if r.tt.isSome then m.toNat % r.interval == (r.phase / 8 * 8 + r.phase % 8 + r.interval - 1) % r.interval
              else m.toNat % r.interval == r.phase % r.interval
  | none => false

/-- The first isochronous descriptor of a WQ with a packet not yet given to a slot (R133, R151). -/
def Wq.isoNext (q : Wq) : Option Xfer :=
  q.work.find? fun x => x.result.isNone && x.cause.isNone && decide (x.planned < x.d.npkt)

/-- R151, R152: give the slot of endpoint `h` at microframe `m` to the next packet: an item, or a packet that ends as
MISSED_SERVICE. (DEDUCED, log 27) -/
def Chip.planIso (c : Chip) (p h : Nat) (e : Ep) (m : Mfn) : Chip × List PlanItem :=
  match e.wq with
  | none => (c, [])
  | some (f, n) =>
    match (c.wq f n).bind Wq.isoNext with
    | none => (c, [])
    | some x =>
      let i := (e.resv.map Resv.interval).getD 1
      let early := !x.d.asap && x.planned == 0 && decide (8192 ≤ mfnAfter m x.d.start)
      if early then (c, [])
      else
        let passed := if !x.d.asap && x.planned == 0 then min (mfnAfter m x.d.start / i) x.d.npkt else 0
        let c := c.each (List.range passed) fun c k => (c.pktEnd f n x.count k St.missedService 0 0).countMissed p
        let k := x.planned + passed
        let c := c.updXfer f n x.count fun y => { y with planned := k + 1, started := true }
        if x.d.npkt ≤ k then (c, [])
        else if x.pktBad e k then
          (c.finishRaw f n x St.descError fun r => { r with d0 := mkWord [(0x0C, 0)], d1 := BitVec.ofNat 32 k }, [])
        else
          let there := match x.pkts[k]? with
            | none => false
            | some r => !x.d.dataOut || (List.range ((r.req + e.mps - 1) / e.mps)).all fun j =>
                e.cells.any fun y => y.full && y.owner == x.count && y.pkt == k && y.off == j * e.mps
          if c.chanHeld h || !there then ((c.pktEnd f n x.count k St.missedService 0 0).countMissed p, [])
          else
            let kind := match e.resv.bind Resv.tt with | some _ => ItemKind.startSplit 0 | none => .service
            (c, [{ ep := h, kind := kind, nom := m, pkt := k }])

/-- The next slot of an endpoint at or after microframe `m`. -/
def Ep.slotFrom (e : Ep) (m : Mfn) : Mfn :=
  match (List.range 4096).find? fun k => e.slotAt (m + BitVec.ofNat 14 k) with
  | some k => m + BitVec.ofNat 14 k
  | none => m

/-- R188: a slot passed without a token while a CQ or DMA is held is counted in the WQ's MISSED (R118, R75). -/
def Chip.countSlotMissed (c : Chip) (h : Nat) : Chip :=
  match (c.ep h).bind Ep.wq with
  | some (f, n) => c.updWq f n fun q => { q with missed := satAdd 0xFFFF q.missed 1 }
  | none => c

/-- R143, R189, R289: the service of an interrupt endpoint at microframe `m`, under the catch-up rule. -/
def Chip.planIntr (c : Chip) (p h : Nat) (e : Ep) (m : Mfn) : Chip × List PlanItem :=
  let i := (e.resv.map Resv.interval).getD 1
  let nom := e.nom.getD (e.slotFrom m)
  let due := if e.nom.isSome then e.due else nom
  if 8192 ≤ mfnAfter m nom then (c.updEp h fun e => { e with nom := some nom, due := due }, [])
  else
    let has := match c.chan h with
      | some ch => !e.halted && ch.x.cause.isNone && !(ch.x.express && ch.x.d.dataOut) &&
          (if ch.x.d.dataOut then (c.outData h e.mps).isSome else true)
      | none => false
    if !has then (c.updEp h fun e => { e with nom := some (nom + BitVec.ofNat 14 (i * (mfnAfter m nom / i + 1))),
                                              due := nom + BitVec.ofNat 14 (i * (mfnAfter m nom / i + 1)) }, [])
    else
      let off := mfnAfter m nom / i
      let c := if 0 < off then c.updSc p fun s => { s with writeoff := satAdd 0xFFFF s.writeoff off } else c
      let nom := nom + BitVec.ofNat 14 (i * off)
      let due := if 0 < off then nom else due
      if 8192 ≤ mfnAfter m due then (c.updEp h fun e => { e with nom := some nom, due := due }, [])
      else
        let c := c.updEp h fun e => { e with nom := some (nom + BitVec.ofNat 14 i), due := nom + BitVec.ofNat 14 i }
        if c.chanHeld h then (c.countSlotMissed h, [])
        else
          let c := c.updChan h fun x => { x with started := true, tmo := if x.tmo.isNone && x.d.tmo != 0 then some (8 * x.d.tmo) else x.tmo }
          let kind := match e.resv.bind Resv.tt with | some _ => ItemKind.startSplit 0 | none => .service
          (c, [{ ep := h, kind := kind, nom := nom }])

/-- R178: the complete-splits (and further isochronous start-splits) of an endpoint that fall in microframe `m`. -/
def Ep.splitItems (e : Ep) (h : Nat) (m : Mfn) : List PlanItem :=
  match e.resv with
  | none => []
  | some r =>
    if r.tt.isNone then []
    else
      let here := (r.books.zipIdx).filter fun b => m.toNat % r.span == b.1.1 && b.2 != 0
      here.map fun b =>
        { ep := h, nom := m, kind := if e.type == .iso && !e.isIn then .startSplit b.2
                                     else .completeSplit (b.2 + 1 == r.books.length) }

/-- R171: the order of periodic items: EXPRESS interrupt, isochronous, interrupt, splits. -/
def Chip.itemRank (c : Chip) (i : PlanItem) : Nat :=
  match i.kind with
  | .service =>
    match c.ep i.ep with
    | some e => if e.type == .iso then 1 else match c.chan i.ep with
      | some ch => if ch.x.d.express then 0 else 2
      | none => 2
    | none => 2
  | _ => 3

/-- The endpoint contexts of a port, by ascending handle. -/
def Chip.epsOf (c : Chip) (p : Nat) : List Nat :=
  (c.eps.filter fun e => !e.2.gone && c.epPort e.1 == some p).map Prod.fst

/-- R266, R566: a device is suspended behind its hub port, or lies below one that is. -/
def Chip.devAsleep : Nat → Chip → Nat → Bool
  | 0, _, _ => false
  | k + 1, c, d => match c.dev d with
    | some x => x.suspended || (match x.parent with | some (h, _) => Chip.devAsleep k c h | none => false)
    | none => false

/-- R440: a transfer of a long operation that is not RUNNING: no transaction is sent. (DEDUCED, log 105) -/
def Chip.jobHeld (c : Chip) (s : SvcXfer) : Bool :=
  match s.who with
  | .inst h tag => tag % 64 == Strm.jobTag && (match (c.inst h).bind fun i => i.strm.job.bind c.op with
      | some o => o.st == .suspended
      | none => false)
  | .op i => (match c.op i with | some o => o.st == .suspended | none => false)
  | _ => false

/-- R216, R260, R566: a staged descriptor or a service's transfer waits: the tree or its device is not restored after a
reset yet, or the device is suspended. ENUM's own requests do not wait. While the device is ENTERING, or the port's
cluster falls asleep, nothing that is staged starts (R447 step 1, R467). -/
def Chip.stagedWait (c : Chip) (p h : Nat) : Bool :=
  ((c.pwr.st == .entering || (c.clu (p / 8)).slStep != 0) && (match c.chan h with | some ch => !ch.x.started | none => false)) ||
  ((c.port p).restoring || (c.port p).afterReset ||
    (c.ep h).any fun e => c.devAsleep 6 e.dev || (c.dev e.dev).any Dev.zero) &&
  (match c.chan h with
   | some (.svc s) => (match s.who with | .enum _ => s.isPoll | _ => true)
   | some _ => true
   | none => false) ||
  (match c.chan h with
   | some (.svc s) => c.jobHeld s
   | some (.raw _ _ x) => c.loading h && !x.started
   | none => false)

/-- R171, R184: the asynchronous window of a plan. (DEDUCED, log 53) -/
def Chip.windowOf (c : Chip) (p : Nat) : List Nat :=
  ((c.epsOf p).filter fun h => (c.ep h).any (fun e => !e.periodic && !e.halted && !e.gone) && (c.chan h).isSome &&
    !c.chanHeld h && !c.stagedWait p h).take 32

/-- R144: the timer of an asynchronous descriptor starts with the first plan that holds one of its tokens. -/
def Chip.startWindow (c : Chip) (w : List Nat) : Chip :=
  c.each w fun c h => c.updChan h fun x =>
    { x with started := true, tmo := if x.tmo.isNone && x.d.tmo != 0 then some (8 * x.d.tmo) else x.tmo }

/-- R171: at most 128 periodic items, a service of an HS high-bandwidth endpoint counting as 2 or 3. -/
def Chip.takeItems (c : Chip) : Nat → List PlanItem → List PlanItem
  | _, [] => []
  | k, i :: r =>
    let w := match i.kind, c.ep i.ep with
      | .service, some e => if (c.devPort e.dev).any fun p => (c.port p).speed == some .high then e.mult else 1
      | _, _ => 1
    if w ≤ k then i :: c.takeItems (k - w) r else c.takeItems k r

/-- R170, R171: the plan of port `p` for microframe `m`; an empty one where the port is suspended, in L1, disconnected
or disabled (R167). -/
def Chip.buildPlan (c : Chip) (p : Nat) (m : Mfn) : Chip :=
  let x := c.port p
  if x.st != .enabled then c.updSc p fun s => { s with plans := s.plans ++ [{ mfn := m }] }
  else
    let per := (c.epsOf p).filter fun h => (c.ep h).any (fun e => e.periodic && e.resv.isSome) && !c.stagedWait p h
    let step := fun (a : Chip × List PlanItem) h =>
      match a.1.ep h with
      | none => a
      | some e =>
        let r := if e.type == .iso then (if e.slotAt m then a.1.planIso p h e m else (a.1, [])) else a.1.planIntr p h e m
        (r.1, a.2 ++ r.2 ++ e.splitItems h m)
    let (c, items) := per.foldl step (c, [])
    let sorted := (List.range 4).flatMap fun k => items.filter fun i => c.itemRank i == k
    let w := c.windowOf p
    let c := c.startWindow w
    c.updSc p fun s => { s with plans := s.plans ++ [{ mfn := m, items := c.takeItems 128 sorted, window := w }] }

end Sys2Proof.Machine
end

