-- ==== Sys2Proof/Machine/PortOps.lean ====
section
/-!
DEFINITION. Operations on a port and its tree (chapters 06 and 07): ending contexts and instances, detaching devices,
state changes with their messages, reset, suspend, disconnect, isolation and power removal.
-/
namespace Sys2Proof.Machine

/-! ### Ending endpoint contexts (R161, R257, R266, R285) -/

/-- The channel still holds received data that its WQ's descriptors wait for (R76, R284). -/
def Chip.undrained (c : Chip) (h : Nat) : Bool :=
  match c.ep h with
  | some e => match e.wq with
    | some (f, n) => match c.wq f n with
      | some q => q.work.any fun x => x.result.isSome && !x.ready
      | none => false
    | none => false
  | none => false

/-- R257: an ended context is freed once its transaction on the wire has finished and its data have been written. -/
def Chip.reapEp (c : Chip) (h : Nat) : Chip :=
  match c.ep h with
  | none => c
  | some e =>
    if !e.gone || c.onWire h || c.undrained h then c
    else
      let c := match e.wq with
        | some (f, n) => c.updWq f n fun q => { q with bind := .none }
        | none => c
      let c := (c.release h fun _ => true).setWaiting h false
      let c := { c with eps := Tab.erase c.eps h }
      if h < 0x2000 then { c with handles := { c.handles with epFreed := c.handles.epFreed ++ [h] } } else c

/-- End a context: its descriptors complete with DETACHED, its reservation is released, and it is freed as soon as its
transaction on the wire and its data moves allow. -/
def Chip.endEp (c : Chip) (h : Nat) : Chip :=
  match c.ep h with
  | none => c
  | some e =>
    let c := c.updEp h fun e => { e with gone := true, resv := none, svc := [], halted := false }
    let c := c.each e.svc fun c s => match s.who with
      | .op _ => c.svcOutcome h s St.detached
      | _ => c
    let c := c.release h fun k => !k.full
    let c := match e.wq with
      | some (f, n) => c.endWq f n St.detached
      | none => c
    c.reapEp h

/-! ### Instances of a detached device (R332, R334, R336) -/

/-- End a STREAM_JOB's operation with the completion status of its descriptor (R437). -/
def Chip.endJob (c : Chip) (h status : Nat) : Chip :=
  match (c.inst h).bind fun i => i.strm.job with
  | none => c
  | some o => (c.opDone o status).updInst h fun i => { i with strm := { i.strm with job := none, stalled := false } }

/-- The requests of instance `h` that are fetched and not decided, RECVs apart (R336, R343). -/
def Chip.instRequests (c : Chip) (h : Nat) : List (Nat × Nat × Xfer) :=
  match (c.inst h).bind Inst.wq with
  | none => []
  | some (f, n) => match c.wq f n with
    | none => []
    | some q => (q.work.filter fun x => x.result.isNone && !(x.d.ty == some .svcReq && x.d.req == 0x80)).map fun x => (f, n, x)

/-- R336: the device of an instance detaches. A bind that is running fails (R334). -/
def Chip.instDetach (c : Chip) (h reason : Nat) : Chip :=
  match c.inst h with
  | none => c
  | some i =>
    if i.svc == .enum || i.st == .detached then c
    else if i.st == .binding then
      let c := match i.forFn with
        | some f => c.adminDone f Ad.deviceError
        | none => c
      c.freeInst h
    else
      let c := c.cancelTasks fun t => match t.flow with | some fl => i.flows.contains fl | none => false
      let c := c.endJob h St.detached
      let c := c.each (c.instRequests h) fun c r => c.finishWith r.1 r.2.1 r.2.2.count St.detached fun e => e
      let c := c.updInst h fun i => { i with st := .detached, tick := none, outcomes := [], stopped := false }
      c.statusMsg h 0xF0 i.dev noRef [BitVec.ofNat 8 reason]

/-! ### Detaching devices (R195, R215, R257, R262) -/

/-- The device handles of a subtree: `h` and every device below it, within the depth of R199. -/
def Chip.subtree (c : Chip) (h : Nat) : List Nat :=
  (List.range 5).foldl (fun l _ => l ++ ((c.devs.filter fun e => !e.2.detached && e.1 < 0x800 && !l.contains e.1 &&
    (match e.2.parent with | some (q, _) => l.contains q | none => false)).map Prod.fst)) [h]

/-- Detach device `h`: its contexts end, its instances enter DETACHED, its owner gets a DETACH message, and its handle
and address are freed (R257, R262). -/
def Chip.detachDev (c : Chip) (h reason : Nat) : Chip :=
  match c.dev h with
  | none => c
  | some d =>
    if d.detached then c
    else
      let f := c.ownerOf d.port
      let c := c.updDev h fun d => { d with detached := true, lastOwner := f }
      let c := c.each ((c.eps.filter fun e => e.2.dev == h).map Prod.fst) fun c e => c.endEp e
      let c := c.each ((c.insts.filter fun i => i.2.svc != .hlth && i.2.dev == h).map Prod.fst) fun c i => c.instDetach i reason
      let c := { c with handles := { c.handles with devFreed := c.handles.devFreed ++ [h] } }
      c.sendDetach f h reason

/-- R261: an enumeration in progress on port `p` ends: the candidate's contexts go and nothing is sent for it. A request
of a function that ENUM carries out on the tree ends with DETACHED (R266). -/
def Chip.abortEnum (c : Chip) (p : Nat) : Chip :=
  let c := c.endEp (0x2000 + p)
  let c := { c with devs := Tab.erase c.devs (0x800 + p), eps := Tab.erase c.eps (0x2000 + p) }
  let r := (c.port p).run
  let c := c.each (r.job.toList ++ r.todo) fun c j => match j with
    | .request f n count => c.finishWith f n count St.detached fun e => e
    | .restore _ (some (f, n, count)) => c.finishWith f n count St.detached fun e => e
    | .reset _ (some (f, n, count)) => c.finishWith f n count St.detached fun e => e
    | _ => c
  c.updPort p fun x => { x with run := {}, kept := [] }

/-- The whole tree of port `p` is detached, deepest devices first (R262). -/
def Chip.detachTree (c : Chip) (p reason : Nat) : Chip :=
  (c.abortEnum p).each (c.devsOf p).reverse fun c h => c.detachDev h reason

/-- The devices below hub port (hub, i), `i` = 0 for all of the hub's ports, deepest first. -/
def Chip.below (c : Chip) (hub i : Nat) : List Nat :=
  (((c.devs.filter fun e => !e.2.detached && e.1 < 0x800 && (match e.2.parent with
      | some (q, k) => q == hub && (i == 0 || k == i)
      | none => false)).map Prod.fst).flatMap c.subtree).reverse

/-- R336: the HLTH instance of a port that is moved away or removed from service is closed. -/
def Chip.closeHlth (c : Chip) (p reason : Nat) : Chip :=
  c.each ((c.insts.filter fun i => i.2.svc == .hlth && i.2.port == p).map Prod.fst) fun c h => c.instDetach h reason

/-! ### State changes (R200, R202, R231) -/

/-- Set bits of PRT_EVENT (R231), by bit number. -/
def Chip.portEvent (c : Chip) (p i : Nat) : Chip := c.updPort p fun x => { x with event := x.event ||| 2 ^ i }
def Ev.resetDone : Nat := 0
def Ev.resumed : Nat := 1
def Ev.suspended : Nat := 2
def Ev.l1Enter : Nat := 3
def Ev.l1Exit : Nat := 4
def Ev.babble : Nat := 5
def Ev.disabled : Nat := 6
def Ev.isolated : Nat := 7
def Ev.failover : Nat := 8
def Ev.cmdErr : Nat := 9
def Ev.lpmFail : Nat := 10

/-- R228, R229: a swap of engines takes effect. -/
def Chip.swapNow (c : Chip) (p : Nat) (toSpare : Bool) : Chip :=
  c.updPort p fun x => { x with spare := toSpare, swap := none, ckptMfn := c.mfn }

/-- A state change of port `p`, with its PORT_STATUS message (R202). The trims are taken on entry to RESETTING,
DISCONNECTED or OFF (R539); the engine takes a checkpoint, and a swap that waits for a SOF instant takes effect where
there is none (R574). -/
def Chip.setPort (c : Chip) (p : Nat) (st : PortSt) : Chip :=
  if (c.port p).st = st then c
  else
    let trim := if st == .resetting || st == .disconnected || st == .off then c.takeTrim p else (c.port p).trim
    let c := c.updPort p fun x => { x with st := st, trim := trim, ckptMfn := c.mfn }
    let c := match (c.port p).swap with
      | some b => if st = PortSt.enabled then c else c.swapNow p b
      | none => c
    let c := if (c.port p).pw.cdpDrive && st != PortSt.disconnected && st != PortSt.connecting then
        (c.updPw p fun y => { y with cdpDrive := false }).emit (.usb p (.cdp false))
      else c
    c.sendPortStatus p

/-- The device on the root port itself, if it has a handle. -/
def Chip.rootDev (c : Chip) (p : Nat) : Option Nat :=
  (c.devs.find? fun e => e.1 < 0x800 && e.2.port == p && !e.2.detached && e.2.parent.isNone).map Prod.fst

/-- The WQs bound to endpoints of port `p`'s tree: function and number. -/
def Chip.treeWqs (c : Chip) (p : Nat) : List (Nat × Nat) := (c.epsOf p).filterMap fun h => (c.ep h).bind Ep.wq

/-- Every descriptor in progress on the tree completes with an outside cause; staged ones stay staged (R216, R219). -/
def Chip.endTree (c : Chip) (p status : Nat) : Chip :=
  c.each (c.epsOf p) fun c h =>
    let c := match (c.ep h).bind Ep.wq with
      | some (f, n) => c.endWq f n status true
      | none => c
    match c.ep h with
    | some e => match e.svc with
      | s :: _ =>
        if !s.x.started || s.isPoll then c
        else if c.onWire h then c.updChan h fun x => { x with cause := some status }
        else c.svcEnd h status
      | [] => c
    | none => c

/-- R216 step 2: every endpoint of the tree returns to DATA0, with PING, error count and HALTED cleared. -/
def Chip.clearTree (c : Chip) (p : Nat) : Chip :=
  c.each (c.epsOf p) fun c h => c.updEp h fun e => { e with toggle := false, ping := false, strikes := 0, halted := false, owed := [] }

/-- What the engine forgets when the port leaves ENABLED: the running plan, what was carried and owed. -/
def PortSch.quiet (s : PortSch) : PortSch :=
  { s with items := [], carried := [], owedCs := [], follow := none, naked := [], turn := 0, txn := none }

/-- R216 steps 2 and 3: the descriptors in progress end, the contexts return to their defaults, and SE0 begins. -/
def Chip.resetNow (c : Chip) (p : Nat) : Chip :=
  let c := ((c.endTree p St.portReset).clearTree p).updSc p PortSch.quiet
  let c := c.each (c.devsOf p) fun c h => c.updDev h fun d => { d with zero := true, suspended := false }
  let lpm := match (c.rootDev p).bind c.dev with | some d => d.lpm | none => false
  let c := c.updPort p fun x => { x with
    waiting := none, lpmOff := false, lpmErrs := 0, lpmOk := lpm, idle := 0,
    tokHold := false, chirped := false, chirpOver := false, driveK := false, kEnded := false, thenSuspend := false }
  (c.setPort p .resetting).emit (.usb p .se0)

/-- R219: the descriptors in progress complete with SUSPENDED, the tree's WQs fetch nothing more, and the port enters
SUSPENDED. -/
def Chip.suspendNow (c : Chip) (p : Nat) : Chip :=
  let c := (c.endTree p St.suspended).updSc p PortSch.quiet
  let c := c.each (c.treeWqs p) fun c w => c.updWq w.1 w.2 fun q => { q with suspHold := true }
  let c := c.updPort p fun x => { x with
    waiting := none, resided := false, driveK := false, kEnded := false, away := true,
    thenSuspend := false, nowHost := false, nowRws := false }
  (c.setPort p .suspended).portEvent p Ev.suspended

/-- What a port's registers show once nothing is attached. -/
def Port.bare (x : Port) : Port :=
  { x with waiting := none, speed := none, pullup := 0, line := .se0, afterReset := false, restoring := false, lpmOk := false, lpmOff := false, lpmErrs := 0, idle := 0,
           tokHold := false, sofOver := 0, driveK := false, kEnded := false, thenSuspend := false, chirped := false,
           chirpOver := false, disabled100 := false, away := false, nowHost := false, nowRws := false, resided := false }

/-- R215: a disconnect: the tree's descriptors complete with DETACHED and its devices are detached. ENUM learns of it by
a task (R304). -/
def Chip.disconnectNow (c : Chip) (p : Nat) : Chip :=
  let c := (c.updSc p PortSch.quiet).updPort p Port.bare
  ((c.setPort p .disconnected).detachTree p 0x01).happen p 0 (.enum p 0 0)

/-- R201, R246: the port goes to OFF: the transaction on the wire is abandoned, and the tree is detached. (DEDUCED,
log 62) -/
def Chip.offNow (c : Chip) (p reason : Nat) : Chip :=
  if (c.port p).st = .off ∨ (c.port p).st = .isolated ∨ (c.port p).st = .test then c
  else
    let c := (c.updSc p PortSch.quiet).updPort p Port.bare
    ((c.setPort p .off).detachTree p reason).happen p 0 (.enum p 0 0)

/-- R246: remove a port's power for a reason: the next frame carries EN 0. A removal that is under way stays, and an enable
asked for meanwhile is dropped. After OVERCURRENT, BROWNOUT and SWITCH a retry
waits while retries are left (R253). -/
def Chip.removePower (c : Chip) (p reason : Nat) : Chip :=
  let x := (c.port p).pw
  if x.removing || (!x.want && !x.en) then c.updPw p fun y => { y with want := false, awaiting := false, enableDue := none }
  else
    let retry := (reason == 2 || reason == 3 || reason == 5) && decide (0 < x.left)
    let c := c.updPw p fun y => { y with
      want := false, removing := true, awaiting := false, reason := reason, retryDue := retry,
      enableDue := none, removed := true, poweredAtLoss := false, ocRun := 0, healthRun := 0, lowRun := 0, overRun := 0 }
    let c := c.updSc p fun s => { s with seenPower := s.seenPower + 1 }
    c.sendPower p reason

/-- R201, R480: ISOLATE_PORT once the transaction on the wire has finished: the tree's descriptors complete DETACHED, the
devices are detached with reason ISOLATED, and the port's power is removed. -/
def Chip.isolateNow (c : Chip) (p : Nat) : Chip :=
  let c := c.removePower p 1
  let c := (c.updSc p PortSch.quiet).updPort p Port.bare
  let c := (c.setPort p .isolated).portEvent p Ev.isolated
  ((c.detachTree p 0x05).closeHlth p 0x05).happen p 0 (.enum p 0 0)

/-- Once no transaction is on the wire: what the port was waiting to do. -/
def Chip.portSettle (c : Chip) (p : Nat) : Chip :=
  if (c.port p).sc.txn.isSome then c
  else match (c.port p).waiting with
    | some .reset => c.resetNow p
    | some .suspend => c.suspendNow p
    | some .disconnect => c.disconnectNow p
    | some .isolate => c.isolateNow p
    | none => c

/-- Ask the port to do something as soon as its wire is quiet (R161, R215, R216, R219). -/
def Chip.portAsk (c : Chip) (p : Nat) (w : PortWait) : Chip := (c.updPort p fun x => { x with waiting := some w }).portSettle p

/-- R201, R480: isolate port `p`; OFF and ISOLATED ports are left as they are, but their enable is called off. -/
def Chip.isolate (c : Chip) (p : Nat) : Chip :=
  if (c.port p).st = .isolated then c
  else if (c.port p).st = .off then
    c.updPw p fun y => { y with want := false, enableDue := none, retryDue := false, awaiting := false }
  else c.portAsk p .isolate

end Sys2Proof.Machine
end

