-- ==== Sys2Proof/Machine/Engine.lean ====
section
/-!
DEFINITION. The port engine (chapter 06): what a transaction sends, what it is charged, and what its outcome does to
the endpoint, the descriptor and the port. The commands stand in Machine/PortEngine.lean.
-/
namespace Sys2Proof.Machine

/-! ### Counters (R231) -/

/-- HLTH's own count of transaction errors (R368). -/
def Port.seeErr (x : Port) : Port := { x with sc := { x.sc with seenErrs := x.sc.seenErrs + 1 } }
def Chip.countCrc (c : Chip) (p : Nat) : Chip := c.updPort p fun x => { x.seeErr with crcErr := satAdd 0xFFFF x.crcErr 1 }
def Chip.countTimeout (c : Chip) (p : Nat) : Chip := c.updPort p fun x => { x.seeErr with timeouts := satAdd 0xFFFF x.timeouts 1 }
def Chip.countPid (c : Chip) (p : Nat) : Chip := c.updPort p fun x => { x.seeErr with pidErr := satAdd 0xFFFF x.pidErr 1 }
def Chip.countStrike (c : Chip) (p : Nat) : Chip := c.updPort p fun x => { x with strikes := satAdd 255 x.strikes 1 }
def Chip.countBabble (c : Chip) (p : Nat) : Chip :=
  (c.updPort p fun x => { x with babbles := satAdd 255 x.babbles 1, sc := { x.sc with seenBabble := x.sc.seenBabble + 1 } }).portEvent p Ev.babble

/-! ### What a transaction sends (R136, R145, R171, R175 to R178, R208 to R212) -/

/-- A transaction about to be started: its kind, the token's PID, the data it sends with their PID, and its charge less
the gap with which the charge ends (R169). -/
structure Req where
  kind : TxnKind
  pid : Nat
  data : Option (Nat × List Byte) := none
  need : Nat
  deriving DecidableEq, Repr

/-- The bus of port `p` runs at HS. -/
def Chip.hs (c : Chip) (p : Nat) : Bool := (c.port p).speed == some .high

/-- The address a device answers at: 0 after a reset, until it has been restored (R216, R260). -/
def Dev.wireAddr (d : Dev) : Nat := if d.zero then 0 else d.addr

/-- R175, R176: the charge of a transaction at issue, less its final gap. (DEDUCED, log 59) -/
def Chip.need (c : Chip) (p : Nat) (e : Ep) (k : Charge) (pid : Nat) (data : Option (Nat × List Byte)) : Nat :=
  let hs := c.hs p
  let d := c.dev e.dev
  let hubs := match d with | some d => d.depth | none => 0
  let addr := match d with | some d => d.wireAddr | none => 0
  let t := tokenLen hs pid addr e.addr
  let el := match data with | some (q, bs) => eLen hs q bs | none => 0
  let ch := charge k hs hubs t el e.mps
  if c.usesPre e.dev then
    8 * ch + 20 * (1 + (match k with | .inAck | .outAck | .isoOut => 1 | _ => 0)) - 8 * k.tail hs
  else ch - k.tail hs

/-- R177: the HS charge of a start-split or complete-split at issue, less its final gap. -/
def Chip.needSplit (c : Chip) (e : Ep) (start out iso : Bool) (pid : Nat) (data : Option (Nat × List Byte)) : Nat :=
  let d := c.dev e.dev
  let hubs := match d with | some d => d.depth | none => 0
  let t := tokenLen true pid (match d with | some d => d.wireAddr | none => 0) e.addr
  let el := match data with | some (q, bs) => eLen true q bs | none => 0
  if start then chargeSs out iso hubs t el - (if iso then 90 else 10)
  else chargeCs (!out) hubs t e.mps - 10

/-- The underlying token and data of a channel's next transaction (R136, R145, R208). -/
def Chip.nextToken (c : Chip) (h : Nat) (e : Ep) (x : Xfer) : Nat × Option (Nat × List Byte) :=
  match x.next with
  | .setup => (Pid.setup, some (Pid.data0, x.d.setup))
  | .dataIn | .statusIn => (Pid.in_, none)
  | .dataOut => (Pid.out, some (Pid.data e.toggle, (c.outData h e.mps).getD []))
  | .statusOut => (Pid.out, some (Pid.data1, []))

/-- R209: the endpoint keeps a PING state: HS bulk OUT, and the OUT stages of HS control endpoints. -/
def Chip.pings (c : Chip) (e : Ep) (x : Xfer) : Bool :=
  (match c.dev e.dev with | some d => d.speed == .high | none => false) && (e.type == .bulk || e.type == .control) &&
  (x.next == .dataOut || x.next == .statusOut)

/-- The transaction that channel `h` would start now, isochronous ones apart. -/
def Chip.reqFor (c : Chip) (p h : Nat) (e : Ep) (x : Xfer) (complete : Bool) : Req :=
  let t := c.nextToken h e x
  if (c.tt e.dev).isSome then
    if complete then
      { kind := .completeSplit, pid := t.1, need := c.needSplit e false (t.2.isSome) false t.1 none }
    else
      { kind := .startSplit, pid := t.1, data := t.2, need := c.needSplit e true (t.2.isSome) false t.1 t.2 }
  else if e.ping && c.pings e x then
    { kind := .ping, pid := Pid.ping, need := c.need p e .ping Pid.ping none }
  else
    { kind := match x.next with | .setup => .setup | .dataIn | .statusIn => .in_ | _ => .out,
      pid := t.1, data := t.2, need := c.need p e (if t.2.isSome then .outAck else .inAck) t.1 t.2 }

/-- R210: the PIDs of a high-bandwidth isochronous OUT service of `n` transactions at position `k`. (DEDUCED, log 56)
-/
def isoOutPid (n k : Nat) : Nat :=
  if n ≤ 1 then Pid.data0 else if k + 1 < n then Pid.mdata else if n = 2 then Pid.data1 else Pid.data2
/-- R210: the PID expected at position `k` of an IN service of an endpoint with `n` transactions. -/
def isoInPid (n k : Nat) : Nat :=
  if n - k ≤ 1 then Pid.data0 else if n - k = 2 then Pid.data1 else Pid.data2

/-- The packet of an isochronous WQ that a planned item serves: its descriptor and the list entry. -/
def Chip.isoFor (c : Chip) (e : Ep) (k : Nat) : Option (Nat × Nat × Xfer × IsoPkt) :=
  match e.wq with
  | none => none
  | some (f, n) => match c.wq f n with
    | none => none
    | some q =>
      match q.work.find? fun (x : Xfer) => x.result.isNone && decide (k < x.planned) &&
          (match x.pkts[k]? with | some r => r.pstat.isNone | none => false) with
      | some x => x.pkts[k]?.map fun r => (f, n, x, r)
      | none => none

/-- The cell that holds the bytes at offset `off` of packet `k` of an isochronous OUT descriptor. -/
def Ep.isoCell (e : Ep) (count : Word) (k off : Nat) : Option Cell :=
  e.cells.find? fun y => y.full && y.owner == count && y.pkt == k && y.off == off

/-- The transaction of an isochronous item at position `pos` of its service, split start-split `i` taking 188 bytes. -/
def Chip.isoReq (c : Chip) (p : Nat) (e : Ep) (x : Xfer) (r : IsoPkt) (k : Nat) (i : PlanItem) : Req :=
  let bytes := fun off => match e.isoCell x.count k off with | some y => y.data | none => []
  if (c.tt e.dev).isSome then
    if x.d.dataOut then
      let at_ := match i.kind with | .startSplit j => 188 * j | _ => 0
      let bs := ((bytes 0).drop at_).take 188
      { kind := .startSplit, pid := Pid.out, data := some (Pid.data0, bs),
        need := c.needSplit e true true true Pid.out (some (Pid.data0, bs)) }
    else match i.kind with
      | .completeSplit _ => { kind := .completeSplit, pid := Pid.in_, need := c.needSplit e false false true Pid.in_ none }
      | _ => { kind := .startSplit, pid := Pid.in_, need := c.needSplit e true false true Pid.in_ none }
  else if x.d.dataOut then
    let n := max 1 ((r.req + e.mps - 1) / e.mps)
    let dat := (isoOutPid n i.pos, (bytes (i.pos * e.mps)).take e.mps)
    { kind := .isoOut, pid := Pid.out, data := some dat, need := c.need p e .isoOut Pid.out (some dat) }
  else { kind := .isoIn, pid := Pid.in_, need := c.need p e .isoIn Pid.in_ none }

/-- One packet toward a device, with the PRE that R212 asks for. -/
def Chip.busTo (c : Chip) (p d : Nat) (u : UsbOut) : Chip :=
  (if c.usesPre d then c.emit (.usb p .pre) else c).emit (.usb p u)

/-- Put a transaction on the wire (R176): the split token, the token, the data. -/
def Chip.send (c : Chip) (p h : Nat) (e : Ep) (r : Req) (item : Option PlanItem) (async : Bool) : Chip :=
  let addr := match c.dev e.dev with | some d => d.wireAddr | none => 0
  let tt := (c.tt e.dev).getD (0, 0)
  let hub := match c.dev tt.1 with | some d => d.addr | none => 0
  let c := match r.kind with
    | .startSplit => c.emit (.usb p (.split true hub tt.2 addr (e.addr % 16)))
    | .completeSplit => c.emit (.usb p (.split false hub tt.2 addr (e.addr % 16)))
    | _ => c
  let c := c.busTo p e.dev (.token r.pid addr (e.addr % 16))
  let c := match r.data with
    | some (q, bs) => c.busTo p e.dev (.data q bs)
    | none => c
  let sent := match r.data with | some (_, bs) => bs.length | none => 0
  c.updSc p fun s => { s with tokens := true, follow := none, asyncN := if async then satAdd 255 s.asyncN 1 else s.asyncN,
                              txn := some { ep := h, kind := r.kind, sent := sent, item := item, async := async } }

/-- R168, R169: a transaction started at bit `t` ends by the protection point. (DEDUCED, log 74) -/
def Chip.fitsAt (c : Chip) (p t need : Nat) : Bool :=
  match (c.port p).speed with
  | some sp => decide (firstToken sp ≤ t) && decide (t + need ≤ protection sp)
  | none => false

/-! ### Draining (R284) -/

/-- R284: draining starts once the data cells number HM, or the channel's data has ended; while it is on, what arrives
drains too. (DEDUCED, log 250) -/
def Chip.judgeDrain (c : Chip) (h : Nat) (ended : Bool) : Chip :=
  c.updEp h fun e =>
    if (ended || decide (e.hmIn ≤ e.dataCells) || e.cells.any fun k => k.draining) && e.inst.isNone then
      { e with cells := e.cells.map fun k => if k.full then { k with draining := true } else k }
    else e

/-- Put received bytes into an empty cell of the channel. -/
def Chip.fillCell (c : Chip) (h : Nat) (owner : Word) (pkt off : Nat) (bs : List Byte) : Chip :=
  if bs.isEmpty then c
  else c.updEp h fun e =>
    match e.cells.findIdx? fun k => !k.full && k.size == 0 with
    | some i => { e with cells := e.cells.set i { data := bs, full := true, owner := owner, pkt := pkt, off := off } }
    | none => { e with cells := e.cells ++ [{ data := bs, full := true, owner := owner, pkt := pkt, off := off }] }

/-! ### The end of a transaction -/

/-- R161: outside causes that waited for this transaction. -/
def Chip.applyCauses (c : Chip) (h : Nat) : Chip :=
  let c := match (c.ep h).bind Ep.wq with
    | some (f, n) => match c.wq f n with
      | some q => c.each (q.work.filter fun (x : Xfer) => x.result.isNone && x.cause.isSome) fun c x =>
          c.finishRaw f n x (x.cause.getD St.cancelled)
      | none => c
    | none => c
  match (c.ep h).bind fun e => e.svc.head? with
  | some s => match s.x.cause with
    | some st => c.svcEnd h st
    | none => c
  | none => c

/-- What a transaction's end does to the running plan. -/
inductive After where
  /-- nothing more -/
  | done
  /-- the channel's turn ends (R184, R211); `nak` counts it and skips the channel -/
  | turn (nak : Bool)
  /-- the item goes on with its next transaction -/
  | again (i : PlanItem)
  /-- the OUT data follow a PING in the same turn (R209) -/
  | follow
  deriving DecidableEq, Repr

/-- The transaction on the wire of port `p` has ended, its result already applied. -/
def Chip.txnOver (c : Chip) (p : Nat) (t : Txn) (a : After) : Chip :=
  let c := c.updSc p fun s => { s with txn := none }
  let c := match a with
    | .done => c
    | .turn nak => if t.async then c.updSc p fun s =>
        { s with turn := 255, naked := if nak then s.naked ++ [t.ep] else s.naked,
                 nakSkip := if nak then satAdd 0xFFFF s.nakSkip 1 else s.nakSkip } else c
    | .again i => c.updSc p fun s => { s with items := i :: s.items }
    | .follow => if t.async then c.updSc p fun s => { s with follow := some t.ep } else c
  let c := ((c.applyCauses t.ep).supplyEp t.ep).reapEp t.ep
  c.portSettle p

/-- R138: CLEAR_FEATURE(ENDPOINT_HALT) of a RAW endpoint of the same device has completed with SUCCESS. -/
def Chip.clearHalt (c : Chip) (h : Nat) (x : Xfer) : Chip :=
  if x.d.setup.take 4 = [0x02#8, 0x01#8, 0x00#8, 0x00#8] then
    match c.ep h with
    | some e =>
      let a := bits (dw x.d 5) 7 0
      let es := (c.eps.filter fun y => y.2.dev == e.dev && !y.2.dflt && y.2.addr == a && y.2.inst.isNone).map Prod.fst
      c.each es fun c k => c.updEp k fun y => { y with toggle := false, halted := false }
    | none => c
  else c

/-- R140, R141: a control transfer completes after its status stage. -/
def Chip.controlDone (c : Chip) (h : Nat) (ch : Chan) : Chip :=
  let x := ch.x
  let c := c.updChan h fun x => { x with stage := 4 }
  let short := x.d.setupIn && decide (x.done < x.d.length)
  let c := c.endChan h (if short then St.short else St.success)
  match ch with
  | .raw _ _ _ => if short || x.cause.isSome then c else c.clearHalt h x
  | .svc _ => c

/-- Note the last PID received for the descriptor in progress (R160). -/
def Chip.notePid (c : Chip) (h pid : Nat) : Chip := c.updChan h fun x => { x with lastPid := pid }
/-- A valid handshake or valid data clears the error count (R207). -/
def Chip.clearStrikes (c : Chip) (h : Nat) : Chip := c.updEp h fun e => { e with strikes := 0 }

/-- R207: a transaction error on endpoint `h`: the third ends the descriptor, an earlier one is retried. -/
def Chip.strike (c : Chip) (p h : Nat) : Chip :=
  match c.ep h with
  | none => c
  | some e =>
    if 2 ≤ e.strikes then
      let c := c.clearStrikes h
      let c := if (c.chan h).isSome then c.countStrike p else c
      c.endChan h (if (c.tt e.dev).isSome then St.splitError else St.xactError)
    else (c.updEp h fun e => { e with strikes := e.strikes + 1 }).updChan h fun x => { x with errs := satAdd 255 x.errs 1 }

/-- R152, R285: an isochronous packet ends without its data: what was stored of it is discarded. -/
def Chip.isoDrop (c : Chip) (h : Nat) (x : Xfer) (k : Nat) : Chip :=
  match c.ep h with
  | none => c
  | some e =>
    let cut := ((e.cells.filter fun y => y.full && y.owner == x.count && y.pkt == k).map fun y => y.data.length).sum
    let c := c.release h fun y => y.full && y.owner == x.count && y.pkt == k
    c.updChan h fun y => if y.d.dataIn then { y with done := y.done - cut } else y

/-- R191: how late the service of an item runs. -/
def PortSch.lateBy (s : PortSch) (i : PlanItem) : Nat := mfnAfter s.mfn i.nom

/-- The packet of an isochronous item ends with a PSTAT; a late one that moved its data ends LATE (R191). -/
def Chip.isoEnd (c : Chip) (p h : Nat) (i : PlanItem) (pstat : Nat) : Chip :=
  match (c.ep h).bind fun e => c.isoFor e i.pkt with
  | none => c
  | some (f, n, x, r) =>
    let d := (c.port p).sc.lateBy i
    let moved := pstat == St.success || pstat == St.short
    let late := moved && decide (0 < d)
    let c := if moved || pstat == St.babble then c else c.isoDrop h x i.pkt
    let c := if x.d.dataOut then c.release h fun y => y.owner == x.count && y.pkt == i.pkt else c
    let len := if x.d.dataOut then (if moved then r.req else 0) else if moved || pstat == St.babble then r.len else 0
    let c := if late then c.updSc p fun s => { s with late := satAdd 0xFFFF s.late 1 } else c
    let c := c.judgeDrain h true
    c.pktEnd f n x.count i.pkt (if late then St.late else pstat) len (if late then d else 0)

/-- A transaction ends in an error (R206): isochronous ones end their packet, others take a strike. -/
def Chip.txnError (c : Chip) (p : Nat) (t : Txn) (split : Bool) : Chip :=
  let c := c.updSc p fun s => { s with owedCs := s.owedCs.filter fun k => k != t.ep }
  match t.item, (c.ep t.ep).map Ep.type with
  | some i, some .iso => (c.isoEnd p t.ep i (if split then St.splitError else St.xactError)).txnOver p t .done
  | _, _ => (c.strike p t.ep).txnOver p t .done

/-! ### Packets handed to services (R304) -/

/-- R352: the bulk IN bytes of a CCID reader make up whole messages: 10 bytes and dwLength, ended by a short packet too. A
whole one waits in the inbox, and its task goes on its slot's flow (R310). -/
def Chip.ccidGather (c : Chip) (k h : Nat) (e : Ep) (i : Inst) (bs : List Byte) : Chip :=
  let c := c.updEp h fun e => { e with cells := e.cells.filter fun y => !y.full }
  let rx := i.ccid.rx ++ bs
  if decide (bs.length < e.mps) || (decide (10 ≤ rx.length) && decide (10 + (wordAt rx 1).toNat ≤ rx.length)) then
    let c := c.updInst k fun i => { i with ccid := { i.ccid with rx := [], inbox := i.ccid.inbox ++ [rx] } }
    match (i.flows[1 + byteAt rx 5]?).orElse fun _ => i.flows.head? with
    | some fl => c.happen fl 0 (.packet k h)
    | none => c
  else c.updInst k fun i => { i with ccid := { i.ccid with rx := rx } }

/-- R304: a packet has been received on a channel of a service, or of a hub's status-change endpoint. -/
def Chip.packetIn (c : Chip) (p h : Nat) (bs : List Byte) : Chip :=
  match c.ep h with
  | none => c
  | some e => match e.inst with
    | some k => match c.inst k with
      | some i =>
        if i.svc = .ccid ∧ e.type = .bulk then c.ccidGather k h e i bs
        else match i.flows.head? with
        | some fl => c.happen fl 0 (.packet k h)
        | none => c
      | none => c
    | none => c.happen p 0 (.enum p 5 h)

/-! ### IN data (R142, R208, R210, R213, R277) -/

/-- Babble on the wire: more than MPS (R213). -/
def Chip.packetBabble (c : Chip) (p : Nat) (t : Txn) : Chip :=
  let c := c.countBabble p
  let c := c.updSc p fun s => { s with owedCs := s.owedCs.filter fun k => k != t.ep }
  match t.item, (c.ep t.ep).map Ep.type with
  | some i, some .iso => (c.isoEnd p t.ep i St.babble).txnOver p t .done
  | _, _ => (c.endChan t.ep St.babble).txnOver p t .done

/-- R28 to R30: the data of an express IN packet go to the descriptor's buffer in writes of at most 64 bytes. -/
def Chip.expressData (c : Chip) (f : Nat) (x : Xfer) (bs : List Byte) : Chip :=
  let ns := x.d.noSnoop && (c.fn f).nosnoop
  let ps := splitRun bs.length x.svcAddr 0 64 0 bs.length
  c.each ps fun c q => c.hostWrite f (x.svcAddr q.1) ((bs.drop q.1).take q.2) ns

/-- R181, R210: after a good transaction an HS high-bandwidth interrupt service goes on with its next one. -/
def Chip.afterGood (c : Chip) (p : Nat) (t : Txn) : After :=
  match t.item, c.ep t.ep with
  | some i, some e =>
    if e.type == .intr && c.hs p && i.kind == .service && decide (i.pos + 1 < e.mult) then .again { i with pos := i.pos + 1 } else .done
  | _, _ => .done

/-- Good data with the expected toggle for a bulk, interrupt or control IN stage (R140, R142). `ack` says whether the
Vetia answers with a handshake (none to a complete-split). -/
def Chip.takeIn (c : Chip) (p : Nat) (t : Txn) (e : Ep) (ch : Chan) (bs : List Byte) (ack : Bool) : Chip :=
  let h := t.ep
  let c := if ack then c.busTo p e.dev (.handshake Pid.ack) else c
  let c := (c.clearStrikes h).updEp h fun e => { e with toggle := !e.toggle }
  let x := ch.x
  let control := x.d.ty == some .control
  let want := x.d.length - x.done
  let got := bs.take want
  let surplus := decide (want < bs.length)
  let ended := surplus || decide (x.done + got.length = x.d.length) || decide (bs.length < e.mps)
  match ch with
  | .svc s =>
    if s.isPoll then
      (((c.fillCell h 0#32 0 0 bs).packetIn p h bs)).txnOver p t (c.afterGood p t)
    else
      let c := c.updSvcData h fun d => d ++ got
      let c := c.updChan h fun x => { x with done := x.done + got.length, stage := if ended then 3 else 2 }
      let c := if surplus then c.endChan h St.babble
        else if ended then c.updEp h fun e => { e with toggle := true } else c
      c.txnOver p t .done
  | .raw f _n x =>
    let c := if x.express then (c.expressData f x got).updChan h fun x => { x with done := got.length, moved := got.length }
      else (c.fillCell h x.count 0 x.done got).updChan h fun x => { x with done := x.done + got.length }
    let c := if control then c.updChan h fun x => { x with stage := if ended then 3 else 2 } else c
    let c := c.judgeDrain h ended
    let c := if surplus then
        (c.updChan h fun x => { x with overrun := x.cause.isNone }).endChan h St.babble
      else if !ended then c
      else if control then c.updEp h fun e => { e with toggle := true }
      else c.endChan h (if x.done + got.length = x.d.length then St.success else St.short)
    c.txnOver p t (if decide (bs.length < e.mps) then .done else c.afterGood p t)

/-- An isochronous IN packet with good CRC (R152, R210). -/
def Chip.takeIsoIn (c : Chip) (p : Nat) (t : Txn) (e : Ep) (i : PlanItem) (pid : Nat) (bs : List Byte) : Chip :=
  match c.isoFor e i.pkt with
  | none => c.txnOver p t .done
  | some (f, n, x, r) =>
    let mult := if t.kind == .completeSplit then 1 else e.mult
    if pid ≠ Pid.data0 ∧ pid ≠ isoInPid mult i.pos then c.txnError p t false
    else
      let want := r.req - r.len
      let got := bs.take want
      let c := (c.fillCell t.ep x.count i.pkt r.len got).updXfer f n x.count fun y =>
        { y with done := y.done + got.length,
                 pkts := y.pkts.modify i.pkt fun q => { q with len := q.len + got.length } }
      let c := c.updSc p fun s => { s with owedCs := s.owedCs.filter fun k => k != t.ep }
      if want < bs.length then (c.isoEnd p t.ep i St.babble).txnOver p t .done
      else if pid = Pid.data0 then
        (c.isoEnd p t.ep i (if r.len + got.length = r.req then St.success else St.short)).txnOver p t .done
      else c.txnOver p t (.again { i with pos := i.pos + 1 })

/-- A well-formed data packet in answer to an IN or a complete-split. (DEDUCED, log 242) -/
def Chip.dataGood (c : Chip) (p : Nat) (t : Txn) (pid : Nat) (bs : List Byte) : Chip :=
  match c.ep t.ep with
  | none => c.txnOver p t .done
  | some e =>
    let c := if e.type == .iso then c else c.notePid t.ep pid
    if e.mps < bs.length then c.packetBabble p t
    else match e.type, t.item with
    | .iso, some i => c.takeIsoIn p t e i pid bs
    | _, _ =>
      let split := t.kind == .completeSplit
      let c := if split then c.updSc p fun s => { s with owedCs := s.owedCs.filter fun k => k != t.ep } else c
      match c.chan t.ep with
      | none => (if split then c else c.busTo p e.dev (.handshake Pid.ack)).txnOver p t .done
      | some ch =>
        if ch.x.next == .statusIn then
          if !bs.isEmpty || (pid != Pid.data0 && pid != Pid.data1) then (c.countPid p).txnError p t false
          else
            let c := (if split then c else c.busTo p e.dev (.handshake Pid.ack)).clearStrikes t.ep
            if pid = Pid.data1 then (c.controlDone t.ep ch).txnOver p t .done else c.txnOver p t .done
        else if ch.x.next != .dataIn || (pid != Pid.data0 && pid != Pid.data1) then (c.countPid p).txnError p t false
        else if pid != Pid.data e.toggle then
          ((if split then c else c.busTo p e.dev (.handshake Pid.ack)).clearStrikes t.ep).txnOver p t .done
        else c.takeIn p t e ch bs (!split)

/-- R30: a failed express IN packet has been forwarded already: the buffer holds undefined data. -/
def Chip.expressSpoil (c : Chip) (t : Txn) (k : Nat) : Chip :=
  match c.chan t.ep with
  | some (.raw f _ x) =>
    if x.express && x.d.dataIn && t.kind == .in_ && decide (0 < k) then
      let v := c.fresh
      v.2.expressData f x ((List.range (min k x.d.length)).map fun i => Config.freeByte (4096 * v.1 + i))
    else c
  | _ => c

/-- R73, R206: an abandoned transaction ends in an error, which the endpoint counts (R207). -/
def Chip.deadError (c : Chip) (p : Nat) (t : Txn) : Chip :=
  (c.updEp t.ep fun e => if e.type == .iso then e else { e with strikes := if 2 ≤ e.strikes then 0 else e.strikes + 1 }).txnOver p t .done

/-- R73, R208: the data of an abandoned transaction are answered as any, counted for the toggle, and dropped. -/
def Chip.deadData (c : Chip) (p : Nat) (t : Txn) (pid : Nat) (bs : List Byte) (q : RxQuality) : Chip :=
  match c.ep t.ep with
  | none => c.txnOver p t .done
  | some e =>
    let inLike := t.kind == .in_ || t.kind == .isoIn || t.kind == .completeSplit
    match q with
    | .badCrc => (c.countCrc p).deadError p t
    | .good =>
      if e.mps < bs.length then (c.countBabble p).txnOver p t .done
      else if e.type == .iso then c.txnOver p t .done
      else if !inLike || (pid != Pid.data0 && pid != Pid.data1) then (c.countPid p).deadError p t
      else
        let c := if t.kind == .in_ then c.busTo p e.dev (.handshake Pid.ack) else c
        (c.updEp t.ep fun e => { e with strikes := 0, toggle := if pid = Pid.data e.toggle then !e.toggle else e.toggle }).txnOver p t .done
    | _ => (c.countPid p).deadError p t

/-- DATA_PACKET_RECEIVED: a data packet from the device has ended. (DEDUCED, log 60) -/
def Chip.dataPacket (c : Chip) (p pid : Nat) (bs : List Byte) (q : RxQuality) : Chip :=
  match (c.port p).sc.txn with
  | none => c
  | some t =>
    match t.wait with
    | .late => (c.updSc p fun s => { s with txn := none }).portSettle p
    | _ =>
      let inLike := t.kind == .in_ || t.kind == .isoIn || t.kind == .completeSplit
      if t.dead then c.deadData p t pid bs q
      else match q with
      | .good => if inLike then c.dataGood p t pid bs else ((c.notePid t.ep pid).countPid p).txnError p t false
      | .badCrc => (((c.expressSpoil t bs.length).notePid t.ep pid).countCrc p).txnError p t false
      | _ => ((c.expressSpoil t bs.length).countPid p).txnError p t false

/-! ### Handshakes (R206 to R211) -/

/-- R364, R437: bytes of a STREAM_JOB that the device has acknowledged are its PROGRESS, and end its stall. -/
def Chip.jobProgress (c : Chip) (ch : Chan) (k : Nat) : Chip :=
  match ch with
  | .svc s => match s.who with
    | .inst h tag =>
      if tag % 64 = Strm.jobTag then match (c.inst h).bind fun i => i.strm.job with
        | some o => (c.updOp o fun r => { r with progress := r.progress + k }).updInst h fun i =>
            { i with strm := { i.strm with stalled := false } }
        | none => c
      else c
    | .op i => c.updOp i fun r => { r with acked := r.acked + k }
    | _ => c
  | _ => c

/-- OUT data or a SETUP has been acknowledged by ACK or NYET (R140, R141, R145, R208, R209). -/
def Chip.ackOut (c : Chip) (p : Nat) (t : Txn) (nyet : Bool) : Chip :=
  let h := t.ep
  let c := c.clearStrikes h
  match c.chan h, c.ep h with
  | some ch, some e =>
    let x := ch.x
    match x.next with
    | .setup =>
      let c := c.updChan h fun x => { x with stage := if x.d.length = 0 then 3 else 1 }
      (c.updEp h fun e => { e with toggle := true }).txnOver p t .done
    | .statusOut => ((c.updEp h fun e => { e with ping := nyet && c.pings e x }).controlDone h ch).txnOver p t .done
    | .dataOut =>
      let ping := nyet && c.pings e x
      let c := c.updEp h fun e => { e with toggle := !e.toggle, ping := ping }
      let c := c.release h fun k => k.full && k.owner == x.count && k.off == x.done && x.d.dataOut && (match ch with | .raw _ _ _ => true | _ => false)
      let all := decide (x.done + t.sent = x.d.length)
      let control := x.d.ty == some .control
      let zlp := x.d.zlp && x.d.length != 0 && e.mps != 0 && x.d.length % e.mps == 0
      let c := c.updChan h fun x => { x with done := x.done + t.sent, stage := if control then (if all then 3 else 2) else x.stage }
      let c := c.jobProgress ch t.sent
      let c := if control then (if all then c.updEp h fun e => { e with toggle := true } else c)
        else if all && (!zlp || t.sent == 0) then c.endChan h St.success else c
      c.txnOver p t (c.afterGood p t)
    | _ => c.txnOver p t .done
  | _, _ => c.txnOver p t .done

/-- A STALL ends the descriptor, but in answer to a SETUP it is a transaction error (R140, R206). -/
def Chip.stalled (c : Chip) (p : Nat) (t : Txn) : Chip :=
  let setup : Bool := match c.chan t.ep with | some ch => ch.x.next == .setup | none => false
  if setup then (c.countPid p).txnError p t false
  else ((c.clearStrikes t.ep).endChan t.ep St.stall).txnOver p t .done

/-- A NAK (R184, R207, R209). -/
def Chip.naked (c : Chip) (p : Nat) (t : Txn) (endsTurn : Bool) : Chip :=
  let c := (c.clearStrikes t.ep).updChan t.ep fun x => { x with naks := satAdd 0xFFFF x.naks 1 }
  c.txnOver p t (if endsTurn then .turn true else .done)

/-- R223: what the device's answer to an LPM token does. -/
def Chip.lpmAnswer (c : Chip) (p pid : Nat) (ok : Bool) : Chip :=
  let c := c.updSc p fun s => { s with txn := none }
  if ok && pid == Pid.ack then
    let c := (c.updSc p PortSch.quiet).updPort p fun x =>
      { x with lpmErrs := 0, resided := false, idle := 0, nowHost := false, nowRws := false, thenSuspend := false }
    (c.setPort p .l1).portEvent p Ev.l1Enter
  else if ok && pid == Pid.nyet then c.updPort p fun x => { x with lpmErrs := 0, idle := 0 }
  else if ok && pid == Pid.stall then c.updPort p fun x => { x with lpmOk := false }
  else
    let n := (c.port p).lpmErrs + 1
    if 3 ≤ n then (c.updPort p fun x => { x with lpmErrs := 0, lpmOff := true, idle := 0 }).portEvent p Ev.lpmFail
    else c.updPort p fun x => { x with lpmErrs := n, idle := 0 }

/-- The last complete-split of a periodic sequence (R178). -/
def Txn.lastCs (t : Txn) : Bool :=
  match t.item with
  | some i => match i.kind with | .completeSplit l => l | _ => false
  | none => false

/-- R179: a periodic complete-split sequence ends without the data or the handshake. -/
def Chip.splitOver (c : Chip) (p : Nat) (t : Txn) : Chip :=
  let c := c.updSc p fun s => { s with owedCs := s.owedCs.filter fun k => k != t.ep }
  match t.item, (c.ep t.ep).map Ep.type with
  | some i, some .iso => (c.isoEnd p t.ep i St.splitError).txnOver p t .done
  | _, _ => (c.endChan t.ep St.splitError).txnOver p t .done

/-- A handshake in answer to a start-split (R211). -/
def Chip.ssAnswer (c : Chip) (p : Nat) (t : Txn) (pid : Nat) : Chip :=
  if pid = Pid.ack then (c.updSc p fun s => { s with owedCs := s.owedCs ++ [t.ep] }).txnOver p t (.turn false)
  else if pid = Pid.nak ∧ t.async then c.txnOver p t (.turn false)
  else (c.countPid p).txnError p t false

/-- A handshake in answer to a complete-split (R211). (DEDUCED, log 57) -/
def Chip.csAnswer (c : Chip) (p : Nat) (t : Txn) (pid : Nat) : Chip :=
  let out : Bool := match c.chan t.ep with | some ch => (match ch.x.next with | .dataIn | .statusIn => false | _ => true) | none => false
  let drop := c.updSc p fun s => { s with owedCs := s.owedCs.filter fun k => k != t.ep }
  if pid = Pid.nyet then
    if t.async then c.txnOver p t (.turn false) else if t.lastCs then c.splitOver p t else c.txnOver p t .done
  else if pid = Pid.err then c.txnError p t true
  else if pid = Pid.ack ∧ out then
    let t := { t with sent := match c.chan t.ep, c.ep t.ep with
      | some ch, some e => (match ch.x.next with | .dataOut => ((c.outData t.ep e.mps).getD []).length | _ => 0)
      | _, _ => 0 }
    (drop.notePid t.ep pid).ackOut p t false
  else if pid = Pid.nak then (drop.notePid t.ep pid).naked p t (!out)
  else if pid = Pid.stall then (drop.notePid t.ep pid).stalled p t
  else (c.countPid p).txnError p t false

/-- A well-formed handshake that ends the transaction on the wire. -/
def Chip.handshakeGood (c : Chip) (p : Nat) (t : Txn) (pid : Nat) : Chip :=
  match t.kind with
  | .lpm => c.lpmAnswer p pid true
  | .startSplit => c.ssAnswer p t pid
  | .completeSplit => c.csAnswer p t pid
  | .isoIn | .isoOut => (c.countPid p).txnError p t false
  | .setup =>
    let c := c.notePid t.ep pid
    if pid = Pid.ack then c.ackOut p t false else (c.countPid p).txnError p t false
  | .in_ =>
    let c := c.notePid t.ep pid
    if pid = Pid.nak then c.naked p t true
    else if pid = Pid.stall then c.stalled p t
    else (c.countPid p).txnError p t false
  | .out =>
    let c := c.notePid t.ep pid
    let hs : Bool := match (c.ep t.ep).bind fun e => c.dev e.dev with | some d => d.speed == .high | none => false
    if pid = Pid.ack then c.ackOut p t false
    else if pid = Pid.nyet ∧ hs then c.ackOut p t true
    else if pid = Pid.nak then
      let pings : Bool := match c.ep t.ep, c.chan t.ep with | some e, some ch => c.pings e ch.x | _, _ => false
      (if pings then c.updEp t.ep fun e => { e with ping := true } else c).naked p t false
    else if pid = Pid.stall then c.stalled p t
    else (c.countPid p).txnError p t false
  | .ping =>
    let c := c.notePid t.ep pid
    if pid = Pid.ack then ((c.clearStrikes t.ep).updEp t.ep fun e => { e with ping := false }).txnOver p t .follow
    else if pid = Pid.nak then c.naked p t true
    else if pid = Pid.stall then (c.updEp t.ep fun e => { e with ping := false }).stalled p t
    else (c.countPid p).txnError p t false

/-- R73, R207 to R209: a handshake ends an abandoned transaction: the toggle, the PING state and the error count follow. -/
def Chip.deadHandshake (c : Chip) (p : Nat) (t : Txn) (pid : Nat) (good : Bool) : Chip :=
  let hs := fun (e : Ep) => (match c.dev e.dev with | some d => d.speed == .high | none => false) && (e.type == .bulk || e.type == .control)
  let ends := fun (g : Ep → Ep) => (c.updEp t.ep fun e => g { e with strikes := 0 }).txnOver p t .done
  let bad := (c.countPid p).deadError p t
  if !good then bad
  else match t.kind with
  | .setup => if pid = Pid.ack then ends fun e => { e with toggle := true } else bad
  | .out =>
    if pid = Pid.ack ∨ pid = Pid.nyet then ends fun e => { e with toggle := !e.toggle, ping := pid == Pid.nyet && hs e }
    else if pid = Pid.nak then ends fun e => { e with ping := e.ping || hs e }
    else if pid = Pid.stall then ends id
    else bad
  | .ping =>
    if pid = Pid.ack ∨ pid = Pid.stall then ends fun e => { e with ping := false }
    else if pid = Pid.nak then ends id
    else bad
  | .in_ => if pid = Pid.nak ∨ pid = Pid.stall then ends id else bad
  | .completeSplit =>
    if pid = Pid.ack then ends fun e => { e with toggle := !e.toggle }
    else if pid = Pid.nak ∨ pid = Pid.stall then ends id
    else if pid = Pid.nyet then c.txnOver p t .done
    else bad
  | .startSplit => if pid = Pid.ack ∨ pid = Pid.nak then c.txnOver p t .done else bad
  | _ => bad

/-- HANDSHAKE_RECEIVED: a handshake from the device. -/
def Chip.handshake (c : Chip) (p pid : Nat) (q : RxQuality) : Chip :=
  match (c.port p).sc.txn with
  | none => c
  | some t =>
    match t.wait, q with
    | .late, _ => (c.updSc p fun s => { s with txn := none }).portSettle p
    | _, q =>
      if t.dead then c.deadHandshake p t pid (q == .good)
      else if q = .good then c.handshakeGood p t pid
      else if t.kind = .lpm then c.lpmAnswer p pid false
      else (c.countPid p).txnError p t (t.kind == .completeSplit)

/-- R204, R206, R215: the response timer expires; while a disconnect waits it is not counted as an error. -/
def Chip.responseTimeout (c : Chip) (p : Nat) : Chip :=
  match (c.port p).sc.txn with
  | none => c
  | some t =>
    if t.wait != .response then c
    else if t.kind = .lpm then c.lpmAnswer p 0 false
    else if (c.port p).waiting = some .disconnect then c.txnOver p t .done
    else if t.dead then (c.countTimeout p).deadError p t
    else (c.countTimeout p).txnError p t (t.kind == .completeSplit)

end Sys2Proof.Machine
end

