-- ==== Sys2Proof/Machine/PortEngine.lean ====
section
/-!
DEFINITION. The port engine's commands (chapters 05 and 06): microframe starts, transaction starts, answers, the
scheduler's plans, timers and lockstep recovery.
-/
namespace Sys2Proof.Machine

/-! ### Slips and the start of a port microframe (R166, R174, R188 to R191) -/

/-- R188, R191: an unstarted item of the microframe `m` slips. A start-split behind a translator is written off to its
endpoint's next service; a complete-split that is the last of its sequence ends the transaction (R179). -/
def Chip.slip (c : Chip) (p : Nat) (i : PlanItem) : Chip :=
  let first := decide (i.nom = (c.port p).sc.mfn) && i.pos == 0
  let count := fun (c : Chip) => if first then c.updSc p fun s => { s with slips := satAdd 0xFFFF s.slips 1 } else c
  let iso := (c.ep i.ep).any fun e => e.type == .iso
  match i.kind with
  | .service => (count c).updSc p fun s => { s with carried := s.carried ++ [i] }
  | .startSplit j =>
    if iso then (if j = 0 then ((count c).isoEnd p i.ep i St.missedService).countMissed p else c.isoEnd p i.ep i St.splitError)
    else (count c).updSc p fun s => { s with writeoff := satAdd 0xFFFF s.writeoff 1 }
  | .completeSplit l =>
    if l && (c.port p).sc.owedCs.contains i.ep then
      let c := c.updSc p fun s => { s with owedCs := s.owedCs.filter fun k => k != i.ep }
      if iso then c.isoEnd p i.ep i St.splitError else c.endChan i.ep St.splitError
    else c

/-- R189, R191: what becomes of a carried service at the start of microframe `m`. (DEDUCED, log 58). (DEDUCED, log
251). (DEDUCED, log 251) -/
def Chip.judgeCarried (c : Chip) (p : Nat) (m : Mfn) (i : PlanItem) : Chip × List PlanItem :=
  match c.ep i.ep with
  | none => (c, [])
  | some e =>
    let v := (e.resv.map Resv.interval).getD 1
    let d := mfnAfter m i.nom
    if e.type == .iso then
      if min (c.port p).sc.isoLag (v - 1) < d then ((c.isoEnd p i.ep i St.missedService).countMissed p, []) else (c, [i])
    else if v ≤ d then
      -- the plan for `m`, built before the slip was known, holds the service of the new nominal slot; where it found nothing
      -- to serve then, the pending one goes on for that slot
      let empty := (c.port p).sc.plans.any fun x => x.mfn == m && !x.items.any fun j => j.ep == i.ep
      (c.updSc p fun s => { s with writeoff := satAdd 0xFFFF s.writeoff (d / v) },
        if empty then [{ i with nom := i.nom + BitVec.ofNat 14 (v * (d / v)) }] else [])
    else (c, [i])

/-- The end of the running port microframe: what did not start slips, and what is carried is judged for `m`. -/
def Chip.endMf (c : Chip) (p : Nat) (m : Mfn) : Chip :=
  let left := (c.port p).sc.items
  let c := (c.updSc p fun s => { s with items := [] }).each left fun c i => c.slip p i
  let cs := (c.port p).sc.carried
  let c := c.updSc p fun s => { s with carried := [] }
  let r := cs.foldl (fun (a : Chip × List PlanItem) i =>
    let v := a.1.judgeCarried p m i
    (v.1, a.2 ++ v.2)) (c, [])
  r.1.updSc p fun s => { s with carried := r.2 }

/-- R171: carried services run oldest nominal microframe first. -/
def oldestFirst (m : Mfn) : List PlanItem → List PlanItem
  | [] => []
  | i :: r => (r.filter fun j => mfnAfter m i.nom < mfnAfter m j.nom) ++
      i :: (r.filter fun j => !(mfnAfter m i.nom < mfnAfter m j.nom))

/-- R184: the pointer and the order of the window are kept; a channel that joins is placed after the last. -/
def joinWindow (old new : List Nat) : List Nat := (old.filter new.contains) ++ new.filter fun h => !old.contains h

/-- R174, R191: what a hold does with the services due in microframe `m`: interrupt services slip, isochronous ones
end with MISSED_SERVICE, and owed complete-splits are sent. (DEDUCED, log 55) -/
def Chip.holdMf (c : Chip) (p : Nat) (m : Mfn) : Chip :=
  let c := c.updSc p fun s => { s with hold := true, holdMf := satAdd 0xFFFF s.holdMf 1 }
  let c := if c.sch.recovering then c
    else (c.updSc p fun s => { s with planLate := satAdd 0xFFFF s.planLate 1 }).report 0x0A0 Kind.timeout 0
  let c := c.each (c.epsOf p) fun c h => match c.ep h with
    | none => c
    | some e =>
      if e.resv.isNone then c
      else if e.type == .intr then
        let due := match e.nom with
          | some n => n == m
          | none => e.slotAt m
        if due && !e.halted && (c.chan h).isSome && !c.chanHeld h then
          (c.updSc p fun s => { s with slips := satAdd 0xFFFF s.slips 1 }).updEp h fun e =>
            if e.nom.isNone then { e with nom := some m, due := m } else e
        else c
      else if e.type == .iso && e.slotAt m then
        let r := c.planIso p h e m
        r.1.each r.2 fun c i =>
          if i.kind == .service || i.kind == .startSplit 0 then
            ((c.updSc p fun s => { s with slips := satAdd 0xFFFF s.slips 1 }).isoEnd p h i St.missedService).countMissed p
          else c
      else c
  let owed := (c.port p).sc.owedCs
  let cs := (c.epsOf p).flatMap fun h => if owed.contains h then (match c.ep h with
    | some e => e.splitItems h m
    | none => []) else []
  c.updSc p fun s => { s with items := cs }

/-- R171, R174: the port takes the plan for `m`, or goes on in hold. -/
def Chip.takePlan (c : Chip) (p : Nat) (m : Mfn) : Chip :=
  let s := (c.port p).sc
  let later := s.plans.filter fun x => x.mfn != m && decide (mfnAfter x.mfn m < 8192)
  match s.plans.find? fun x => x.mfn == m with
  | some x =>
    c.updSc p fun s => { s with hold := false, plans := later, items := oldestFirst m s.carried ++ x.items, carried := [],
                                window := joinWindow s.window x.window }
  | none => (c.updSc p fun s => { s with plans := later }).holdMf p m

/-- R167: the start item of microframe `m` at the port's speed. -/
def Chip.startItem (c : Chip) (p : Nat) (m : Mfn) : Chip :=
  match (c.port p).speed with
  | some .high => c.emit (.usb p (.sof m))
  | some .full => if m.toNat % 8 = 0 then c.emit (.usb p (.sof m)) else c
  | some .low => if m.toNat % 8 = 0 then c.emit (.usb p .keepAlive) else c
  | none => c

/-- R187, R198: the occupancy of the HS port microframe that has ended, if it had traffic: at least 1, at most 1.03;
what the gaps of R186 add is left open, so the value is free within that range (log 3). (DESIGN CHOICE, log 52) -/
def Chip.occupancy (c : Chip) (p : Nat) : Chip :=
  if c.hs p && (c.port p).sc.tokens then
    let v := c.fresh
    let r := 4096 + Config.freeGap v.1 % 123
    v.2.updSc p fun s => { s with ratio := r, ratioPeak := max s.ratioPeak r }
  else c

/-- R220, R221, R224: the resume or L1 exit whose K has ended enables the port. -/
def Chip.enableResumed (c : Chip) (p : Nat) (l1 : Bool) : Chip :=
  let x := c.port p
  let c := c.updPort p fun y => { y with
    st := .enabled, kEnded := false, tokHold := true, resValid := true,
    resHost := y.nowHost, resRws := y.nowRws, resL1 := l1, resMfn := c.mfn, nowHost := false, nowRws := false, idle := 0 }
  let c := if l1 then c else c.portEvent p Ev.resumed
  let c := if x.nowRws then c.updSc p fun s => { s with seenWake := s.seenWake + 1 } else c
  let c := c.sendPortStatus p x.nowHost x.nowRws l1
  if x.thenSuspend then (c.updPort p fun x => { x with thenSuspend := false, tokHold := false }).portAsk p .suspend else c

/-- R229, R228: what a SOF instant does to the port's engine: a planned swap, or the spare's start after a takeover. -/
def Chip.engineStart (c : Chip) (p : Nat) : Chip :=
  let c := match (c.port p).swap with
    | some b => c.swapNow p b
    | none => c
  if (c.port p).takeover && (c.port p).loaded then
    (c.updPort p fun x => { x with takeover := false, loaded := false, failovers := satAdd 255 x.failovers 1 }).portEvent p Ev.failover
  else c

/-- R166: the SOF instant of port `p` in the present device microframe. `excess`: the envelope detector's sample of the
SOF's EOP exceeds the disconnect threshold (R235). -/
def Chip.portStart (c : Chip) (p : Nat) (excess : Bool) : Chip :=
  let m := c.mfn
  let c := c.engineStart p
  let c := match (c.port p).st with
    | .resuming => if (c.port p).kEnded then c.enableResumed p false else c
    | .l1Resuming => if (c.port p).kEnded then c.enableResumed p true else c
    | _ => c
  if (c.port p).st != .enabled then
    c.updSc p fun s => { s with plans := s.plans.filter fun x => x.mfn != m && decide (mfnAfter x.mfn m < 8192), hold := false }
  else
    let c := (c.occupancy p).endMf p m
    let c := c.updPort p fun x => { x with idle := if x.sc.tokens then 0 else satAdd 255 x.idle 1 }
    let c := c.updSc p fun s => { s with lastN := s.asyncN, asyncN := 0, tokens := false, naked := [], mfn := m }
    let c := c.takePlan p m
    if (c.port p).takeover then c
    else
      let c := (c.startItem p m).updPort p fun x =>
        { x with ckptMfn := m, sofOver := if x.speed == some .high then (if excess then x.sofOver + 1 else 0) else 0 }
      if 3 ≤ (c.port p).sofOver then c.portAsk p .disconnect else c

/-! ### Starting transactions (R169, R171, R176, R184) -/

/-- What trying an item did. -/
inductive Tried where
  | started | dropped | slips
  deriving DecidableEq, Repr

/-- R296: the data cell of an OUT transfer holds poison: the descriptor ends with DATA_ERROR. -/
def Chip.outPoison (c : Chip) (h : Nat) : Bool :=
  match c.chan h with
  | some (.raw _ _ x) => x.next == .dataOut && (match c.outCell h x with | some k => k.poison | none => false)
  | _ => false

/-- An isochronous transaction that no packet answers is over once it is sent (R175, R177). -/
def Chip.isoSent (c : Chip) (p : Nat) (i : PlanItem) (e : Ep) (x : Xfer) (r : IsoPkt) : Chip :=
  let t : Txn := { ep := i.ep, kind := .isoOut, item := some i }
  match i.kind with
  | .startSplit j =>
    if x.d.dataOut then
      if r.req ≤ 188 * (j + 1) then (c.isoEnd p i.ep i St.success).txnOver p t .done else c.txnOver p t .done
    else (c.updSc p fun s => { s with owedCs := s.owedCs ++ [i.ep] }).txnOver p t .done
  | _ =>
    if (i.pos + 1) * e.mps < r.req then c.txnOver p t (.again { i with pos := i.pos + 1 })
    else (c.isoEnd p i.ep i St.success).txnOver p t .done

/-- The packet that an item of a split isochronous endpoint serves: that of its first start-split. -/
def Chip.isoItem (c : Chip) (e : Ep) (i : PlanItem) : PlanItem :=
  match i.kind with
  | .service | .startSplit 0 => i
  | _ => match e.wq.bind fun w => (c.wq w.1 w.2).bind fun q => q.work.find? fun (x : Xfer) => x.result.isNone && 0 < x.planned &&
        (match x.pkts[x.pkt]? with | some r => r.pstat.isNone | none => false) with
    | some x => { i with pkt := x.pkt }
    | none => i

/-- Try an isochronous item at bit time `t`. -/
def Chip.tryIso (c : Chip) (p t : Nat) (i : PlanItem) (e : Ep) : Chip × Tried :=
  let i := c.isoItem e i
  match c.isoFor e i.pkt with
  | none => (c, .dropped)
  | some (f, n, x, r) =>
    let owed := (c.port p).sc.owedCs.contains i.ep
    let past := match i.kind with
      | .startSplit j => 0 < j && decide (r.req ≤ 188 * j)
      | .completeSplit _ => !owed
      | .service => false
    if past then (c, .dropped)
    else if x.d.dataOut && (e.cells.any fun y => y.owner == x.count && y.pkt == i.pkt && y.poison) then
      (c.isoEnd p i.ep i St.dataError, .dropped)
    else if x.d.dataIn && e.empties == 0 && i.kind != .startSplit 0 then
      ((c.isoEnd p i.ep i St.missedService).countMissed p, .dropped)
    else
      let q := c.isoReq p e x r i.pkt i
      if !c.fitsAt p t q.need then (c, .slips)
      else
        let c := if i.kind == .startSplit 0 then c.updXfer f n x.count fun y => { y with pkt := i.pkt } else c
        let c := c.send p i.ep e q (some i) false
        (if q.kind == .isoOut || q.kind == .startSplit then c.isoSent p i e x r else c, .started)

/-- R189: an interrupt service starts in microframe `a`: a late one moves the endpoint's due microframe. -/
def Chip.serviceStart (c : Chip) (h : Nat) (i : PlanItem) (a : Mfn) : Chip :=
  if i.pos != 0 then c
  else c.updEp h fun e =>
    let debt := mfnAfter a i.nom
    match e.nom with
    | some n =>
      if n == i.nom + BitVec.ofNat 14 ((e.resv.map Resv.interval).getD 1) && decide (1 < debt) then
        { e with due := n + BitVec.ofNat 14 (debt - 1) }
      else e
    | none => e

/-- Try an interrupt item at bit time `t` (R176, R288, R296). -/
def Chip.tryIntr (c : Chip) (p t : Nat) (i : PlanItem) (e : Ep) : Chip × Tried :=
  match c.chan i.ep with
  | none => (c, .dropped)
  | some ch =>
    let cs := match i.kind with | .completeSplit _ => true | _ => false
    let owed := (c.port p).sc.owedCs.contains i.ep
    if e.halted || ch.x.cause.isSome || (cs && !owed) || (!cs && owed) then (c, .dropped)
    else if c.outPoison i.ep then (c.endChan i.ep St.dataError, .dropped)
    else if ch.x.next == .dataOut && (c.outData i.ep e.mps).isNone then (c, .dropped)
    else if ch.x.next == .dataIn && e.empties == 0 && !cs && !ch.x.express then
      (if i.pos = 0 then c.countSlotMissed i.ep else c, .dropped)
    else
      let q := c.reqFor p i.ep e ch.x cs
      if !c.fitsAt p t q.need then (c, .slips)
      else
        let c := if i.kind == .service then c.serviceStart i.ep i (c.port p).sc.mfn else c
        ((c.updChan i.ep fun x => { x with started := true }).send p i.ep e q (some i) false, .started)

/-- R171: the items of the plan are tried in order; one that does not fit slips. The result says whether one started. -/
def Chip.tryItems : Nat → Chip → Nat → Nat → Chip × Bool
  | 0, c, _, _ => (c, false)
  | k + 1, c, p, t =>
    match (c.port p).sc.items with
    | [] => (c, false)
    | i :: r =>
      let c := c.updSc p fun s => { s with items := r }
      match c.ep i.ep with
      | none => Chip.tryItems k c p t
      | some e =>
        if e.gone then Chip.tryItems k c p t
        else match (if e.type == .iso then c.tryIso p t i e else c.tryIntr p t i e) with
          | (c, .started) => (c, true)
          | (c, .dropped) => Chip.tryItems k c p t
          | (c, .slips) => Chip.tryItems k (c.slip p i) p t

/-- R178: the start-splits outstanding at a translator. -/
def Chip.ttOut (c : Chip) (p : Nat) (tt : Nat × Nat) : Nat :=
  ((c.port p).sc.owedCs.filter fun h => (c.ep h).any fun e => !e.periodic && c.tt e.dev == some tt).length

/-- R178, R184: an asynchronous channel is ready, and its translator takes a start-split. -/
def Chip.asyncReady (c : Chip) (p h : Nat) : Bool :=
  c.ready h && !c.chanHeld h && !c.stagedWait p h &&
  (match (c.ep h).bind fun e => c.tt e.dev with
   | some tt => (c.port p).sc.owedCs.contains h || decide (c.ttOut p tt < 2)
   | none => true)

/-- R184: the next channel of the window in turn, after `cur`. -/
def turnAfter (w : List Nat) (cur : Nat) (ok : Nat → Bool) : Option Nat :=
  match w.findIdx? fun h => h == cur with
  | some i => (w.drop (i + 1) ++ w.take (i + 1)).find? ok
  | none => w.find? ok

/-- R184: the channel that the asynchronous window serves now, and whether its turn is new. -/
def Chip.asyncPick (c : Chip) (p : Nat) : Option (Nat × Bool) :=
  let s := (c.port p).sc
  let rdy := s.window.filter (c.asyncReady p)
  let skip := if rdy.all s.naked.contains then [] else s.naked
  let ok := fun h => rdy.contains h && !skip.contains h
  match s.follow with
  | some h => if rdy.contains h then some (h, false) else (turnAfter s.window s.winPtr ok).map fun h => (h, true)
  | none =>
    if ok s.winPtr && decide (s.turn < ((c.ep s.winPtr).map Ep.weight).getD 1) then some (s.winPtr, false)
    else (turnAfter s.window s.winPtr ok).map fun h => (h, true)

/-- Start the next transaction of the asynchronous window at bit time `t`, if it fits. (DEDUCED, log 54) -/
def Chip.tryAsync : Nat → Chip → Nat → Nat → Chip
  | 0, c, _, _ => c
  | k + 1, c, p, t =>
    match c.asyncPick p with
    | none => c
    | some (h, new) =>
      match c.ep h, c.chan h with
      | some e, some ch =>
        if c.outPoison h then Chip.tryAsync k (c.endChan h St.dataError) p t
        else
          let q := c.reqFor p h e ch.x ((c.port p).sc.owedCs.contains h)
          if !c.fitsAt p t q.need then c
          else
            let c := c.updSc p fun s => { s with winPtr := h, turn := if new then 1 else s.turn + 1 }
            let c := c.updChan h fun x => { x with started := true, tmo := if x.tmo.isNone && x.d.tmo != 0 then some (8 * x.d.tmo) else x.tmo }
            c.send p h e q none true
      | _, _ => c

/-- TRANSACTION_START (R171, R176): at bit time `t` of the port microframe (of the frame at FS and LS) the engine starts
the first item that fits, or the next asynchronous transaction. -/
def Chip.txnStart (c : Chip) (p t : Nat) : Chip :=
  let x := c.port p
  if x.st != .enabled || x.tokHold || x.sc.txn.isSome || x.waiting.isSome || x.takeover then c
  else
    let r := Chip.tryItems (x.sc.items.length + 4) c p t
    if r.2 then r.1 else Chip.tryAsync 34 r.1 p t

/-- TRANSACTION_START (R176). -/
def execTransactionStart (p : Fin 128) (t : Fin 60000) (s : State) : Host.Outcome State Fault Refusal :=
  s.live fun c => if (c.clu (p / 8)).asleep then c else c.txnStart p t

/-- The room that the periodic items still to run need (R173). -/
def Chip.itemsNeed (c : Chip) (p : Nat) : Nat :=
  ((c.port p).sc.items.map fun i => match c.ep i.ep with
    | some e => if e.type == .iso then (match c.isoFor e i.pkt with
        | some (_, _, x, r) => (c.isoReq p e x r i.pkt i).need + 90
        | none => 0)
      else (match c.chan i.ep with
        | some ch => (c.reqFor p i.ep e ch.x false).need + 90
        | none => 0)
    | none => 0).sum

/-- EXPRESS_OUT_INSERT (R173): an EXPRESS INTR_OUT, the oldest descriptor of its endpoint, is inserted at bit time `t`. -/
def execExpressOutInsert (p : Fin 128) (h : Fin 8192) (t : Fin 60000) (s : State) : Host.Outcome State Fault Refusal :=
  s.live fun c =>
    let x := c.port p
    if x.st != .enabled || x.tokHold || x.sc.txn.isSome || x.waiting.isSome || x.takeover || c.epPort h != some p.val then c
    else match c.ep h, c.chan h with
      | some e, some ch =>
        if ch.x.express && ch.x.d.dataOut && !e.halted && ch.x.cause.isNone && !c.chanHeld h then
          let q := c.reqFor p h e ch.x false
          if c.fitsAt p t (q.need + 90 + c.itemsNeed p) || (x.sc.items.isEmpty && c.fitsAt p t q.need) then
            (c.updChan h fun x => { x with started := true }).send p h e q none false
          else c
        else c
      | _, _ => c

/-- R223, R224: no endpoint of the port's device has a descriptor in progress or staged, and no poll or tick of a bound
service falls due within the next 1 ms. -/
def Chip.treeIdle (c : Chip) (p : Nat) : Bool :=
  (c.epsOf p).all (fun h => (c.ep h).all fun e =>
    (e.svc.all fun s => s.isPoll) && (match e.wq with
      | some (f, n) => (match c.wq f n with | some q => q.work.all fun y => y.result.isSome | none => true)
      | none => true) &&
    (e.svc.isEmpty || (match e.nom with | some n => decide (8 < mfnAfter n c.mfn) && decide (mfnAfter n c.mfn < 8192) | none => false))) &&
  c.insts.all fun i => i.2.port != p || i.2.svc == .hlth || (match i.2.tick with
    | some (_, _, due) => decide (8 < mfnAfter due c.mfn) && decide (mfnAfter due c.mfn < 8192)
    | none => true)

/-- R223: the LPM conditions of port `p`. -/
def Chip.lpmReady (c : Chip) (p : Nat) : Bool :=
  let x := c.port p
  x.st == .enabled && !x.tokHold && x.waiting.isNone && !x.takeover && x.lpmEn && x.lpmOk && !x.lpmOff &&
  decide (max 1 x.l1Idle ≤ x.idle) && x.sc.txn.isNone && x.sc.items.isEmpty && c.treeIdle p

/-- LPM_TRANSACTION (R223): the EXT token and the LPM token are sent at bit time `t`, charged as a PING. -/
def execLpmTransaction (p : Fin 128) (t : Fin 60000) (s : State) : Host.Outcome State Fault Refusal :=
  s.live fun c => match (c.rootDev p).bind c.dev with
    | some d =>
      let hs := c.hs p
      if c.lpmReady p && c.fitsAt p t (charge .ping hs 0 (tokenLen hs Pid.ext d.addr 0) 0 0 - Charge.tail .ping hs) then
        let c := c.emit (.usb p (.token Pid.ext d.addr 0))
        let c := c.emit (.usb p (.lpm d.addr (c.port p).besl d.remoteWake))
        c.updSc p fun s => { s with tokens := true, txn := some { ep := 0xFFFF, kind := .lpm, async := true } }
      else c
    | none => c

/-! ### Answers (R204, R205) -/

/-- RESPONSE_SYNC (R204, R205): a SYNC stops the response timer; one without a transaction begins a late packet. -/
def execResponseSync (p : Fin 128) (s : State) : Host.Outcome State Fault Refusal :=
  s.live fun c => if (c.port p).st != .enabled then c
    else c.updSc p fun x => match x.txn with
      | some t => if t.wait = .response then { x with txn := some { t with wait := .packet } } else x
      | none => { x with txn := some { ep := 0xFFFF, kind := .lpm, wait := .late } }

/-- RESPONSE_TIMEOUT (R204). -/
def execResponseTimeout (p : Fin 128) (s : State) : Host.Outcome State Fault Refusal := s.live fun c => c.responseTimeout p

/-- DATA_PACKET_RECEIVED (R142, R206, R208, R210, R213). -/
def execDataPacketReceived (p : Fin 128) (pid : Byte) (bs : List Byte) (q : RxQuality) (s : State) :
    Host.Outcome State Fault Refusal := s.live fun c => c.dataPacket p pid.toNat bs q

/-- HANDSHAKE_RECEIVED (R206 to R211, R223). -/
def execHandshakeReceived (p : Fin 128) (pid : Byte) (q : RxQuality) (s : State) : Host.Outcome State Fault Refusal :=
  s.live fun c => c.handshake p pid.toNat q

/-- R213: the bit of EOF2 at the port's speed. -/
def eof2 : Option Speed → Nat
  | some .high => 59936
  | some .full => 11990
  | _ => 1498

/-- EOF2_REACHED (R213, R214): a device still transmitting disables the port. The descriptor on the bus completes with
BABBLE, the tree is detached, and BABBLE is reported. -/
def execEof2Reached (p : Fin 128) (transmitting : Bool) (s : State) : Host.Outcome State Fault Refusal :=
  s.live fun c =>
    if !transmitting || (c.port p).st != .enabled then c
    else
      let sp := (c.port p).speed
      let c := (c.countBabble p).report p Kind.babble (eof2 sp)
      let c := match (c.port p).sc.txn with
        | some t =>
          let c := c.updSc p fun s => { s with txn := none }
          if t.ep = 0xFFFF then c
          else match t.item, (c.ep t.ep).map Ep.type with
            | some i, some .iso => c.isoEnd p t.ep i St.babble
            | _, _ => c.endChan t.ep St.babble
        | none => c
      let c := (c.updSc p PortSch.quiet).updPort p fun x => { x with waiting := none, disabled100 := false, tokHold := false }
      (((c.setPort p .disabled).portEvent p Ev.disabled).detachTree p 0x04).happen p 0 (.enum p 0 0)

/-! ### Plans, the edge and the descriptor timers -/

/-- R193: plan building goes on. -/
def Chip.schedRuns (c : Chip) : Bool := c.mfnRuns && !(c.sch.recovering && decide (c.sch.step < 5))

/-- PLAN_BUILD (R170): in its build window port `p` gets its plan for the microframe two ahead, once. -/
def execPlanBuild (p : Fin 128) (s : State) : Host.Outcome State Fault Refusal :=
  s.live fun c =>
    let m := c.mfn + 2#14
    if !c.schedRuns || (c.clu (p / 8)).asleep || ((c.port p).sc.plans.any fun x => x.mfn == m) then c
    else
      let c := c.updSch fun s => { s with running := true, owedPlans := s.owedPlans.filter fun k => k != p.val }
      c.buildPlan p m

/-- JOIN_WORD (R172, R144): a newly consumed asynchronous channel joins the running window of at most 32. -/
def execJoinWord (p : Fin 128) (h : Fin 8192) (s : State) : Host.Outcome State Fault Refusal :=
  s.live fun c =>
    let w := (c.port p).sc.window
    if !c.schedRuns || (c.port p).st != .enabled || c.epPort h != some p.val || w.contains h || decide (32 ≤ w.length) then c
    else match c.ep h with
      | some e =>
        if e.periodic || e.gone || e.halted || (c.chan h).isNone then c
        else (c.startWindow [h.val]).updSc p fun s => { s with window := s.window ++ [h.val] }
      | none => c

/-- R193: the steps of a recovery that a device edge takes: plan building resumes at step 5, and step 6 ends it when
every plan is delivered. -/
def Chip.recoverEdge (c : Chip) : Chip :=
  if !c.sch.recovering then c
  else if c.sch.step = 4 then c.updSch fun s => { s with step := 5, owedPlans := List.range 128 }
  else if c.sch.step = 5 then
    let v := c.fresh
    v.2.updSch fun s => { s with recovering := false, step := 0, count := satAdd 0xFFFF s.count 1,
                                 lastDur := Config.freeNat v.1 % 601, owedPlans := [] }
  else c

/-- R144: the running TMO timers count one microframe. -/
def Xfer.tick (x : Xfer) : Xfer := { x with tmo := x.tmo.map fun k => k - 1 }
def Chip.tmoTick (c : Chip) : Chip :=
  { c with
    wqs := c.wqs.map fun e => (e.1, { e.2 with work := e.2.work.map Xfer.tick })
    eps := c.eps.map fun e => (e.1, { e.2 with svc := e.2.svc.map fun t => if t.x.started then { t with x := t.x.tick } else t }) }

/-- A service's transfer whose time has run out ends TIMEOUT, after the packet on the wire (R341). -/
def Chip.svcTimeouts (c : Chip) : Chip :=
  c.each ((c.eps.filter fun e => match e.2.svc.head? with
      | some t => t.x.tmo == some 0 && t.x.cause.isNone
      | none => false).map Prod.fst) fun c h =>
    if c.onWire h then c.updEp h fun e => { e with svc := match e.svc with
        | t :: r => { t with x := { t.x with cause := some St.timeout } } :: r
        | [] => [] }
    else c.svcEnd h St.timeout

/-- R284: draining starts for every IN channel with a data cell that is not draining. -/
def Chip.drainAll (c : Chip) : Chip :=
  { c with eps := c.eps.map fun e =>
      (e.1, if e.2.inst.isNone && (e.2.isIn || (match c.chan e.1 with | some ch => ch.x.d.dataIn | none => false)) then
        { e.2 with cells := e.2.cells.map fun k => if k.full then { k with draining := true } else k }
      else e.2) }

/-- DEVICE_MICROFRAME_EDGE (R12): MFN advances by one while the scheduler island runs. -/
def execDeviceMicroframeEdge (s : State) : Host.Outcome State Fault Refusal :=
  s.live fun c => if c.mfnRuns then ({ c with mfn := c.mfn + 1#14 }).tmoTick.svcTimeouts.drainAll.recoverEdge else c

/-- EDGE_WORD_COMPARE (R165): a cluster that is not locked locks; one whose word lies more than 2 port cycles from its own
edge reports PROTOCOL, and relocks at the next edge. -/
def execEdgeWordCompare (k : Fin 16) (off : Fin 15000) (s : State) : Host.Outcome State Fault Refusal :=
  s.live fun c =>
    if !c.mfnRuns || (c.clu k).asleep then c
    else if !(c.clu k).locked then c.updClu k fun x => { x with locked := true }
    else if 2 < off.val then (c.updClu k fun x => { x with locked := false }).report (0x080 + k) Kind.protocol 0
    else c

/-- DESCRIPTOR_TIMEOUT (R144): an expired TMO ends the descriptor after the packet on the wire; during a lockstep recovery
it is decided at the edge that starts e (R194). -/
def execDescriptorTimeout (f : Fin 128) (n : Fin 64) (count : Word) (s : State) : Host.Outcome State Fault Refusal :=
  s.live fun c => match (c.wq f n).bind fun q => q.work.find? fun x => x.count == count with
    | some x => if x.tmo = some 0 ∧ x.result.isNone ∧ c.schedRuns then c.causeEnd f n x St.timeout else c
    | none => c

/-- R290: the raw transfer of a channel whose pool wait has reached its limit ends; what it has received counts only so far
as it has been moved. -/
def Chip.poolAborted (c : Chip) (h f n : Nat) (x : Xfer) : Chip :=
  let c := c.updXfer f n x.count fun y => if y.d.dataIn then { y with done := min y.done y.moved } else y
  let c := if x.d.dataIn then c.release h fun k => k.full && k.owner == x.count else c
  let c := (c.updEp h fun e => { e with aborts := satAdd 0xFFFF e.aborts 1 }).setWaiting h false
  match (c.wq f n).bind fun q => q.work.find? fun y => y.count == x.count with
  | some y => (c.causeEnd f n y St.poolWaitAbort).supplyEp h
  | none => c

/-- POOL_WAIT_ABORT (R290). -/
def execPoolWaitAbort (h : Fin 8192) (s : State) : Host.Outcome State Fault Refusal :=
  s.live fun c => match c.ep h with
    | some e =>
      if !e.waiting || e.waitLim = 0 || c.grantable h then c
      else match c.chan h with
        | some (.raw f n x) => c.poolAborted h f n x
        | _ => c
    | none => c

/-! ### Lockstep recovery (R192 to R196) -/

/-- LOCKSTEP_MISMATCH (R192, R193, R196): recovery starts, or starts again, at step 1. ADDR is the SRAM address of the
context being worked on. -/
def execLockstepMismatch (addr : BitVec 40) (s : State) : Host.Outcome State Fault Refusal :=
  s.live fun c =>
    if !c.mfnRuns then c
    else ({ c with sch := { c.sch with recovering := true, running := false, step := 1, at_ := c.mfn } }).report 0x0A1 Kind.lockstep addr.toNat

/-- R195: a context word reloaded with an uncorrectable symbol: the device's contexts end with DETACHED, its owner gets a
detach message, and ENUM resets and enumerates the device's position again. -/
def Chip.contextLost (c : Chip) (group h : Nat) : Chip :=
  let c := c.report (0x0E0 + group) Kind.uncorrectable 0
  match c.dev h with
  | some d =>
    let c := c.each (c.subtree h).reverse fun c k => c.detachDev k 0x06
    c.happen d.port 0 (.enum d.port 7 ((d.parent.map fun q => 256 * (q.1 + 1) + q.2).getD 0))
  | none => c

/-- LOCKSTEP_RELOAD_DONE (R193 step 4, R195): the contexts are reloaded; `lost` are the SRAM bank groups and device handles
of context words that carry an uncorrectable symbol. -/
def execLockstepReloadDone (lost : List (Fin 16 × Fin 2048)) (s : State) : Host.Outcome State Fault Refusal :=
  s.live fun c =>
    if c.sch.recovering && decide (c.sch.step < 4) then
      (c.updSch fun s => { s with step := 4 }).each lost fun c e => c.contextLost e.1 e.2
    else c

end Sys2Proof.Machine
end

