-- ==== Sys2Proof/Machine/PortPower.lean ====
section
/-!
DEFINITION. Port power (R236 to R256): the port power link, the cluster monitor, and the power reactions. The commands
that a power-state entry also takes part in stand in Machine/Power.lean.
-/
namespace Sys2Proof.Machine

/-- R508: port `p` is out of service. -/
def Chip.outOfService (c : Chip) (p : Nat) : Bool := c.tst.portBad.contains p

/-- The fault source of cluster `k` (R472). -/
def cluSrc (k : Nat) : Nat := 0x080 + k

/-! ### The port power link (R236 to R240) -/

/-- R237: CRC-4 over a bit list, first bit first. -/
def crc4 (bs : List Bool) : Nat :=
  bs.foldl (fun c b => let s := c * 2 % 16; if c.testBit 3 != b then s ^^^ 3 else s) 0

/-- The bits of a number, highest first. -/
def bitsHigh (n v : Nat) : List Bool := (bitsOf n v).reverse

/-- R239, R242, R497: cluster `k` runs: it is awake, self-test has passed it, and its island has power. -/
def Chip.cluRuns (c : Chip) (k : Nat) : Bool :=
  c.tst.postdone && !(c.clu k).asleep && !(Tab.get (fun _ => {}) c.tst.clu k : TstClu).cluFail &&
  (c.pwr.st == .active || c.pwr.st == .entering || c.pwr.st == .doze || (c.pwr.st == .exiting && decide (8 ≤ c.pwr.step)))

/-- The number that 8 flags spell, flag i at bit i. -/
def mask8 (p : Nat → Bool) : Nat := ((List.range 8).map fun i => b2n (p i) * 2 ^ i).sum

/-- R236, R246, R247: the frame that starts now in cluster `k`: what its ports' EN bits become, and the ports whose
power has been removed go to OFF. HOLD frames carry the bits in force. (DEDUCED, log 241) -/
def Chip.pplFrame (c : Chip) (k : Nat) : Chip :=
  if !c.cluRuns k || (c.clu k).stopped then c
  else
    let ports := (List.range 8).map fun i => 8 * k + i
    let hold := (c.clu k).holding
    let c := if hold then c
      else c.each ports fun c p => c.updPw p fun x => { x with en := x.want && !x.removing && !c.tst.safe && !c.outOfService p }
    let en := mask8 fun i => (c.port (8 * k + i)).pw.en
    let ilim := mask8 fun i => (c.port (8 * k + i)).pw.en && (c.port (8 * k + i)).pw.ilimHi
    let c := c.emit (.ppl k (if hold then 2 else 1) en ilim)
    if hold then c
    else c.each ports fun c p =>
      if (c.port p).pw.removing then (c.updPw p fun x => { x with removing := false }).offNow p 0x03 else c

/-- PPL_FRAME_START (R236). -/
def execPplFrameStart (k : Fin 16) (s : State) : Host.Outcome State Fault Refusal := s.run fun c => c.pplFrame k

/-- R243: VWIN of a filtered code. -/
def vwin (v : Nat) : Nat := if v ≤ 8799 then 0 else if v ≤ 11000 then 1 else if v ≤ 11500 then 2 else 3

/-- R244: power good: the port goes from OFF to DISCONNECTED, and a POWER message tells of a return of power. -/
def Chip.judgeGood (c : Chip) (p : Nat) : Chip :=
  let x := (c.port p).pw
  if x.awaiting && x.want && x.healthy && x.filtOn && vwin x.filt == 1 && (c.port p).st == .off then
    let c := c.updPw p fun y => { y with awaiting := false, removed := false }
    let c := c.setPort p .disconnected
    if x.removed then c.sendPower p 0 else c
  else c

/-- R249, R252: the flags of one enabled switch in a valid return frame. (DEDUCED, log 71) -/
def Chip.judgeFlags (c : Chip) (p : Nat) (oc health : Bool) : Chip :=
  let c := c.updPw p fun y => { y with
    ocRun := if oc then y.ocRun + 1 else 0
    healthRun := if health then 0 else y.healthRun + 1
    healthy := health && !oc }
  let x := (c.port p).pw
  let c := if 2 ≤ x.ocRun then
      ((c.updPw p fun y => { y with ocCnt := satAdd 255 y.ocCnt 1 }).report p Kind.overcurrent 0)
    else c
  let c := if 2 ≤ x.healthRun then
      ((c.updPw p fun y => { y with swCnt := satAdd 255 y.swCnt 1 }).report p Kind.range 0)
    else c
  if 2 ≤ x.ocRun then c.removePower p 2 else if 2 ≤ x.healthRun then c.removePower p 5 else c.judgeGood p

/-- R239: the link of cluster `k` is restored: the ports that were powered at the loss are to be enabled again, in
ascending switch order, 10 ms apart. -/
def Chip.linkRestored (c : Chip) (k : Nat) : Chip :=
  let c := c.updClu k fun x => { x with lost := false, byReset := false, good := 0, linkUp := true }
  c.each ((List.range 8).map fun i => 8 * k + i) fun c p => c.updPw p fun y =>
    if y.poweredAtLoss then { y with poweredAtLoss := false, enableDue := some (y.enableDue.getD false) } else y

/-- R239, R240, R248: a valid return frame of RTYPE `rt`. (DEDUCED, log 76) -/
def Chip.pplValid (c : Chip) (k rt oc health : Nat) : Chip :=
  let c := c.updClu k fun x => { x with
    oc := oc
    health := health
    held := rt == 2
    linkUp := x.linkUp || !x.lost
    good := if x.lost then x.good + 1 else 0 }
  let c := c.each (List.range 8) fun c i =>
    let p := 8 * k + i
    let c := c.updPw p fun y => { y with oc := oc.testBit i, health := health.testBit i }
    if (c.port p).pw.en && !(c.port p).pw.removing then c.judgeFlags p (oc.testBit i) (health.testBit i) else c
  if (c.clu k).lost && decide (10 ≤ (c.clu k).good) then c.linkRestored k else c

/-- R239: the 22 bits of slots 24 to 45, judged at the end of slot 45: valid or not, with RTYPE, OC and HEALTH. -/
def pplReturn (w : BitVec 22) : Option (Nat × Nat × Nat) :=
  let rt := w.toNat / 2 ^ 20
  if (rt = 1 ∨ rt = 2) ∧ crc4 (bitsHigh 18 (w.toNat / 16)) = w.toNat % 16 then
    some (rt, w.toNat / 2 ^ 12 % 256, w.toNat / 16 % 256)
  else none

/-- R239: an invalid return frame. -/
def Chip.pplInvalid (c : Chip) (k : Nat) : Chip :=
  (c.updClu k fun x => { x with crcErr := satAdd 0xFFFF x.crcErr 1, good := 0 }).report (cluSrc k) Kind.protocol 0

/-- PPL_LINK_TIMEOUT (R239): 100 µs without a valid return frame: the link is lost, and every powered port of the cluster
loses its power with reason LINK. -/
def execPplLinkTimeout (k : Fin 16) (s : State) : Host.Outcome State Fault Refusal :=
  s.run fun c =>
    if !c.cluRuns k || (c.clu k).lost || (c.clu k).holding then c
    else
      let c := c.updClu k fun x => { x with lost := true, byReset := false, linkUp := false, good := 0, losses := satAdd 0xFFFF x.losses 1 }
      let c := (c.report (cluSrc k) Kind.linkDown 0).shPulse k
      c.each ((List.range 8).map fun i => 8 * k.val + i) fun c p =>
        if (c.port p).pw.want then (c.removePower p 6).updPw p fun y => { y with poweredAtLoss := true } else c

/-! ### Enabling (R244, R245, R253, R620) -/

/-- R244, R245, R620: an enable of port `p`, counting as a retry or not. It is deferred while the link is lost.
(DEDUCED, log 70) -/
def Chip.enablePort (c : Chip) (p : Nat) (retry : Bool) : Chip :=
  let x := c.port p
  if x.pw.pwrOff || x.st == .isolated || c.outOfService p || c.tst.safe || x.st == .test then
    c.updPw p fun y => { y with enableDue := none }
  else if (c.clu (p / 8)).lost then c.updPw p fun y => { y with enableDue := some retry }
  else if x.pw.want then c.updPw p fun y => { y with enableDue := none }
  else c.updPw p fun y => { y with
    want := true, awaiting := true, healthy := false, enableDue := none, retryDue := false
    retried := if retry then satAdd 7 y.retried 1 else y.retried
    samples := [], filtOn := false, lowRun := 0, highRun := 0, highTold := false, overRun := 0, ocRun := 0, healthRun := 0 }

/-- PORT_POWER_ENABLE (R245): a staged, delayed or deferred enable falls due. -/
def execPortPowerEnable (p : Fin 128) (s : State) : Host.Outcome State Fault Refusal :=
  s.run fun c => match (c.port p).pw.enableDue with
    | some r => c.enablePort p r
    | none => c

/-- POWER_RETRY (R253): RETRYDLY seconds after the removal. -/
def execPowerRetry (p : Fin 128) (s : State) : Host.Outcome State Fault Refusal :=
  s.run fun c =>
    if (c.port p).pw.retryDue then (c.updPw p fun y => { y with retryDue := false }).enablePort p true else c

/-- RETRY_COUNT_CLEAR (R253): the port has stayed powered for 10 s. -/
def execRetryCountClear (p : Fin 128) (s : State) : Host.Outcome State Fault Refusal :=
  s.run fun c => c.updPw p fun y => if y.want && !y.awaiting then { y with retried := 0 } else y

/-- R250: a brown-out of port `p`. -/
def Chip.brownOut (c : Chip) (p : Nat) : Chip :=
  ((c.updPw p fun y => { y with boCnt := satAdd 255 y.boCnt 1 }).report p Kind.undervolt 0).removePower p 3

/-- POWER_GOOD_TIMEOUT (R244). -/
def execPowerGoodTimeout (p : Fin 128) (s : State) : Host.Outcome State Fault Refusal :=
  s.run fun c => if (c.port p).pw.awaiting then c.brownOut p else c

/-- R508: a write of a port out of service sets CMDERR. -/
def Chip.cmdErr (c : Chip) (p : Nat) : Chip := c.portEvent p Ev.cmdErr

/-- R245, R246: a write of PWROFF. -/
def Chip.pwrOffWrite (c : Chip) (p : Nat) (b : Bool) : Chip :=
  if (c.port p).pw.pwrOff = b then c
  else if b then
    (c.updPw p fun y => { y with pwrOff := true, retryDue := false, poweredAtLoss := false }).removePower p 1
  else c.updPw p fun y => { y with pwrOff := false, enableDue := some false }

/-- R253: a write of RETRY: the count clears and the port is enabled at once. -/
def Chip.retryWrite (c : Chip) (p : Nat) : Chip :=
  (c.updPw p fun y => { y with retried := 0 }).enablePort p false

/-- PWROFF_WRITE (R246, R508). -/
def execPwroffWrite (p : Fin 128) (b : Bool) (s : State) : Host.Outcome State Fault Refusal :=
  s.run fun c => if c.outOfService p then c.cmdErr p else c.pwrOffWrite p b

/-- PRT_PWRCTRL_RETRY (R253, R508, R620). -/
def execPrtPwrctrlRetry (p : Fin 128) (s : State) : Host.Outcome State Fault Refusal :=
  s.run fun c => if c.outOfService p then c.cmdErr p else c.retryWrite p

/-- R256: the port stops driving DM. -/
def Chip.cdpStop (c : Chip) (p : Nat) : Chip :=
  if (c.port p).pw.cdpDrive then (c.updPw p fun y => { y with cdpDrive := false }).emit (.usb p (.cdp false)) else c

/-- A write of PRT_PWRCTRL (R268): PWROFF, ILIMHI and RETRY. (DEDUCED, log 78) -/
def Chip.pwrCtrlWrite (c : Chip) (p : Nat) (w : Word) : Chip :=
  if c.outOfService p then c.cmdErr p
  else
    let c := (c.updPw p fun y => { y with ilimHi := bit w 1 }).pwrOffWrite p (bit w 0)
    let c := if bit w 1 then c else c.cdpStop p
    if bit w 2 then c.retryWrite p else c

/-! ### The monitor (R241 to R243, R250, R251, R254) -/

/-- Insert into a sorted list; sort a list. -/
def insertSorted (a : Nat) : List Nat → List Nat
  | [] => [a]
  | b :: r => if a ≤ b then a :: b :: r else b :: insertSorted a r
def sortNats (l : List Nat) : List Nat := l.foldr insertSorted []

/-- R242: the median of at most 4 samples. -/
def median (l : List Nat) : Nat :=
  let s := sortNats l
  match s.length with
  | 0 => 0
  | 1 => s.getD 0 0
  | 2 => (s.getD 0 0 + s.getD 1 0) / 2
  | 3 => s.getD 1 0
  | _ => (s.getD 1 0 + s.getD 2 0) / 2

/-- R242: the filter after a median; the shift is arithmetic. -/
def filtNext (on : Bool) (filt med k : Nat) : Nat :=
  if on then ((filt : Int) + ((med : Int) - (filt : Int)) / (2 ^ min k 4 : Nat)).toNat else med

/-- R250, R251: the windows of a powered port after a reading. (DESIGN CHOICE, log 235) -/
def Chip.judgeWindows (c : Chip) (p : Nat) : Chip :=
  let w := vwin (c.port p).pw.filt
  let high := decide (11501 ≤ (c.port p).pw.median)
  let c := c.updPw p fun y => { y with
    lowRun := if w == 0 && !y.awaiting then y.lowRun + 1 else 0
    highRun := if w == 2 then y.highRun + 1 else 0
    highTold := y.highTold && w == 2
    overRun := if high then y.overRun + 1 else 0 }
  let x := (c.port p).pw
  let c := if 10 ≤ x.highRun ∧ !x.highTold then (c.updPw p fun y => { y with highTold := true }).report p Kind.range 0 else c
  let c := if 2 ≤ x.overRun then
      ((c.updPw p fun y => { y with ovCnt := satAdd 255 y.ovCnt 1, overRun := 0 }).report p Kind.overvolt 0)
    else c
  if max 1 x.boDly ≤ x.lowRun then c.brownOut p
  else if 2 ≤ x.overRun then c.removePower p 4
  else c.judgeGood p

/-- R254: shed one powered port of cluster `k`: the highest SHED, then the highest switch position. -/
def Chip.shedOne (c : Chip) (k : Nat) : Chip :=
  let ps := ((List.range 8).map fun i => 8 * k + i).filter fun p => (c.port p).pw.want
  match firstBy (fun a b => (c.port b).pw.shed < (c.port a).pw.shed || ((c.port a).pw.shed == (c.port b).pw.shed && b < a)) ps with
  | some p => c.removePower p 7
  | none => c

/-- R242, R254: a current reading of cluster `k`. -/
def Chip.senseCurrent (c : Chip) (k v : Nat) : Chip :=
  let c := c.updClu k fun x =>
    let s := (v :: x.samples).take 4
    { x with samples := s, median := median s, filt := filtNext x.filtOn x.filt (median s) x.iirk, filtOn := true }
  let x := c.clu k
  if x.limit = 0 ∨ x.filt ≤ x.limit then c.updClu k fun x => { x with overRun := 0, shedding := false }
  else
    let c := c.updClu k fun x => { x with overRun := x.overRun + 1 }
    if 3 ≤ x.overRun + 1 ∧ !x.shedding then
      (((c.updClu k fun x => { x with shedding := true }).report (cluSrc k) Kind.overcurrent 0).shPulse k).shedOne k
    else c

/-- R241 to R244, R250, R251: a voltage reading of port `p`. -/
def Chip.senseVolts (c : Chip) (p v : Nat) : Chip :=
  let k := (c.clu (p / 8)).iirk
  let c := c.updPw p fun y =>
    let s := (v :: y.samples).take 4
    { y with samples := s, median := median s, filt := filtNext y.filtOn y.filt (median s) k, filtOn := true }
  if (c.port p).pw.en && (c.port p).pw.want then c.judgeWindows p else c

/-- MONITOR_CONVERSION (R241): the converter of cluster `k` takes a raw sample of a channel: VBSN of positions 0 to 7, or
8 for ISNS. -/
def execMonitorConversion (k : Fin 16) (ch : Fin 9) (raw : Fin 16384) (s : State) : Host.Outcome State Fault Refusal :=
  s.run fun c =>
    if !c.cluRuns k then c
    else if ch.val = 8 then c.senseCurrent k (correct (c.monCal k 8) raw)
    else c.senseVolts (8 * k + ch) (correct (c.monCal k ch) raw)

/-- LOAD_SHED_REPEAT (R254). -/
def execLoadShedRepeat (k : Fin 16) (s : State) : Host.Outcome State Fault Refusal :=
  s.run fun c => if (c.clu k).shedding && c.cluRuns k then c.shedOne k else c

/-! ### Charging (R256) -/

/-- CDP_DETECT (R256): DP has lain in the range for 5 ms. -/
def execCdpDetect (p : Fin 128) (s : State) : Host.Outcome State Fault Refusal :=
  s.run fun c =>
    let c := c.updPw p fun y => { y with cdpSeen := true }
    let x := c.port p
    if x.pw.cdpEn && x.pw.ilimHi && x.pw.en && (x.st == .disconnected || x.st == .connecting) && !x.pw.cdpDrive then
      (c.updPw p fun y => { y with cdpDrive := true }).emit (.usb p (.cdp true))
    else c

/-- CDP_DP_RANGE_EXIT (R256). -/
def execCdpDpRangeExit (p : Fin 128) (s : State) : Host.Outcome State Fault Refusal := s.run fun c => c.cdpStop p

end Sys2Proof.Machine
end

