-- ==== Sys2Proof/Machine/Ports.lean ====
section
/-!
DEFINITION. Port commands, line events, reset, resume and L1 timing, and compliance test modes (R200 to R235).
-/
namespace Sys2Proof.Machine

/-! ### Commands (R201, R202, R216 to R222, R229) -/

/-- R202: CMDBUSY: a command is still being carried out. -/
def Port.busy (x : Port) : Bool :=
  x.waiting.isSome || x.st == .resetting || (x.st == .resuming && x.nowHost) || x.thenSuspend || x.swap.isSome

/-- PRT_STATUS of port `p` (R231). -/
def Chip.prtStatus (c : Chip) (p : Nat) : Word :=
  let x := c.port p
  mkWord [(x.st.code, 8), (Speed.code x.speed, 6), (b2n x.spare, 5), (b2n x.lpmOk, 4), (b2n x.lpmOff, 3), (b2n x.tokHold, 2),
    (b2n x.busy, 1)]

/-- Drive K (R220, R224). -/
def Chip.startK (c : Chip) (p : Nat) : Chip := (c.updPort p fun x => { x with driveK := true }).emit (.usb p .driveK)

/-- R214: attach detection restarts. (DEDUCED, log 72) -/
def Chip.redetect (c : Chip) (p : Nat) : Chip := (c.updPort p Port.bare).setPort p .disconnected

/-- RESET (R201, R216, R218). (DEDUCED, log 65) -/
def Chip.cmdReset (c : Chip) (p : Nat) : Chip :=
  if (c.port p).busy then c.cmdErr p
  else match (c.port p).st with
    | .enabled => c.portAsk p .reset
    | .suspended | .l1 => c.resetNow p
    | .disabled => c.redetect p
    | _ => c.cmdErr p

/-- SUSPEND (R201, R219, R224). -/
def Chip.cmdSuspend (c : Chip) (p : Nat) : Chip :=
  if (c.port p).busy then c.cmdErr p
  else match (c.port p).st with
    | .enabled => c.portAsk p .suspend
    | .l1 => c.updPort p fun x => { x with thenSuspend := true }
    | _ => c.cmdErr p

/-- RESUME (R201, R220, R222); `counting`: the line-state filter is counting K in this port cycle. -/
def Chip.cmdResume (c : Chip) (p : Nat) (counting : Bool) : Chip :=
  let x := c.port p
  if x.st = .resuming ∧ x.nowRws ∧ ¬ x.nowHost then c
  else if x.busy then c.cmdErr p
  else match x.st with
    | .suspended =>
      let c := (c.updPort p fun x => { x with nowHost := true, nowRws := counting }).setPort p .resuming
      if x.resided then c.startK p else c
    | _ => c.cmdErr p

/-- The running ENGINE test of cluster `k`'s spare, target 0x80 + k, or of the engine of a port of it (R510). -/
def Chip.engineTest (c : Chip) (target : Nat) : Option Op :=
  c.ops.recs.find? fun o => o.kind == .engine && o.st != .done && bits (dw o.cmd 5) 15 8 == target

/-- R229: the cluster's spare serves another port than `p`, is under test, or is marked failed. -/
def Chip.spareTaken (c : Chip) (p : Nat) : Bool :=
  (c.clu (p / 8)).spareFailed || (c.engineTest (0x80 + p / 8)).isSome ||
  (List.range 8).any fun i =>
    let q := 8 * (p / 8) + i
    q != p && ((c.port q).spare || (c.port q).takeover || (c.port q).swap == some true)

/-- R229, R574: a planned swap: at the next SOF instant, or at once in a state that has none. (DEDUCED, log 68) -/
def Chip.planSwap (c : Chip) (p : Nat) (toSpare : Bool) : Chip :=
  if (c.port p).st = .enabled then c.updPort p fun x => { x with swap := some toSpare } else c.swapNow p toSpare

/-- SPARE (R229). (DEDUCED, log 67) -/
def Chip.cmdSpare (c : Chip) (p : Nat) : Chip :=
  if (c.port p).busy || (c.port p).takeover || c.spareTaken p then c.cmdErr p
  else if (c.port p).spare then c else c.planSwap p true

/-- RETURN (R229). -/
def Chip.cmdReturn (c : Chip) (p : Nat) : Chip :=
  if (c.port p).busy || (c.port p).takeover || (c.port p).ownFailed then c.cmdErr p
  else if (c.port p).spare then c.planSwap p false else c

/-- REARM (R201). -/
def Chip.cmdRearm (c : Chip) (p : Nat) : Chip :=
  if (c.port p).st = .isolated then (c.setPort p .off).enablePort p false else c.cmdErr p

/-- R508, R467: the port engine takes no command: the port is out of service, or its cluster has no power. (DEDUCED,
log 66) -/
def Chip.cmdBlocked (c : Chip) (p : Nat) : Bool := c.outOfService p || !c.cluRuns (p / 8)

/-- R202, R231: a command by its code in PRT_CTRL.CMD. -/
def Chip.portCmd (c : Chip) (p code : Nat) (counting : Bool := false) : Chip :=
  if code = 0 then c
  else if c.cmdBlocked p then c.cmdErr p
  else match code with
    | 1 => c.cmdReset p
    | 2 => c.cmdSuspend p
    | 3 => c.cmdResume p counting
    | 4 => c.cmdRearm p
    | 5 => c.cmdSpare p
    | 6 => c.cmdReturn p
    | _ => c.cmdErr p

/-! ### Leaving DOZE (R454, R458, R460) -/

/-- R459 step 8, R460: a port that a sleep suspended is resumed: as the device's own resume where its K was the wake
(R222), else as a host resume. -/
def Chip.autoPort (c : Chip) (p : Nat) : Chip :=
  if (c.port p).st != .suspended then c
  else if c.pwr.woken.contains p then
    ((c.updPort p fun x => { x with nowHost := false, nowRws := true }).setPort p .resuming).startK p
  else c.cmdResume p false

/-- The recorded ports are resumed, but those of clusters that sleep or rise on their own. -/
def Chip.autoResume (c : Chip) : Chip :=
  let l := c.pwr.auto.filter fun p => !(c.clu (p / 8)).asleep && (c.clu (p / 8)).slStep == 0
  let c := c.each l Chip.autoPort
  { c with pwr := { c.pwr with auto := c.pwr.auto.filter fun p => !l.contains p, woken := c.pwr.woken.filter fun p => !l.contains p } }

/-- R460: DOZE ends on the wake sources `bs`. The times that the registers then show are free values. -/
def Chip.dozeExit (c : Chip) (bs : List Nat) : Chip :=
  let v := c.fresh
  let c := v.2
  let c := { c with pwr := { c.pwr with
    st := .active
    step := 0
    wakeSrc := bs.foldl (fun a b => a ||| 2 ^ b) c.pwr.wakeSrc
    slept := Config.freeNat v.1 % 2 ^ 32
    dur := Config.freeNat (v.1 + 1) % 2 ^ 24
    retries := 0
    wakePort := none
    ungated := []
    dramWait := true } }
  let c := (({ c with free := c.free + 1 }).pollsDue fun _ => true).releaseLatches.autoResume
  c.each ((List.range 128).filter fun p => !(c.port p).run.acts.isEmpty || !(c.port p).run.todo.isEmpty) fun c p =>
    let idle : Bool := match (c.port p).run.acts with
      | .admission :: _ => true
      | [] => (c.port p).run.job.isNone
      | _ => false
    if idle then c.happen p 0 (.enum p 6 0) else c

/-- A level wake of DOZE: a doorbell (6), PWR_CTRL.EXIT (7), a port that becomes ENABLED (8). In an entry to DOZE it is
kept, and judged as Cleat's next step (R450, R453, R468). -/
def Chip.dozeWake (c : Chip) (b : Nat) : Chip :=
  if c.pwr.st = .doze then c.dozeExit [b]
  else if c.pwr.st = .entering ∧ c.pwr.target = .doze then
    { c with pwr := { c.pwr with levels := if c.pwr.levels.contains b then c.pwr.levels else c.pwr.levels ++ [b] } }
  else c

/-- PORT_MICROFRAME_START (R166). While the port's cluster has no power nothing is sent (R449, R459). A port that becomes
ENABLED wakes the device from DOZE (R454). -/
def execPortMicroframeStart (p : Fin 128) (excess : Bool) (s : State) : Host.Outcome State Fault Refusal :=
  s.live fun c =>
    if !c.cluRuns (p / 8) then c
    else
      let d := c.portStart p excess
      if (c.port p).st != .enabled && (d.port p).st == .enabled then d.dozeWake 8 else d

/-- PF0's register writes reach the port while the fabric island runs and the device is not in its safe state (R501). -/
def Chip.regsLive (c : Chip) : Bool := c.fabricRuns && !c.tst.safe

/-- PORT_RESET (R216): RESET from PRT_CTRL.CMD. -/
def execPortReset (p : Fin 128) (s : State) : Host.Outcome State Fault Refusal :=
  s.live fun c => if c.regsLive then c.portCmd p 1 else c

/-- PORT_SUSPEND (R219). -/
def execPortSuspend (p : Fin 128) (s : State) : Host.Outcome State Fault Refusal :=
  s.live fun c => if c.regsLive then c.portCmd p 2 else c

/-- PORT_RESUME (R220, R222). -/
def execPortResume (p : Fin 128) (counting : Bool) (s : State) : Host.Outcome State Fault Refusal :=
  s.live fun c => if c.regsLive then c.portCmd p 3 counting else c

/-- REARM (R201). -/
def execRearm (p : Fin 128) (s : State) : Host.Outcome State Fault Refusal :=
  s.live fun c => if c.regsLive then c.portCmd p 4 else c

/-- SPARE (R229). -/
def execSpare (p : Fin 128) (s : State) : Host.Outcome State Fault Refusal :=
  s.live fun c => if c.regsLive then c.portCmd p 5 else c

/-- RETURN (R229). -/
def execReturnCmd (p : Fin 128) (s : State) : Host.Outcome State Fault Refusal :=
  s.live fun c => if c.regsLive then c.portCmd p 6 else c

/-! ### Compliance test modes (R230) -/

/-- R230: TEST is entered: the owner sees the port as disconnected, and its power is removed (R246). (DEDUCED, log 63)
-/
def Chip.testEnter (c : Chip) (p m : Nat) : Chip :=
  let c := (c.removePower p 1).updPort p fun x => { x.bare with testMode := m }
  (((c.updSc p PortSch.quiet).setPort p .test).detachTree p 0x08).emit (.usb p (.testMode m))

/-- R230: TEST ends by a power cycle: OFF, and an enable 100 ms later. -/
def Chip.testLeave (c : Chip) (p : Nat) : Chip :=
  let c := (c.updPort p fun x => { x with testMode := 0 }).setPort p .off
  (c.emit (.usb p .idle)).updPw p fun y => { y with want := false, enableDue := some false }

/-- R230: a write of TESTMODE. -/
def Chip.testModeWrite (c : Chip) (p m : Nat) : Chip :=
  let st := (c.port p).st
  if m = 0 then (if st = .test then c.testLeave p else c)
  else if c.cmdBlocked p then c.cmdErr p
  else if m ≤ 5 ∧ (st = .disconnected ∨ st = .suspended ∨ st = .disabled) then c.testEnter p m
  else c.cmdErr p

/-- TEST_MODE_SET (R230). -/
def execTestModeSet (p : Fin 128) (m : Fin 8) (s : State) : Host.Outcome State Fault Refusal :=
  s.live fun c => if c.regsLive then c.testModeWrite p m else c

/-- TEST_MODE_CLEAR (R230). -/
def execTestModeClear (p : Fin 128) (s : State) : Host.Outcome State Fault Refusal :=
  s.live fun c => if c.regsLive then c.testModeWrite p 0 else c

/-! ### DISABLED (R214) -/

/-- R214: AUTOREC takes a value. -/
def Chip.autoRec (c : Chip) (p : Nat) (b : Bool) : Chip :=
  let c := c.updPort p fun x => { x with autoRec := b }
  if b && (c.port p).st == .disabled && (c.port p).disabled100 then c.redetect p else c

/-- AUTOREC_WRITE (R214). -/
def execAutorecWrite (p : Fin 128) (b : Bool) (s : State) : Host.Outcome State Fault Refusal :=
  s.live fun c => if c.regsLive then c.autoRec p b else c

/-- AUTOREC_EXPIRY (R214): 100 ms have passed in DISABLED. -/
def execAutorecExpiry (p : Fin 128) (s : State) : Host.Outcome State Fault Refusal :=
  s.live fun c =>
    if (c.port p).st = .disabled then
      let c := c.updPort p fun x => { x with disabled100 := true }
      if (c.port p).autoRec then c.redetect p else c
    else c

/-- A write of PRT_CTRL (R231): LPMEN, AUTOREC, TESTMODE and CMD. -/
def Chip.prtCtrlWrite (c : Chip) (p : Nat) (w : Word) : Chip :=
  let c := (c.updPort p fun x => { x with lpmEn := bit w 16 }).autoRec p (bit w 15)
  (c.testModeWrite p (bits w 10 8)).portCmd p (bits w 3 0)

/-! ### The reset sequence (R216, R234) -/

/-- DEVICE_CHIRP (R234): a device chirp K held for 300 port cycles; the host chirp follows. -/
def execDeviceChirp (p : Fin 128) (s : State) : Host.Outcome State Fault Refusal :=
  s.live fun c =>
    let x := c.port p
    if x.st = .resetting ∧ x.pullup = 2 ∧ ¬ x.chirpOver ∧ ¬ x.chirped then
      (c.updPort p fun x => { x with chirped := true }).emit (.usb p .chirpK)
    else c

/-- CHIRP_WINDOW_END (R234): 7.0 ms without a chirp: the port comes up at FS. -/
def execChirpWindowEnd (p : Fin 128) (s : State) : Host.Outcome State Fault Refusal :=
  s.live fun c =>
    let x := c.port p
    if x.st = .resetting ∧ x.pullup = 2 ∧ ¬ x.chirped then c.updPort p fun x => { x with chirpOver := true } else c

/-- HOST_CHIRP_STOP (R234). -/
def execHostChirpStop (p : Fin 128) (s : State) : Host.Outcome State Fault Refusal :=
  s.live fun c => if (c.port p).st = .resetting ∧ (c.port p).chirped then c.emit (.usb p .chirpStop) else c

/-- RESET_SE0_END (R216 step 4, R234): the port is ENABLED at the detected speed, its tokens held. -/
def execResetSe0End (p : Fin 128) (s : State) : Host.Outcome State Fault Refusal :=
  s.live fun c =>
    if (c.port p).st = .resetting then
      let c := c.updPort p fun x => { x with
        speed := some (if x.pullup == 1 then .low else if x.chirped then .high else .full)
        chirped := false, chirpOver := false, tokHold := true, afterReset := true, idle := 0 }
      let c := ((c.emit (.usb p .idle)).setPort p .enabled).portEvent p Ev.resetDone
      (c.each (c.treeWqs p) fun c w => c.updWq w.1 w.2 fun q => { q with suspHold := false }).dozeWake 8
    else c

/-! ### Resume and L1 (R220, R224) -/

/-- RESUME_DELAY_END (R220): 5 ms of SUSPENDED have passed; a waiting host resume starts its K. -/
def execResumeDelayEnd (p : Fin 128) (s : State) : Host.Outcome State Fault Refusal :=
  s.live fun c =>
    let x := c.port p
    if x.st = .suspended then c.updPort p fun x => { x with resided := true }
    else if x.st = .resuming ∧ ¬ x.driveK ∧ ¬ x.kEnded then
      (c.updPort p fun x => { x with resided := true }).startK p
    else c

/-- The K of a resume or L1 exit ends with an LS EOP (R220 step 3, R224). -/
def Chip.endK (c : Chip) (p : Nat) (st : PortSt) : Chip :=
  if (c.port p).st = st ∧ (c.port p).driveK then
    (c.updPort p fun x => { x with driveK := false, kEnded := true }).emit (.usb p .lsEop)
  else c

/-- RESUME_K_END (R220). -/
def execResumeKEnd (p : Fin 128) (s : State) : Host.Outcome State Fault Refusal := s.live fun c => c.endK p .resuming

/-- L1_RESUME_K_END (R224). -/
def execL1ResumeKEnd (p : Fin 128) (s : State) : Host.Outcome State Fault Refusal := s.live fun c => c.endK p .l1Resuming

/-- R224: L1 is left, by the Vetia or by the device's K. -/
def Chip.leaveL1 (c : Chip) (p : Nat) (host rws : Bool) : Chip :=
  let c := (c.updPort p fun x => { x with nowHost := host, nowRws := rws }).setPort p .l1Resuming
  (c.portEvent p Ev.l1Exit).startK p

/-- L1_EXIT (R224): 50 µs of L1 have passed and an exit condition holds; `counting` as in R222. -/
def execL1Exit (p : Fin 128) (counting : Bool) (s : State) : Host.Outcome State Fault Refusal :=
  s.live fun c =>
    if (c.port p).st = .l1 ∧ ((c.port p).thenSuspend ∨ ¬ c.treeIdle p) then c.leaveL1 p true counting else c

/-! ### Line states (R232 to R235) -/

/-- R233: a connect: J with DP high is a full-speed pull-up, J with DM high a low-speed one. -/
def Chip.connect (c : Chip) (p : Nat) (dmHigh : Bool) : Chip :=
  (c.updPort p fun x => { x with pullup := if dmHigh then 1 else 2 }).setPort p .connecting

/-- R232, R233, R235: the filtered line state of port `p` becomes `l`; `dmHigh`: DM is the line that is high in J. -/
def Chip.lineChange (c : Chip) (p : Nat) (l : Line) (dmHigh : Bool) : Chip :=
  let x := c.port p
  let take := c.updPort p fun x => { x with line := l }
  match x.st with
  | .disconnected => if l = .se0 then take else take.connect p dmHigh
  | .connecting => if l = .se0 then ((take.updPort p fun x => { x with pullup := 0 }).setPort p .disconnected) else take
  | .suspended =>
    if l = .se0 then take.disconnectNow p
    else if l = .k then
      ((take.updPort p fun x => { x with nowHost := false, nowRws := true }).setPort p .resuming).startK p
    else take
  | .l1 => if l = .se0 then take.disconnectNow p else if l = .k then take.leaveL1 p false true else take
  | .enabled => if x.speed = some .high then c else if l = .se0 then take.portAsk p .disconnect else take
  | .disabled => if l = .se0 then take.disconnectNow p else c
  | _ => c

/-- LINE_STATE_CHANGE (R232). -/
def execLineStateChange (p : Fin 128) (l : Line) (dmHigh : Bool) (s : State) : Host.Outcome State Fault Refusal :=
  s.live fun c => if !c.cluRuns (p / 8) || c.outOfService p || c.tst.safe then c else c.lineChange p l dmHigh

/-- DEBOUNCE_END (R233): the debounce passes and ENUM issues RESET. -/
def execDebounceEnd (p : Fin 128) (s : State) : Host.Outcome State Fault Refusal :=
  s.live fun c => if (c.port p).st = .connecting ∧ c.cluRuns (p / 8) then c.resetNow p else c

end Sys2Proof.Machine
end

