-- ==== Sys2Proof/Machine/UsbDesc.lean ====
section
/-!
DEFINITION. What ENUM and the services read in USB descriptors (R258, R266, R345, R352, R361): the parts of a
configuration set, the interfaces and endpoints of its settings.
-/
namespace Sys2Proof.Machine

/-- The descriptors of a set, in order; none when it does not parse: one whose length is below 2 or runs past the end. -/
def splitDescs : Nat → List Byte → Option (List (List Byte))
  | 0, bs => if bs.isEmpty then some [] else none
  | k + 1, bs =>
    if bs.isEmpty then some []
    else
      let n := byteAt bs 0
      if n < 2 || bs.length < n then none
      else (splitDescs k (bs.drop n)).map fun r => bs.take n :: r

def descsOf (bs : List Byte) : List (List Byte) := (splitDescs bs.length bs).getD []
def descType (d : List Byte) : Nat := byteAt d 1

/-- R258 step 5: a configuration set parses: its descriptors fill it, the first is a configuration descriptor, and each
interface or endpoint descriptor has its fields. -/
def setParses (bs : List Byte) : Bool :=
  match splitDescs bs.length bs with
  | some (d :: r) => descType d == 2 && 9 ≤ d.length &&
      r.all fun x => (descType x != 4 || 9 ≤ x.length) && (descType x != 5 || 7 ≤ x.length)
  | _ => false

/-- An interface setting of a set: its interface descriptor and the descriptors that follow it. -/
structure IfDesc where
  head : List Byte
  rest : List (List Byte)
  deriving DecidableEq, Repr

def IfDesc.num (i : IfDesc) : Nat := byteAt i.head 2
def IfDesc.alt (i : IfDesc) : Nat := byteAt i.head 3
def IfDesc.cls (i : IfDesc) : Nat := byteAt i.head 5
def IfDesc.sub (i : IfDesc) : Nat := byteAt i.head 6
def IfDesc.proto (i : IfDesc) : Nat := byteAt i.head 7
def IfDesc.eps (i : IfDesc) : List (List Byte) := i.rest.filter fun d => descType d == 5

/-- Group a list of descriptors by the interface descriptor before them. -/
def groupIfs : List (List Byte) → List IfDesc
  | [] => []
  | d :: r =>
    let g := groupIfs r
    if descType d = 4 then { head := d, rest := r.takeWhile fun x => descType x != 4 } :: g else g

/-- The interface settings of a configuration set. -/
def ifsOf (cfg : List Byte) : List IfDesc := groupIfs (descsOf cfg)

/-- The endpoint context that an endpoint descriptor gives, on device `dev` (R266). -/
def epOfDesc (dev : Nat) (i : IfDesc) (d : List Byte) : Ep :=
  let ty : EpType := match byteAt d 3 % 4 with
    | 0 => .control
    | 1 => .iso
    | 2 => .bulk
    | _ => .intr
  Ep.withDefaults { dev := dev, addr := byteAt d 2, type := ty, wMax := halfAt d 4, bInterval := byteAt d 6,
                    iface := i.num, alt := i.alt }

/-- The endpoint contexts of the selected settings; `only`: of one interface. -/
def settingEps (dev : Nat) (cfg : List Byte) (alts : Nat → Nat) (only : Option Nat) : List Ep :=
  (ifsOf cfg).flatMap fun i =>
    if i.alt = alts i.num ∧ (only = none ∨ only = some i.num) then i.eps.map (epOfDesc dev i) else []

/-- The selected alternate setting of an interface. -/
def Dev.altOf (d : Dev) (i : Nat) : Nat := Tab.get (fun _ => 0) d.alts i

/-- bConfigurationValue of the stored set. -/
def Dev.setVal (d : Dev) : Nat := byteAt d.cfg 5

/-- R258 step 6: the BOS set reports LPM: its USB 2.0 extension has attribute bit 1. -/
def bosLpm (bs : List Byte) : Bool :=
  (descsOf bs).any fun d => descType d == 0x10 && byteAt d 2 == 2 && (byteAt d 3 / 2) % 2 == 1

/-- R258 step 2: the control packet sizes that USB 2.0 allows. -/
def mps0Ok (sp : Speed) (n : Nat) : Bool :=
  match sp with
  | .low => n == 8
  | .full => n == 8 || n == 16 || n == 32 || n == 64
  | .high => n == 64

end Sys2Proof.Machine
end

