-- ==== Sys2Proof/Machine/Enum.lean ====
section
/-!
DEFINITION. ENUM (R257 to R266): enumeration, hubs, restoration after a reset, and the requests of functions. Its work
on a port is a list of actions, one after the other; each step is a task of the port's ENUM flow (R304).
-/
namespace Sys2Proof.Machine

/-! ### Identifiers (R257) -/

/-- The next handle below `lim`: one never used (which one is left open: log 3), else the one freed longest ago. -/
def Chip.pickHandle (c : Chip) (used freed : List Nat) (lim : Nat) : Option Nat × Chip :=
  let l := (List.range lim).filter fun h => !used.contains h && !freed.contains h
  if l.isEmpty then (freed.head?, c)
  else (l[Config.freeHandle c.free % l.length]?, { c with free := c.free + 1 })

def Chip.newDevHandle (c : Chip) : Option Nat × Chip :=
  c.pickHandle ((c.devs.filter fun e => !e.2.detached).map Prod.fst) c.handles.devFreed 0x800
def Chip.newEpHandle (c : Chip) : Option Nat × Chip := c.pickHandle (c.eps.map Prod.fst) c.handles.epFreed 0x2000

/-- Take handles for a list of contexts, each put in its place at once. None when there are not enough. -/
def Chip.placeEps : Chip → List Ep → Option (List Nat × Chip)
  | c, [] => some ([], c)
  | c, e :: r =>
    match c.newEpHandle with
    | (some h, c) =>
      let c := { c with eps := Tab.put c.eps h e, handles := { c.handles with epFreed := c.handles.epFreed.erase h } }
      (Chip.placeEps c r).map fun x => (h :: x.1, x.2)
    | (none, _) => none

/-- The lowest USB address free on a root port's bus. -/
def Chip.freeAddr (c : Chip) (p : Nat) : Nat :=
  let used := ((c.devs.filter fun e => !e.2.detached && e.2.port == p).map fun e => e.2.addr) ++
    ((c.port p).kept.map Prod.snd)
  ((List.range 128).find? fun a => 0 < a && !used.contains a).getD 0

/-- The candidate's own number while it has no handle, and its default control endpoint's. -/
def candDev (p : Nat) : Nat := 0x800 + p
def candEp (p : Nat) : Nat := 0x2000 + p

/-- The default control endpoint of a device or of the candidate. -/
def Chip.enumEp (c : Chip) (p dev : Nat) : Option Nat := if dev = candDev p then some (candEp p) else c.ep0 dev

/-! ### Requests (R258, R259) -/

/-- (DEDUCED, log 79) -/
def getDesc (type i idx len : Nat) : Word × Word := (setup0 0x80 6 (type * 256 + i), setup1 idx len)
def hubFeature (set : Bool) (f k : Nat) : Word × Word := (setup0 0x23 (if set then 3 else 1) f, setup1 k 0)
def hubStatus (k : Nat) : Word × Word := (setup0 0xA3 0 0, setup1 k 4)

def act (step dev : Nat) (s : Word × Word) (use : EnumUse) (soft : Bool := false) : EnumAct :=
  .req step dev s.1 s.2 use soft

/-- R259 step 6: reset a hub port. -/
def hubResetActs (hub k : Nat) : List EnumAct :=
  [act 1 hub (hubFeature true 4 k) .none, .wait 10, act 1 hub (hubStatus k) .resetEnd]

/-- R258 steps 2 to 5; what follows depends on what they return. -/
def freshActs (p addr : Nat) : List EnumAct :=
  [act 2 (candDev p) (getDesc 1 0 0 8) .desc8, act 3 (candDev p) (setup0 0 5 addr, setup1 0 0) (.address addr), .wait 2,
   act 4 (candDev p) (getDesc 1 0 0 18) .desc18, act 5 (candDev p) (getDesc 2 0 0 9) .cfgHead]

/-- R258 steps 6 to 11, once the configuration set has been read. -/
def laterActs (p : Nat) (d : Dev) : List EnumAct :=
  (if 0x0201 ≤ halfAt d.desc 2 then [act 6 (candDev p) (getDesc 15 0 0 255) .bos true] else []) ++
  (if byteAt d.desc 16 != 0 then [act 7 (candDev p) (getDesc 3 0 0 255) .langs true] else []) ++ [.admission]

/-- R259 steps 2 and 3, once the hub descriptor has been read. -/
def hubPowerActs (dev n good : Nat) : List EnumAct :=
  ((List.range n).map fun i => act 10 dev (hubFeature true 8 (i + 1)) .none) ++ [.wait (max 100 (2 * good))]

def wakeActs (dev : Nat) : List EnumAct := [act 9 dev (setup0 0 3 1, setup1 0 0) .wake]

/-- R260: the restoration of device `h`; a hub port is powered with its hub and reset before its device. -/
def Chip.restoreActs (c : Chip) (h : Nat) (reset : Bool) : List EnumAct :=
  match c.dev h with
  | none => []
  | some d =>
    [.next h] ++ (match d.parent with | some (hub, k) => if reset then hubResetActs hub k else [] | none => []) ++
    [act 3 h (setup0 0 5 d.addr, setup1 0 0) (.address d.addr), .wait 2,
     act 4 h (getDesc 1 0 0 18) .sameDesc, act 5 h (getDesc 2 d.cfgIdx 0 (max 9 d.cfg.length)) .sameCfg] ++
    (if d.cfgVal = 0 then [] else [act 9 h (setup0 0 9 d.cfgVal, setup1 0 0) .none]) ++
    ((d.alts.filter fun a => a.2 != 0).map fun a => act 9 h (setup0 1 11 a.2, setup1 a.1 0) .none) ++
    (if d.remoteWake then wakeActs h else []) ++ (if d.hub && d.cfgVal != 0 then hubPowerActs h d.nPorts d.pwrGood else [])

/-! ### Running the actions -/

/-- A new number for the request or wait that begins. (DESIGN CHOICE, log 227) -/
def Chip.nextGen (c : Chip) (p : Nat) : Chip := c.updRun p fun r => { r with gen := r.gen + 1 }

/-- Issue a request on a device's default control endpoint, and make the task that takes its outcome (R304, R306). -/
def Chip.enumIssue (c : Chip) (p step dev : Nat) (s0 s1 : Word) : Chip :=
  let c := (c.nextGen p).updRun p fun r => { r with step := step }
  match c.enumEp p dev with
  | none => c.happen p 0 (.enum p 3 (c.port p).run.gen)
  | some h =>
    let x : SvcXfer := { who := .enum p, x := { count := 0#32, d := mkDesc 1 (bits s1 31 16) s0 s1 } }
    (c.queueSvc h x).happen p 1 (.enum p 3 (c.port p).run.gen)

/-- The head of the list of actions is begun if it waits for something. -/
def Chip.enumBegin (c : Chip) (p : Nat) : Chip :=
  match (c.port p).run.acts with
  | .req step dev s0 s1 _ _ :: _ => c.enumIssue p step dev s0 s1
  | .wait _ :: _ =>
    let c := c.nextGen p
    c.happen p 1 (.enum p 4 (c.port p).run.gen) false true
  | _ => c

def Chip.setActs (c : Chip) (p : Nat) (l : List EnumAct) : Chip := c.updRun p fun r => { r with acts := l, tries := 0 }

/-- End ENUM's present job. -/
def Chip.enumEnd (c : Chip) (p : Nat) : Chip :=
  c.updRun p fun r => { r with
    job := none, acts := [], step := 0, tries := 0, resets := 0, repeated := false, readings := 0, dev := 0xFFFF, gen := r.gen + 1 }

/-- The request that a job serves. -/
def EnumJob.req : EnumJob → Option (Nat × Nat × Word)
  | .request f n count => some (f, n, count)
  | .restore _ r => r
  | .reset _ r => r
  | _ => none

/-- A descriptor of a WQ by its count. -/
def Chip.xfer (c : Chip) (f n : Nat) (count : Word) : Option Xfer :=
  (c.wq f n).bind fun q => q.work.find? fun (x : Xfer) => x.count == count && x.result.isNone

/-- The request of the present job succeeds, or fails in its service (R266, R340). -/
def Chip.enumReqOk (c : Chip) (p : Nat) : Chip :=
  match (c.port p).run.job.bind EnumJob.req with
  | some (f, n, count) => match c.xfer f n count with
    | some x => c.svcOk f n x
    | none => c
  | none => c
/-- (DEDUCED, log 85) -/
def Chip.enumReqFail (c : Chip) (p detail value : Nat) : Chip :=
  match (c.port p).run.job.bind EnumJob.req with
  | some (f, n, count) => match c.xfer f n count with
    | some x => c.svcFail (0x800 + f) f n x detail value
    | none => c
  | none => c
/-- R279, R340: SET_CONFIG or SET_ALT fails for want of handles or reserves; which detail it has is a free value.
(DEDUCED, log 247) -/
def Chip.enumReqLack (c : Chip) (p : Nat) : Chip :=
  let v := c.fresh
  (v.2.enumReqFail p (Config.freeNat v.1 % 256) 0).enumEnd p
/-- It completes with another status, with LENGTH 0. -/
def Chip.enumReqEnd (c : Chip) (p status : Nat) : Chip :=
  match (c.port p).run.job.bind EnumJob.req with
  | some (f, n, count) => c.finishWith f n count status fun e => { e with length := 0 }
  | none => c

/-! ### The candidate (R258, R261, R263) -/

/-- R258 step 2: the candidate at a position, at address 0, with its default control endpoint. -/
def Chip.newCandidate (c : Chip) (p : Nat) (at_ : Option (Nat × Nat)) (sp : Speed) : Chip :=
  let depth := match at_.bind fun a => c.dev a.1 with | some d => d.depth + 1 | none => 0
  let d : Dev := { port := p, parent := at_, zero := true, depth := depth, speed := sp }
  let e : Ep := Ep.withDefaults { dev := candDev p, addr := 0, type := .control, wMax := if sp = .low then 8 else 64, dflt := true }
  { c with devs := Tab.put c.devs (candDev p) d, eps := Tab.put c.eps (candEp p) e }

/-- The candidate and its contexts go. -/
def Chip.dropCandidate (c : Chip) (p : Nat) : Chip :=
  let c := c.each ((c.eps.filter fun e => e.2.dev == candDev p).map Prod.fst) fun c h => c.endEp h
  { c with devs := Tab.erase c.devs (candDev p), eps := Tab.erase c.eps (candEp p) }

/-- R263: the enumeration fails. With `keep` the device keeps its address (DEPTH, RESOURCE); else it stays at address
0, behind a disabled hub port (log: CLEAR_FEATURE(PORT_ENABLE)). A hub port whose change is waiting to be looked into
has lost its device: nothing is sent (R261). (DEDUCED, log 81; DEDUCED, log 82) -/
def Chip.enumFail (c : Chip) (p status reason : Nat) (keep : Bool := false) : Chip :=
  match (c.port p).run.job with
  | some (.fresh at_ _ _) =>
    let step := (c.port p).run.step
    let gone : Bool := match at_ with | some (h, k) => (c.port p).run.todo.contains (.change h k) | none => false
    let a := match c.dev (candDev p) with | some d => d.addr | none => 0
    let c := c.dropCandidate p
    let c := if keep then c.updPort p fun x => { x with kept := x.kept ++ [(at_, a)] } else c
    let c := if gone then c else c.sendEnumFail p at_ step status reason
    match at_ with
    | some (h, k) =>
      if keep || gone then c.enumEnd p
      else (c.enumEnd p).updRun p fun r => { r with job := some (.change h 0), acts := [act 0 h (hubFeature false 1 k) .none true, .finish] }
    | none => c.enumEnd p
  | _ => c.enumEnd p

/-- Begin the enumeration of a position that has been reset: no address is kept there any more. Without a reserve for
its default control endpoint it fails (R279). (DEDUCED, log 248) -/
def Chip.enumFresh (c : Chip) (p : Nat) (at_ : Option (Nat × Nat)) (reason : Nat) (sp : Option Speed) (before : List EnumAct) : Chip :=
  let speed := (sp.orElse fun _ => (c.port p).speed).getD .full
  let c := (c.dropCandidate p).updPort p fun x => { x with kept := x.kept.filter fun k => k.1 != at_ }
  let full := c.freeCells < 2
  let c := c.newCandidate p at_ speed
  let c := c.updRun p fun r => { r with job := some (.fresh at_ reason sp), resets := 0 }
  if full then (c.updRun p fun r => { r with step := 2 }).enumFail p 0 4 true
  else c.setActs p (before ++ freshActs p (c.freeAddr p))

/-! ### Admission and contexts (R183, R258 steps 8 and 9, R266) -/

/-- The contexts of a device that are not its default control endpoint; of one interface, if given. -/
def Chip.ctxOf (c : Chip) (dev : Nat) (only : Option Nat) : List Nat :=
  (c.eps.filter fun e => e.2.dev == dev && !e.2.dflt && !e.2.gone && (only == none || only == some e.2.iface)).map Prod.fst

/-- R279: the reserves of contexts can be set aside from cells neither held nor reserved, those of `skip` having gone. -/
def Chip.reservesFit (c : Chip) (es : List Ep) (skip : List Nat) : Bool :=
  let back := (skip.map fun h => match c.ep h with | some e => max e.heldCells e.reserve | none => 0).sum
  decide ((es.map Ep.reserve).sum ≤ c.freeCells + back)

/-- Judge the contexts of settings, those of `skip` having gone: no handles or reserves for them (none), admission refused
(left), or the chip with them under new handles with their reservations (right). -/
def Chip.judge (c : Chip) (p : Nat) (es : List Ep) (skip : List Nat) : Option (Nat ⊕ Chip) :=
  if !c.reservesFit es skip then none
  else match c.placeEps es with
  | none => none
  | some (hs, c1) =>
    match Chip.admitAll p ((c.port p).speed.getD .high) skip c (hs.zip es) with
    | none => some (.inl 0)
    | some l => some (.inr (c1.each l fun c e => { c with eps := Tab.put c.eps e.1 e.2 }))

/-- The contexts for a configuration value, or for an alternate setting of an interface. -/
def Chip.wantEps (c : Chip) (dev v : Nat) (alt : Option (Nat × Nat)) : List Ep :=
  match c.dev dev with
  | none => []
  | some d => match alt with
    | some (i, a) => settingEps dev d.cfg (fun _ => a) (some i)
    | none => if v = 0 then [] else settingEps dev d.cfg (fun _ => 0) none

/-- R183: the device has accepted: the old contexts end as DETACHED and the new ones come. -/
def Chip.newSetting (c : Chip) (p dev v : Nat) (alt : Option (Nat × Nat)) : Chip :=
  let old := c.ctxOf dev (alt.map Prod.fst)
  let r := c.judge p (c.wantEps dev v alt) old
  let c := c.each old fun c h => c.endEp h
  let c := match r with
    | some (.inr _) => (match c.judge p (c.wantEps dev v alt) [] with | some (.inr c) => c | _ => c)
    | _ => c
  c.updDev dev fun d => match alt with
    | some (i, a) => { d with alts := Tab.set (fun _ => 0) d.alts i a }
    | none => { d with cfgVal := v, alts := [] }

/-- R258 step 8: admission of the candidate. -/
def Chip.enumAdmit (c : Chip) (p : Nat) : Chip :=
  match c.dev (candDev p) with
  | none => c.enumEnd p
  | some d =>
    let c := c.updRun p fun r => { r with step := 8 }
    if d.hub && d.depth == 5 then (c.updRun p fun r => { r with step := 10 }).enumFail p 0 3 true
    else if 2048 ≤ (c.devs.filter fun e => !e.2.detached && e.1 < 0x800).length then c.enumFail p 0 4 true
    else
      let es := c.wantEps (candDev p) (d.setVal) none
      match c.judge p (es ++ [{ dev := candDev p, addr := 0, type := .control, wMax := 64, dflt := true }]) [candEp p] with
      | none => c.enumFail p 0 4 true
      | some (.inl _) => (c.updDev (candDev p) fun d => { d with refused := true }).setActs p [.attach]
      | some (.inr _) =>
        let wake := byteAt d.cfg 7 / 32 % 2 == 1 && (c.port p).rwen
        c.setActs p ([act 9 (candDev p) (setup0 0 9 d.setVal, setup1 0 0) (.config d.setVal)] ++
          (if wake then wakeActs (candDev p) else []) ++
          (if d.hub then [act 10 (candDev p) (setup0 0xA0 6 0x2900, setup1 0 71) .hubDesc] else []) ++ [.attach])

/-- R259 step 4: ENUM polls the hub's status-change endpoint. -/
def Chip.pollHub (c : Chip) (p h : Nat) : Chip :=
  c.each ((c.eps.filter fun e => e.2.dev == h && !e.2.gone && e.2.type == .intr && e.2.isIn).map Prod.fst) fun c k =>
    let len := match c.ep k with | some e => e.mps | none => 1
    c.queueSvc k { who := .enum p, x := { count := 0#32, d := mkDesc 5 len 0#32 0#32 } }

/-- R258 step 11: the candidate gets its handles and its owner its ATTACH message. -/
def Chip.enumAttach (c : Chip) (p : Nat) : Chip :=
  match c.dev (candDev p), (c.port p).run.job with
  | some d, some (.fresh _ reason _) =>
    match c.newDevHandle, c.ep (candEp p) with
    | (some h, c), some e0 =>
      let c := { c with
        devs := Tab.put (Tab.erase c.devs (candDev p)) h d
        handles := { c.handles with devFreed := c.handles.devFreed.erase h } }
      let c := { c with
        eps := Tab.erase (List.map (fun (e : Nat × Ep) => (e.1, if e.2.dev = candDev p then { e.2 with dev := h } else e.2)) c.eps) (candEp p) }
      let c := match c.placeEps [{ e0 with dev := h }] with
        | some (_, c) => c
        | none => c
      let c := if d.parent.isNone && d.lpm then c.updPort p fun x => { x with lpmOk := true } else c
      let c := c.sendAttach h reason
      (if d.hub && !d.refused then c.pollHub p h else c).enumEnd p
    | _, _ => c.enumFail p 0 4 true
  | _, _ => c.enumEnd p

/-! ### Restoration (R260) -/

/-- The actions of the device being restored are passed over. -/
def skipDev (l : List EnumAct) : List EnumAct :=
  match l with
  | [] => []
  | .next d :: r => .next d :: r
  | .finish :: r => .finish :: r
  | _ :: r => skipDev r

/-- R260: the restoration of the present device failed: it and what is below it are detached with reason RESTORE, and
it is enumerated afresh. (DEDUCED, log 83) -/
def Chip.restoreFail (c : Chip) (p : Nat) : Chip :=
  let h := (c.port p).run.dev
  let c := c.updRun p fun r => { r with acts := skipDev r.acts, tries := 0, resets := 0 }
  match c.dev h with
  | none => c
  | some d =>
    if d.detached then c
    else
      let c := c.each (c.subtree h).reverse fun c k => c.detachDev k 0x07
      c.updRun p fun r => { r with todo := .fresh d.parent 5 (some d.speed) :: r.todo }

/-- The end of a restoration: the staged descriptors start, and the request completes (R216 step 5, R266). -/
def Chip.restoreEnd (c : Chip) (p : Nat) : Chip :=
  let c := c.updPort p fun x => { x with restoring := false }
  match (c.port p).run.job with
  | some (.reset h (some _)) =>
    let ok : Bool := match c.dev h with | some d => !d.detached | none => false
    (if ok then c.enumReqOk p else c.enumReqEnd p St.detached).enumEnd p
  | _ => c.enumEnd p

/-- R260: a hub port reset ends what is in progress on its devices, and their contexts return to their defaults, as
R216 states for a root port (DEDUCED). (DEDUCED, log 84) -/
def Chip.resetBelow (c : Chip) (h : Nat) : Chip :=
  c.each (c.subtree h) fun c k =>
    let c := c.updDev k fun d => { d with zero := true, suspended := false }
    c.each ((c.eps.filter fun e => e.2.dev == k && !e.2.gone).map Prod.fst) fun c e =>
      let c := match (c.ep e).bind Ep.wq with
        | some (f, n) => c.endWq f n St.portReset true
        | none => c
      c.updEp e fun x => { x with toggle := false, ping := false, strikes := 0, halted := false, owed := [] }

/-! ### Jobs -/

/-- R58, R266: the device a request names: a status that ends it, or the device. -/
def Chip.reqDev (c : Chip) (f h : Nat) : Nat ⊕ Dev :=
  match c.dev h with
  | none => .inl St.accessError
  | some d =>
    if 0x800 ≤ h then .inl St.accessError
    else if d.detached then .inl (if d.lastOwner = f then St.detached else St.accessError)
    else if c.ownerOf d.port = f then .inr d else .inl St.accessError

/-- R266: begin SET_CONFIG, SET_ALT, EP_RESET, DEV_SUSPEND, DEV_RESUME of a function. An empty list ends the job.
(DEDUCED, log 80) -/
def Chip.startRequest (c : Chip) (p f : Nat) (x : Xfer) : Chip :=
  let a := x.d.argA
  let b := x.d.argB
  let dev := if x.d.req = 0x04 then (match c.ep a with | some e => e.dev | none => 0xFFFF) else a
  match c.reqDev f dev with
  | .inl st => (c.enumReqEnd p st).enumEnd p
  | .inr d =>
    match x.d.req with
    | 0x02 =>
      if !d.bound.isEmpty then (c.enumReqFail p 0x08 0).enumEnd p
      else if b = 0 ∨ b = d.setVal then
        match c.judge p (c.wantEps a b none) (c.ctxOf a none) with
        | some (.inr _) => c.setActs p [act 9 a (setup0 0 9 b, setup1 0 0) (.config b), .finish]
        | some (.inl _) => (c.enumReqFail p 0x0F 0).enumEnd p
        | none => c.enumReqLack p
      else if byteAt d.desc 17 = 0 then (c.enumReqFail p 0x09 0).enumEnd p
      else c.setActs p [act 5 a (getDesc 2 0 0 9) (.findHead 0), .finish]
    | 0x03 =>
      let i := b / 256
      let alt := b % 256
      if (Tab.find d.bound i).isSome then (c.enumReqFail p 0x08 0).enumEnd p
      else if d.cfgVal = 0 || !((ifsOf d.cfg).any fun y => y.num == i && y.alt == alt) then (c.enumReqFail p 0x09 0).enumEnd p
      else match c.judge p (c.wantEps a 0 (some (i, alt))) (c.ctxOf a (some i)) with
        | some (.inr _) => c.setActs p [act 9 a (setup0 1 11 alt, setup1 i 0) (.altSet i alt), .finish]
        | some (.inl _) => (c.enumReqFail p 0x0F 0).enumEnd p
        | none => c.enumReqLack p
    | 0x04 =>
      let ea := match c.ep a with | some e => e.addr | none => 0
      c.setActs p [act 0 dev (setup0 2 1 0, setup1 ea 0) (.cleared a), .finish]
    | 0x06 => match d.parent with
      | none => (c.enumReqFail p 0x09 0).enumEnd p
      | some (hub, k) => c.setActs p [act 0 hub (hubFeature true 2 k) (.config 0x1000), .finish]
    | 0x07 => match d.parent with
      | none => (c.enumReqFail p 0x09 0).enumEnd p
      | some (hub, k) => c.setActs p [act 0 hub (hubFeature false 2 k) .none, act 0 hub (hubStatus k) .resumeEnd, .finish]
    | _ => c.enumEnd p

/-- Begin a job of ENUM (R258, R259, R260, R266). -/
def Chip.startJob (c : Chip) (p : Nat) (j : EnumJob) : Chip :=
  let c := (c.enumEnd p).updRun p fun r => { r with job := some j }
  match j with
  | .fresh at_ reason sp => c.enumFresh p at_ reason sp []
  | .position none _ => c.portAsk p .reset
  | .position (some (h, k)) reason =>
    match c.dev h with
    | some _ => c.enumFresh p (some (h, k)) reason (some .full) (hubResetActs h k)
    | none => c.enumEnd p
  | .restore devs _ =>
    let c := c.updPort p fun x => { x with restoring := true }
    c.setActs p ((devs.flatMap fun h => c.restoreActs h true) ++ [.finish])
  | .reset h r =>
    match c.dev h with
    | none => (c.enumReqEnd p St.detached).enumEnd p
    | some d =>
      let own : Bool := match r with
        | some (f, _, _) => (match c.reqDev f h with | .inr _ => true | .inl _ => false)
        | none => !d.detached
      if !own then
        let st := match r with | some (f, _, _) => (match c.reqDev f h with | .inl s => s | .inr _ => 0) | none => 0
        (c.enumReqEnd p st).enumEnd p
      else match d.parent with
        | none => c.portAsk p .reset
        | some _ =>
          let l := (c.subtree h).flatMap fun k => c.restoreActs k true
          (c.resetBelow h).setActs p (l ++ [.finish])
  | .change hub k =>
    match c.dev hub with
    | some d => if d.detached || k == 0 then c.enumEnd p else c.setActs p [act 0 hub (hubStatus k) .changes, .finish]
    | none => c.enumEnd p
  | .request f n count =>
    match c.xfer f n count with
    | some x => c.startRequest p f x
    | none => c.enumEnd p
  | .clearHalt h =>
    match c.ep h with
    | some e => c.setActs p [act 0 e.dev (setup0 2 1 0, setup1 e.addr 0) (.cleared h), .finish]
    | none => c.enumEnd p

/-! ### What an answer does -/

/-- Replace the head action by others, and note success. -/
def Chip.enumNext (c : Chip) (p : Nat) (l : List EnumAct) : Chip :=
  c.updRun p fun r => { r with acts := l ++ r.acts.drop 1, tries := 0 }

def candReason (status : Nat) : Nat := if status = St.timeout then 1 else 5

/-- R259 step 7, R253: the power of a hub port whose over-current was reported is given again while retries are left. -/
def Chip.hubOverCurrent (c : Chip) (p hub k : Nat) : Chip :=
  let c := c.each (c.below hub k) fun c h => c.detachDev h 0x03
  let w := (c.port p).pw
  if w.left = 0 then c.enumNext p [act 0 hub (hubFeature false 19 k) .none true]
  else
    (c.updPw p fun y => { y with retried := satAdd 7 y.retried 1 }).enumNext p [act 0 hub (hubFeature false 19 k) .none true,
      .wait (1000 * max 1 w.retryDly), act 0 hub (hubFeature true 8 k) .none true]

/-- R259 steps 5 to 7, R266: what a hub port's status shows has changed. -/
def Chip.hubChanges (c : Chip) (p hub k : Nat) (got : List Byte) : Chip :=
  let ch := halfAt got 2
  if ch % 2 = 1 then
    let c := c.each (c.below hub k) fun c h => c.detachDev h 0x01
    let c := c.updPort p fun x => { x with kept := x.kept.filter fun y => y.1 != some (hub, k) }
    let c := c.updRun p fun r => { r with readings := 0 }
    c.enumNext p [act 1 hub (hubFeature false 16 k) .none, .wait 25, act 1 hub (hubStatus k) .debounce]
  else if ch / 8 % 2 = 1 then c.hubOverCurrent p hub k
  else
    let woke := ch / 4 % 2 == 1
    let c := if woke then c.each ((c.below hub k).filter fun h => (c.dev h).any Dev.suspended) fun c h =>
        ((c.updDev h fun d => { d with suspended := false }).sendDevStatus h false) else c
    let l := [1, 2, 4].filter fun i => ch / 2 ^ i % 2 == 1
    c.enumNext p (l.map fun i => act 0 hub (hubFeature false (16 + i) k) .none true)

/-- The hub port of the position that is being reset: that of the candidate or of the device being restored. -/
def Chip.resetPos (c : Chip) (p : Nat) : Option (Nat × Nat) :=
  match (c.port p).run.job with
  | some (.fresh at_ _ _) => at_
  | some (.restore _ _) | some (.reset _ _) => (c.dev (c.port p).run.dev).bind Dev.parent
  | _ => none

/-- R259 step 6: the speed that a hub port's status shows. -/
def hubSpeed (got : List Byte) : Speed :=
  if halfAt got 0 / 512 % 2 = 1 then .low else if halfAt got 0 / 1024 % 2 = 1 then .high else .full

/-- Use the answer to the request at the head. (DEDUCED, log 249) -/
def Chip.enumUse (c : Chip) (p dev : Nat) (u : EnumUse) (got : List Byte) : Chip :=
  let cand := dev == candDev p
  match u with
  | .none => c.enumNext p []
  | .desc8 =>
    let sp := match c.dev dev with | some d => d.speed | none => .full
    if got.length < 8 || !mps0Ok sp (byteAt got 7) then c.enumFail p 0 2
    else (c.updEp (candEp p) fun e => { e with wMax := byteAt got 7 }).enumNext p []
  | .address a => (c.updDev dev fun d => { d with zero := false, addr := a }).enumNext p []
  | .desc18 =>
    if got.length < 18 then c.enumFail p 0 2
    else (c.updDev dev fun d => { d with desc := got, hub := byteAt got 4 == 9 }).enumNext p []
  | .cfgHead =>
    let n := halfAt got 2
    if got.length < 9 || 4096 < n || n < 9 then c.enumFail p 0 2
    else c.enumNext p [act 5 dev (getDesc 2 0 0 n) .cfgSet]
  | .cfgSet =>
    if got.length != halfAt got 2 || !setParses got then c.enumFail p 0 2
    else
      let c := c.updDev dev fun d => { d with cfg := got }
      match c.dev dev with
      | some d => c.enumNext p (laterActs p d)
      | none => c.enumEnd p
  | .bos => (c.updDev dev fun d => { d with lpm := bosLpm got }).enumNext p []
  | .langs =>
    let i := match c.dev dev with | some d => byteAt d.desc 16 | none => 0
    if got.length < 4 then c.enumNext p []
    else c.enumNext p [act 7 dev (getDesc 3 i (halfAt got 2) 255) .serial true]
  | .serial => (c.updDev dev fun d => { d with serial := (got.take (byteAt got 0)).drop 2 }).enumNext p []
  | .config v =>
    if v = 0x1000 then
      -- DEV_SUSPEND: the hub port has been suspended
      match (c.port p).run.job.bind EnumJob.req with
      | some (f, n, count) => match c.xfer f n count with
        | some x =>
          let h := x.d.argA
          let c := c.updDev h fun d => { d with suspended := true }
          let c := c.each (c.subtree h) fun c k =>
            c.each ((c.eps.filter fun e => e.2.dev == k && !e.2.gone).map Prod.fst) fun c e =>
              match (c.ep e).bind Ep.wq with
              | some (f, n) => c.endWq f n St.suspended true
              | none => c
          (c.sendDevStatus h true).enumNext p []
        | none => c.enumNext p []
      | none => c.enumNext p []
    else (c.newSetting p dev v none).enumNext p []
  | .altSet i a => (c.newSetting p dev 0 (some (i, a))).enumNext p []
  | .wake => (c.updDev dev fun d => { d with remoteWake := true }).enumNext p []
  | .hubDesc =>
    let c := c.updDev dev fun d => { d with nPorts := byteAt got 2, pwrGood := byteAt got 5 }
    let tt : Bool := match c.dev dev with | some d => d.speed == .high && byteAt d.desc 6 == 2 | none => false
    c.enumNext p ((if tt then [act 10 dev (setup0 1 11 1, setup1 0 0) .multiTt] else []) ++
      hubPowerActs dev (byteAt got 2) (byteAt got 5))
  | .multiTt => ((c.newSetting p dev 0 (some (0, 1))).updDev dev fun d => { d with multiTt := true }).enumNext p []
  | .changes => match (c.port p).run.job with
    | some (.change hub k) => c.hubChanges p hub k got
    | _ => c.enumNext p []
  | .debounce => match (c.port p).run.job with
    | some (.change hub k) =>
      if halfAt got 0 % 2 = 0 then c.enumNext p []
      else
        let n := (c.port p).run.readings + 1
        let c := c.updRun p fun r => { r with readings := n }
        if n < 5 then c.enumNext p [.wait 25, act 1 hub (hubStatus k) .debounce]
        else c.enumFresh p (some (hub, k)) 1 (some .full) (hubResetActs hub k)
    | _ => c.enumNext p []
  | .resetEnd => match c.resetPos p with
    | some (hub, k) =>
      if halfAt got 2 / 16 % 2 = 0 then c.enumNext p [.wait 10, act 1 hub (hubStatus k) .resetEnd]
      else
        let sp := hubSpeed got
        let c := if (c.dev (candDev p)).isSome then
            (c.updDev (candDev p) fun d => { d with speed := sp }).updEp (candEp p) fun e => { e with wMax := if sp = .low then 8 else 64 }
          else c
        let c := c.updRun p fun r => { r with resets := 0 }
        c.enumNext p [act 1 hub (hubFeature false 20 k) .none, .wait 10]
    | none => c.enumNext p []
  | .resumeEnd =>
    match (c.port p).run.job.bind EnumJob.req with
    | some (f, n, count) => match c.xfer f n count with
      | some x => match (c.dev x.d.argA).bind Dev.parent with
        | some (hub, k) =>
          if halfAt got 2 / 4 % 2 = 0 then c.enumNext p [.wait 10, act 0 hub (hubStatus k) .resumeEnd]
          else
            let c := (c.updDev x.d.argA fun d => { d with suspended := false }).sendDevStatus x.d.argA false
            c.enumNext p [act 0 hub (hubFeature false 18 k) .none, .wait 10]
        | none => c.enumNext p []
      | none => c.enumNext p []
    | none => c.enumNext p []
  | .sameDesc =>
    if (c.dev dev).any (fun d => d.desc == got) then c.enumNext p [] else c.restoreFail p
  | .sameCfg =>
    if (c.dev dev).any (fun d => d.cfg == got) then c.enumNext p [] else c.restoreFail p
  | .findHead i =>
    let n := halfAt got 2
    let want := match (c.port p).run.job.bind EnumJob.req with
      | some (f, m, count) => (c.xfer f m count).map fun (x : Xfer) => x.d.argB
      | none => none
    if got.length < 9 || 4096 < n || n < 9 then (c.enumReqFail p 0x09 0).enumEnd p
    else if want = some (byteAt got 5) then c.enumNext p [act 5 dev (getDesc 2 i 0 n) (.findSet i)]
    else if i + 1 < (match c.dev dev with | some d => byteAt d.desc 17 | none => 0) then
      c.enumNext p [act 5 dev (getDesc 2 (i + 1) 0 9) (.findHead (i + 1))]
    else (c.enumReqFail p 0x09 0).enumEnd p
  | .findSet i =>
    match (c.port p).run.job.bind EnumJob.req with
    | some (f, n, count) => match c.xfer f n count, c.dev dev with
      | some x, some _ =>
        if setParses got && byteAt got 5 == x.d.argB then
          let c := c.updDev dev fun d => { d with cfg := got, cfgIdx := i }
          match c.judge p (c.wantEps dev x.d.argB none) (c.ctxOf dev none) with
          | some (.inr _) => c.enumNext p [act 9 dev (setup0 0 9 x.d.argB, setup1 0 0) (.config x.d.argB)]
          | some (.inl _) => (c.enumReqFail p 0x0F 0).enumEnd p
          | none => c.enumReqLack p
        else (c.enumReqFail p 0x09 0).enumEnd p
      | _, _ => c.enumEnd p
    | none => c.enumEnd p
  | .cleared h =>
    let c := c.updEp h fun e => { e with toggle := false, strikes := 0, ping := false, halted := false }
    let c := match (c.port p).run.job, c.ep h with
      | some (.clearHalt _), some e => if e.svc.isEmpty then c.pollHub p e.dev else c
      | _, _ => c
    if cand then c.enumNext p [] else c.enumNext p []

/-- A function's request (R266). -/
def EnumJob.isRequest : EnumJob → Bool
  | .request _ _ _ => true
  | _ => false

/-- The actions at the head that wait for nothing. While the device is ENTERING, admission waits, and with it the
requests of functions, which begin with it (R447 step 1). -/
def Chip.enumRun : Nat → Chip → Nat → Chip
  | 0, c, _ => c
  | k + 1, c, p =>
    match (c.port p).run.acts with
    | [] =>
      if (c.port p).run.job.isSome then c
      else match (c.port p).run.todo with
        | [] => c
        | j :: r =>
        if c.pwr.st == .entering && j.isRequest then c
        else Chip.enumRun k ((c.updRun p fun x => { x with todo := r }).startJob p j) p
    | .admission :: _ => if c.pwr.st = .entering then c else Chip.enumRun k (c.enumAdmit p) p
    | .attach :: _ => Chip.enumRun k (c.enumAttach p) p
    | .next d :: r =>
      let c := c.updRun p fun x => { x with acts := r, dev := d, resets := 0 }
      Chip.enumRun k (if (c.dev d).any fun y => !y.detached then c else c.updRun p fun x => { x with acts := skipDev x.acts }) p
    | .finish :: _ =>
      match (c.port p).run.job with
      | some (.restore _ _) | some (.reset _ _) => Chip.enumRun k (c.restoreEnd p) p
      | some (.request _ _ _) => Chip.enumRun k ((c.enumReqOk p).enumEnd p) p
      | _ => Chip.enumRun k (c.enumEnd p) p
    | _ => c.enumBegin p

/-- Go on with ENUM's work on a port. -/
def Chip.enumGo (c : Chip) (p : Nat) : Chip := Chip.enumRun ((c.port p).run.acts.length + (c.port p).run.todo.length + 8) c p

/-- R447, R450, R459: the device is ACTIVE again: the admission that waited goes on. -/
def Chip.enumResume (c : Chip) : Chip :=
  c.each ((List.range 128).filter fun p =>
    (match (c.port p).run.acts with | .admission :: _ => true | [] => (c.port p).run.job.isNone && !(c.port p).run.todo.isEmpty | _ => false))
    fun c p => c.enumGo p

/-- A job is added, and begun if ENUM is idle on the port. -/
def Chip.enumAdd (c : Chip) (p : Nat) (j : EnumJob) : Chip :=
  let c := c.updRun p fun r => { r with todo := r.todo ++ [j] }
  if (c.port p).run.job.isNone then c.enumGo p else c

/-- R258: a request, or a hub port's reset, has failed for good: the sequence is repeated once from the reset, and then
the job fails. -/
def Chip.enumHard (c : Chip) (p status value : Nat) : Chip :=
  match (c.port p).run.job with
  | some (.fresh at_ r sp) =>
    if (c.port p).run.repeated then (c.enumFail p status (candReason status)).enumGo p
    else
      let c := c.updRun p fun x => { x with repeated := true, acts := [], gen := x.gen + 1 }
      match at_ with
      | none => c.portAsk p .reset
      | some (h, k) => (c.enumFresh p at_ r sp (hubResetActs h k)).enumGo p
  | some (.restore _ _) | some (.reset _ _) => (c.restoreFail p).enumGo p
  | some (.request _ _ _) =>
    let c := if status = St.stall then c.enumReqFail p 0x01 value
      else if status = St.timeout then c.enumReqFail p 0x02 value
      else if status = St.xactError ∨ status = St.splitError ∨ status = St.babble then c.enumReqFail p 0x03 status
      else c.enumReqEnd p status
    (c.enumEnd p).enumGo p
  | _ => (c.enumEnd p).enumGo p

/-- The outcome of the request at the head (R258, R263). -/
def Chip.enumOutcome (c : Chip) (p : Nat) : Chip :=
  match (c.port p).run.acts with
  | .req _ dev s0 _ u soft :: _ =>
    let st := (c.port p).run.status
    if st = St.success ∨ st = St.short then
      let c := c.updRun p fun r => { r with tries := 0 }
      (c.enumUse p dev u (c.port p).run.got).enumGo p
    else if soft then (c.enumNext p []).enumGo p
    else if (c.port p).run.tries < 2 ∧ (st = St.timeout ∨ st = St.stall ∨ st = St.xactError ∨ st = St.splitError ∨ st = St.babble) then
      (c.updRun p fun r => { r with tries := r.tries + 1 }).enumBegin p
    else c.enumHard p st (bits s0 15 8)
  | _ => c

/-- R259 step 4: a report of a hub's status-change endpoint has been received: each port it names is looked into. -/
def Chip.hubReport (c : Chip) (p h : Nat) : Chip :=
  match c.ep h with
  | none => c
  | some e => match e.cells.find? fun k => k.full with
    | none => c
    | some k =>
      let c := c.updEp h fun e => { e with cells := e.cells.erase k }
      let n := bytesNat k.data
      let ks := (List.range 256).filter fun i => 0 < i && n.testBit i &&
        !(c.port p).run.todo.contains (.change e.dev i) && (c.port p).run.job != some (.change e.dev i)
      c.each ks fun c i => c.enumAdd p (.change e.dev i)

/-- A task of ENUM's work on port `p` has been released (R304, R315). (DEDUCED, log 86) -/
def Chip.enumTask (c : Chip) (p ev arg : Nat) : Chip :=
  match ev with
  | 1 => if (c.port p).run.job.isNone then c.enumAdd p (.fresh none 1 none) else c
  | 2 => c.enumAdd p (.restore (c.devsOf p) none)
  | 3 => if arg = (c.port p).run.gen then c.enumOutcome p else c
  | 4 => if arg = (c.port p).run.gen then (c.enumNext p []).enumGo p else c
  | 5 => c.hubReport p arg
  | 7 => c.enumAdd p (.position (if arg = 0 then none else some (arg / 256 - 1, arg % 256)) 4)
  | _ => c.enumGo p

/-- R216 step 5, R258 step 2: 10 ms after a port reset: ENUM restores the tree, or enumerates the device. -/
def Chip.afterPortReset (c : Chip) (p : Nat) : Chip :=
  match (c.port p).run.job with
  | some (.fresh none r sp) =>
    let rep := (c.port p).run.repeated
    let c := (c.enumEnd p).enumFresh p none r sp []
    (c.updRun p fun x => { x with repeated := rep }).happen p 0 (.enum p 6 0)
  | some (.position none r) => ((c.enumEnd p).enumFresh p none r none []).happen p 0 (.enum p 6 0)
  | some (.reset h r) =>
    if (c.dev h).any fun d => d.parent.isNone then
      let c := c.updPort p fun x => { x with restoring := true }
      (c.setActs p (((c.devsOf p).flatMap fun k => c.restoreActs k true) ++ [.finish])).happen p 0 (.enum p 6 0)
    else c.updRun p fun x => { x with todo := .restore (c.devsOf p) none :: .reset h r :: x.todo, job := none, acts := [], gen := x.gen + 1 }
  | j =>
    if (c.devsOf p).isEmpty then (c.dropCandidate p).happen p 0 (.enum p 1 0)
    else
      let c := c.dropCandidate p
      let again : List EnumJob := match j with
        | some (.fresh (some a) r _) => [.position (some a) r]
        | some (.restore _ _) => []
        | some x => [x]
        | none => []
      let c := (c.enumEnd p).updRun p fun x => { x with todo := .restore (c.devsOf p) none :: again ++ x.todo }
      (c.updPort p fun x => { x with restoring := true }).happen p 0 (.enum p 6 0)

/-! ### The commands of chapter 07 -/

/-- The request that ENUM waits for ends with TIMEOUT. -/
def Chip.enumTimeout (c : Chip) (p : Nat) : Chip :=
  match (c.port p).run.acts with
  | .req _ dev _ _ _ _ :: _ =>
    match c.enumEp p dev with
    | none => c
    | some h => match (c.ep h).bind fun e => e.svc.head? with
      | some s =>
        if s.who != .enum p then
          -- the request waits behind another transfer, which goes on
          let c := c.updEp h fun e => { e with svc := e.svc.filter fun t => t.who != .enum p }
          c.svcOutcome h { s with who := .enum p, data := [] } St.timeout
        else if c.onWire h then c.updChan h fun x => { x with cause := some St.timeout }
        else c.svcEnd h St.timeout
      | none => c
  | _ => c

/-- ENUM_REQUEST_TIMEOUT (R258): the timeout of the request in progress expires; a completion that is usable in the same
service cycle counts. -/
def execEnumRequestTimeout (p : Fin 128) (s : State) : Host.Outcome State Fault Refusal := s.live fun c => c.enumTimeout p

/-- HUB_PORT_RESET_TIMEOUT (R259 step 6): no C_PORT_RESET within 100 ms counts as a failed request. -/
def execHubPortResetTimeout (p : Fin 128) (s : State) : Host.Outcome State Fault Refusal :=
  s.live fun c =>
    let run := (c.port p).run
    let waits := run.acts.any fun a => match a with | .req _ _ _ _ .resetEnd _ => true | _ => false
    let first : Bool := match run.acts with
      | .req _ _ _ _ .resetEnd _ :: _ => true
      | .wait _ :: .req _ _ _ _ .resetEnd _ :: _ => true
      | _ => false
    match c.resetPos p with
    | some (hub, k) =>
      if !waits || !first then c
      else
        let rest := (run.acts.dropWhile fun a => match a with | .req _ _ _ _ .resetEnd _ => false | _ => true).drop 1
        let c := (c.enumTimeout p).nextGen p
        if run.resets < 2 then
          ((c.updRun p fun r => { r with resets := r.resets + 1 }).setActs p (hubResetActs hub k ++ rest)).happen p 0 (.enum p 6 0)
        else (c.setActs p rest).enumHard p St.timeout 0
    | none => c

/-- ENUM_MESSAGE_WAIT_END (R262): a waiting message of function `f`'s instance enters the buffer as soon as it fits. -/
def execEnumMessageWaitEnd (f : Fin 128) (s : State) : Host.Outcome State Fault Refusal :=
  s.live fun c => (c.refillInst (0x800 + f)).recvTry (0x800 + f)

end Sys2Proof.Machine
end

