-- ==== Sys2Proof/Machine/Svc.lean ====
section
/-!
DEFINITION. What the services share (chapter 10): the transfers they issue and their outcomes, failing requests, polls,
and the end of a bind sequence.
-/
namespace Sys2Proof.Machine

/-! ### Marks of an instance's transfers: a kind below 64, and 64 times what it concerns -/

def bindTag : Nat := 1
def reqTag (req : Nat) (count : Word) : Nat := (8 + req) + 64 * count.toNat
def slotTag (slot : Nat) : Nat := 40 + 64 * slot
def hlthTag (dev : Nat) : Nat := 50 + 64 * dev

/-! ### Issuing -/

/-- The `k`-th flow of an instance. -/
def Chip.instFlow (c : Chip) (h k : Nat) : Option Nat := (c.inst h).bind fun i => i.flows[k]?

/-- A continuation of the instance's work, on its `k`-th flow (R304, R306). -/
def Chip.instCont (c : Chip) (h k tag deps : Nat) (timer : Bool := false) : Chip :=
  match c.instFlow h k with
  | some fl => c.happen fl deps (.cont h tag) false timer
  | none => c

/-- A transfer of instance `h` on endpoint `ep`, whose outcome a continuation takes. -/
def Chip.instSend (c : Chip) (h k tag ep : Nat) (d : Desc) (data : List Byte) (tmo : Option Nat := none) : Chip :=
  (c.queueSvc ep { who := .inst h tag, x := { count := 0#32, d := d, tmo := tmo }, data := data }).instCont h k tag 1

/-- The interface an instance is bound to, as its set describes the selected setting. -/
def Chip.ifOf (c : Chip) (dev iface : Nat) : Option IfDesc :=
  (c.dev dev).bind fun d => (ifsOf d.cfg).find? fun x => x.num == iface && x.alt == d.altOf iface

/-- R341: a control transfer of the instance on device `dev`, with a timeout of 500 ms (4,000 microframes). -/
def Chip.instCtl (c : Chip) (h k tag dev : Nat) (s : Word × Word) (data : List Byte := []) : Chip :=
  match c.ep0 dev with
  | some ep => c.instSend h k tag ep (mkDesc 1 (bits s.2 31 16) s.1 s.2) data (some 4000)
  | none => c

/-- The endpoint contexts of an instance, by type and direction. -/
def Chip.instEp (c : Chip) (h : Nat) (ty : EpType) (isIn : Bool) (iface : Option Nat := none) : Option Nat :=
  (c.eps.find? fun e => e.2.inst == some h && !e.2.gone && e.2.type == ty && e.2.isIn == isIn &&
    (iface == none || iface == some e.2.iface)).map Prod.fst

/-- Poll an IN endpoint for as long as the instance is bound. -/
def Chip.pollEp (c : Chip) (h : Nat) (ep : Option Nat) : Chip :=
  match ep with
  | none => c
  | some k => match c.ep k with
    | some e =>
      if e.svc.any SvcXfer.isPoll then c
      else c.queueSvc k { who := .inst h 0, x := { count := 0#32, d := mkDesc (if e.type = .intr then 5 else 3) (max 1 e.mps) 0#32 0#32 } }
    | none => c

/-- The outcome of the transfer with a mark, taken from the instance: status and data. -/
def Chip.takeOutcome (c : Chip) (h tag : Nat) : Option (Nat × List Byte) × Chip :=
  match (c.inst h).bind fun i => i.outcomes.find? fun o => o.1 == tag with
  | some o => (some o.2, c.updInst h fun i => { i with outcomes := i.outcomes.erase o })
  | none => (none, c)

/-- The oldest packet that an endpoint of a service holds; its cell goes back to the pool (R285). -/
def Chip.takePacket (c : Chip) (ep : Nat) : Option (List Byte) × Chip :=
  match c.ep ep with
  | none => (none, c)
  | some e => match e.cells.find? fun k => k.full with
    | none => (none, c)
    | some k =>
      let c := c.updEp ep fun e => { e with cells := e.cells.erase k }
      (some k.data, (if k.poison || k.retire then c.updGrn fun g => { g with retired := satAdd 0xFFFF g.retired 1 } else c).supplyEp ep)

/-! ### Requests -/

/-- The request of an instance's WQ at a count, while it is not decided. -/
def Chip.reqOf (c : Chip) (h : Nat) (count : Word) : Option (Nat × Nat × Xfer) :=
  (c.inst h).bind fun i => i.wq.bind fun w => (c.xfer w.1 w.2 count).map fun x => (w.1, w.2, x)

/-- The count that a mark of a request names. -/
def tagCount (tag : Nat) : Word := BitVec.ofNat 32 (tag / 64)

/-- An OUT request's bytes count as transferred. (DEDUCED, log 104) -/
def Xfer.outLen (x : Xfer) : Nat := x.d.length

/-- A request fails because of a transfer of its service: by the transfer's status (R340), or, ended by an outside cause,
with that status and the bytes moved. `rq` is the request's bRequest. -/
def Chip.svcXferFail (c : Chip) (h f n : Nat) (x : Xfer) (st rq : Nat) (moved : Nat := 0) : Chip :=
  if st = St.stall then c.svcFail h f n x 0x01 rq
  else if st = St.timeout then c.svcFail h f n x 0x02 rq
  else if st = St.xactError ∨ st = St.splitError ∨ st = St.babble then c.svcFail h f n x 0x03 st
  else c.finishWith f n x.count st fun e => { e with length := moved }

def okStatus (st : Nat) : Bool := st == St.success || st == St.short

/-- R566: the instance's port or device cannot be reached: the port is suspended, its cluster sleeps, or the device lies
behind a suspended hub port. -/
def Chip.unreachable (c : Chip) (h : Nat) : Bool :=
  match c.inst h with
  | none => false
  | some i => (c.port i.port).st == .suspended || (c.port i.port).st == .resuming || (c.clu (i.port / 8)).asleep ||
      (i.svc != .hlth && c.devAsleep 6 i.dev)

/-- R566: a request that needs device traffic completes at once while the device cannot be reached. -/
def Chip.endSuspended (c : Chip) (f n : Nat) (x : Xfer) : Chip :=
  c.finishWith f n x.count St.suspended fun e => { e with length := 0 }

/-- R341: a service's endpoint has halted: it sends CLEAR_FEATURE(ENDPOINT_HALT) itself. -/
def Chip.svcClear (c : Chip) (h ep : Nat) : Chip :=
  match c.ep ep with
  | some e => if e.dflt then c else c.instCtl h 0 (clearTag ep) e.dev (setup0 2 1 0, setup1 e.addr 0)
  | none => c

/-- After it, the context is reset as by EP_RESET, and an endpoint that is polled is polled again. -/
def Chip.svcCleared (c : Chip) (h ep : Nat) : Chip :=
  let c := c.updEp ep fun e => { e with toggle := false, strikes := 0, ping := false, halted := false }
  match c.ep ep with
  | some e => if e.isIn then c.pollEp h (some ep) else c
  | none => c

/-! ### Binding (R332, R334, R370) -/

/-- The polls that an instance makes while it is bound. -/
def Chip.startPolls (c : Chip) (h : Nat) : Chip :=
  match c.inst h with
  | none => c
  | some i => match i.svc with
    | .hidx => c.pollEp h (c.instEp h .intr true)
    | .ccid => (c.pollEp h (c.instEp h .intr true)).pollEp h (c.instEp h .bulk true)
    | .strm =>
      let c := if i.strm.cdc then c.pollEp h (c.instEp h .intr true (some i.iface)) else c
      let rx := i.strm.cdc || (match c.ifOf i.dev i.iface with | some d => d.proto == 2 | none => false)
      if rx then c.pollEp h (c.instEp h .bulk true) else c
    | _ => c

/-- R190: a periodic tick is armed: its first nominal microframe is one interval on. -/
def Chip.armTick (c : Chip) (h iv : Nat) : Chip :=
  c.updInst h fun i => { i with tick := some (iv, c.mfn + BitVec.ofNat 14 iv, c.mfn + BitVec.ofNat 14 iv) }

/-- The bind sequence has ended: the instance is ACTIVE, and BIND_SERVICE completes or a RESTARTED message is queued. -/
def Chip.bindDone (c : Chip) (h : Nat) : Chip :=
  match c.inst h with
  | none => c
  | some i =>
    let c := c.updInst h fun i => { i with st := .active, step := 0, forFn := none }
    let c := match i.svc with
      | .ccid => if (c.instEp h .intr true).isNone then c.armTick h 800 else c
      | .hlth => c.armTick h i.hlth.hbiv
      | _ => c
    let c := c.startPolls h
    if i.st = .binding then
      match i.forFn with
      | some f => c.adminDone f Ad.success 0#32 [BitVec.ofNat 32 h, mkWord [((i.flows.head?).getD 0, 0), (i.flows.length, 16)]]
      | none => c
    else c.statusMsg h 0xF1 (if i.svc = .hlth then 0xFFFF else i.dev) noRef [BitVec.ofNat 8 i.why]

/-- R332, R334: a device request of the bind sequence failed: the instance is freed and the bind fails with its detail.
A restarted instance goes on without what the request would have shown. -/
def Chip.bindFail (c : Chip) (h detail : Nat) : Chip :=
  match c.inst h with
  | none => c
  | some i =>
    if i.st = .binding then
      let c := c.freeInst h
      match i.forFn with
      | some f => c.adminDone f Ad.deviceError (BitVec.ofNat 32 detail)
      | none => c
    else c.bindDone h

/-- The detail code of R340 for a transfer's status. -/
def statusDetail (st : Nat) : Nat := if st = St.stall then 0x01 else if st = St.timeout then 0x02 else 0x03

end Sys2Proof.Machine
end

