-- ==== Sys2Proof/Machine/Hidx.lean ====
section
/-!
DEFINITION. HIDX (R345 to R351): HID interfaces: the report map, key assembly for scanners and magnetic-stripe readers.
-/
namespace Sys2Proof.Machine

def Chip.updHidx (c : Chip) (h : Nat) (g : Hidx → Hidx) : Chip := c.updInst h fun i => { i with hidx := g i.hidx }

/-! ### Reports (R347, R348) -/

/-- The items of a report descriptor: whether one of them is a Report ID (HID 1.11, which R347 uses by name). -/
def hasReportIds : Nat → List Byte → Bool
  | 0, _ => false
  | k + 1, bs =>
    match bs with
    | [] => false
    | b :: r =>
      if b = 0xFE#8 then hasReportIds k (r.drop (2 + byteAt r 0))
      else
        let n := if b.toNat % 4 = 3 then 4 else b.toNat % 4
        b.toNat / 4 == 0x21 || hasReportIds k (r.drop n)

/-- Bit `k` of the report data. -/
def reportBit (bs : List Byte) (k : Nat) : Bool := (bs.getD (k / 8) 0#8).getLsbD (k % 8)

/-- One field of the map: REPORTID, FIELDID, BITOFF, BITSIZE, SIGNED of its two words. -/
def fieldId (w : Word × Word) : Nat := bits w.1 7 0

/-- R347: the value of a field, or none where it ends beyond the report. -/
def fieldValue (w : Word × Word) (bs : List Byte) : Option Word :=
  let off := bits w.1 31 16
  let n := bits w.2 5 0
  if 8 * bs.length < off + n then none
  else
    let v := (List.range n).foldl (fun a i => if reportBit bs (off + i) then a + 2 ^ i else a) 0
    some (BitVec.ofNat 32 (if bit w.2 6 && v.testBit (n - 1) then v + 2 ^ 32 - 2 ^ n else v))

/-- The fields of the map with a report ID, with their indices. -/
def Hidx.fieldsOf (x : Hidx) (id : Nat) : List (Nat × (Word × Word)) :=
  (x.fields.zipIdx.filter fun e => fieldId e.1 == id).map fun e => (e.2, e.1)

/-- R348: an input report in REPORT mode. (DEDUCED, log 89) -/
def Chip.hidxReport (c : Chip) (h : Nat) (i : Inst) (bs : List Byte) : Chip :=
  let x := i.hidx
  let ids := hasReportIds x.rdesc.length x.rdesc
  let id := if ids then byteAt bs 0 else 0
  let data := if ids then bs.drop 1 else bs
  let vals := (x.fieldsOf id).map fun e =>
    let v := fieldValue e.2 data
    let w := v.getD 0#32
    (e.1, bits e.2.1 15 8, v.isNone, decide (Tab.find x.last e.1 ≠ some w), w)
  let c := c.updHidx h fun x => { x with last := vals.foldl (fun t v => Tab.put t v.1 v.2.2.2.2) x.last }
  if x.changedOnly && vals.all (fun v => !v.2.2.2.1) then c
  else
    let raw := if x.rawCopy then data else []
    c.dataMsg h i.port 0x01 i.dev (wordsBytes ([mkWord [(id, 0), (vals.length, 8), (raw.length, 16)]] ++
      vals.flatMap fun v => [mkWord [(v.2.1, 0), (b2n v.2.2.1, 8), (b2n v.2.2.2.1, 9)], v.2.2.2.2]) ++ raw)

/-- R347: the byte offset of the first bad field of a report map, if there is one. (DEDUCED, log 90) -/
def mapBad (bs : List Byte) : Option Nat :=
  let n := byteAt bs 1
  if byteAt bs 0 != 1 then some 0
  else if n == 255 || bs.length != 8 + 8 * n then some 1
  else if halfAt bs 2 != 0 then some 2
  else if bits (wordAt bs 4) 31 2 != 0 then some 4
  else ((List.range n).find? fun k =>
    let w := wordAt bs (0x0C + 8 * k)
    bits w 31 7 != 0 || bits w 5 0 == 0 || 32 < bits w 5 0).map fun k => 0x0C + 8 * k

def Hidx.loadMap (x : Hidx) (bs : List Byte) : Hidx :=
  let w := wordAt bs 4
  { x with
    changedOnly := bit w 0
    rawCopy := bit w 1
    fields := (List.range (byteAt bs 1)).map fun k => (wordAt bs (8 + 8 * k), wordAt bs (0x0C + 8 * k))
    last := [] }

/-! ### Keys (R349) -/

/-- The built-in keymap: the US layout in ASCII, the keypad with it (log: which keys have a character). (PRESUMED, log
88). (PRESUMED, log 88) -/
def usPlain : List Nat :=
  [0, 0, 0, 0] ++ (List.range 26).map (· + 0x61) ++ [0x31, 0x32, 0x33, 0x34, 0x35, 0x36, 0x37, 0x38, 0x39, 0x30] ++
  [0, 0, 0, 0, 0x20, 0x2D, 0x3D, 0x5B, 0x5D, 0x5C, 0, 0x3B, 0x27, 0x60, 0x2C, 0x2E, 0x2F] ++ List.replicate 27 0 ++
  [0x2F, 0x2A, 0x2D, 0x2B, 0, 0x31, 0x32, 0x33, 0x34, 0x35, 0x36, 0x37, 0x38, 0x39, 0x30, 0x2E]
def usShift : List Nat :=
  [0, 0, 0, 0] ++ (List.range 26).map (· + 0x41) ++ [0x21, 0x40, 0x23, 0x24, 0x25, 0x5E, 0x26, 0x2A, 0x28, 0x29] ++
  [0, 0, 0, 0, 0x20, 0x5F, 0x2B, 0x7B, 0x7D, 0x7C, 0, 0x3A, 0x22, 0x7E, 0x3C, 0x3E, 0x3F] ++ List.replicate 27 0 ++
  [0x2F, 0x2A, 0x2D, 0x2B, 0, 0x31, 0x32, 0x33, 0x34, 0x35, 0x36, 0x37, 0x38, 0x39, 0x30, 0x2E]

/-- Entry `k` of the keymap in force. -/
def Hidx.key (x : Hidx) (k : Nat) : Nat :=
  match x.keymap with
  | some m => byteAt m k
  | none => if k < 128 then usPlain.getD k 0 else usShift.getD (k - 128) 0

/-- R349: the character of a newly pressed key, or none where it is discarded. -/
def Hidx.charOf (x : Hidx) (mod_ k : Nat) : Option Byte :=
  let ctrl := mod_ % 2 == 1 || mod_ / 16 % 2 == 1
  let shift := mod_ / 2 % 2 == 1 || mod_ / 32 % 2 == 1
  let alt := mod_ / 4 % 2 == 1 || mod_ / 8 % 2 == 1 || mod_ / 64 % 2 == 1 || mod_ / 128 % 2 == 1
  if alt then none
  else
    let v := if k ≥ 0x80 then 0 else x.key (if shift then 128 + k else k)
    let letter := (0x41 ≤ v && v ≤ 0x5A) || (0x61 ≤ v && v ≤ 0x7A)
    if ctrl then (if letter then some (BitVec.ofNat 8 (v % 32)) else none)
    else if k = 0x28 ∨ k = 0x58 then some 0x0D#8
    else if k = 0x2B then some 0x09#8
    else if v = 0 then none
    else some (BitVec.ofNat 8 v)

/-! ### Strings (R350, R351) -/

/-- A track: its characters, and whether its end sentinel is missing. -/
def trackFrom (bs : List Byte) : List Byte × Bool × List Byte :=
  match bs.findIdx? fun b => b == 0x3F#8 with
  | some k => (bs.take (k + 1), false, bs.drop (k + 1))
  | none => (bs, true, [])

/-- R351: the tracks of a string: number and characters, in the order found. -/
def tracksOf : Nat → List Byte → Bool → Nat → List (Nat × List Byte × Bool)
  | 0, _, _, _ => []
  | k + 1, bs, one, semi =>
    match bs with
    | [] => []
    | b :: r =>
      let t := trackFrom bs
      if b = 0x25#8 && !one then (1, t.1, t.2.1) :: tracksOf k t.2.2 true semi
      else if b = 0x3B#8 && semi < 2 then (2 + semi, t.1, t.2.1) :: tracksOf k t.2.2 one (semi + 1)
      else tracksOf k r one semi

/-- The length of a track in its 8-bit field; the spec states none for a longer one, so that value is free. (DESIGN
CHOICE, log 91) -/
def Chip.trackLen (c : Chip) (n : Nat) : Nat × Chip :=
  if n < 256 then (n, c) else (Config.freeNat c.free % 256, { c with free := c.free + 1 })

/-- A string has ended. -/
def Chip.endString (c : Chip) (h : Nat) (idle trunc : Bool) : Chip :=
  match c.inst h with
  | none => c
  | some i =>
    let x := i.hidx
    let c := c.updHidx h fun x => { x with text := [], idleRun := false, discards := 0 }
    if x.mode = .magstripe then
      let ts := tracksOf (x.text.length + 1) x.text false 0
      let tr := fun k => (ts.find? fun t => t.1 == k).getD (k, [], false)
      let (l1, c) := c.trackLen (tr 1).2.1.length
      let (l2, c) := c.trackLen (tr 2).2.1.length
      let (l3, c) := c.trackLen (tr 3).2.1.length
      c.dataMsg h i.port 0x03 i.dev (wordBytes (mkWord [(l1, 0), (l2, 8), (l3, 16), (b2n (tr 1).2.2, 24),
        (b2n (tr 2).2.2, 25), (b2n (tr 3).2.2, 26)]) ++ (tr 1).2.1 ++ (tr 2).2.1 ++ (tr 3).2.1)
    else
      c.dataMsg h i.port 0x02 i.dev (wordBytes (mkWord [(x.text.length, 0), (b2n idle, 16), (b2n trunc, 17), (x.discards, 24)]) ++
        x.text)

/-- One character is assembled. -/
def Chip.addChar (c : Chip) (h : Nat) (b : Byte) : Chip :=
  match c.inst h with
  | none => c
  | some i =>
    let x := i.hidx
    let ends := (x.term == 0 && b == 0x0D#8) || (x.term == 1 && b == 0x0A#8) || (x.term == 3 && b == 0x09#8)
    if ends then c.endString h false false
    else if x.term == 2 && b == 0x0A#8 && x.text.getLast? == some 0x0D#8 then
      (c.updHidx h fun x => { x with text := x.text.dropLast }).endString h false false
    else
      let c := c.updHidx h fun x => { x with text := x.text ++ [b], idleRun := true }
      if x.text.length + 1 = 1024 then c.endString h false true else c

/-- R349: a boot report in SCANNER or MAGSTRIPE mode. -/
def Chip.hidxKeys (c : Chip) (h : Nat) (i : Inst) (bs : List Byte) : Chip :=
  let ks := (List.range 6).map fun k => byteAt bs (2 + k)
  if ks.all (· == 1) then c
  else
    let new := (ks.zipIdx.filter fun e => e.1 != 0 && !i.hidx.prev.contains e.1 && !(ks.take e.2).contains e.1).map Prod.fst
    let c := c.updHidx h fun x => { x with prev := ks }
    c.each new fun c k => match i.hidx.charOf (byteAt bs 0) k with
      | some b => c.addChar h b
      | none => c.updHidx h fun x => { x with discards := satAdd 255 x.discards 1 }

/-- The oldest input report held is handled (R348, R349); nothing is taken while the message buffer is full (R344). -/
def Chip.hidxPacket (c : Chip) (h ep : Nat) : Chip :=
  match c.inst h with
  | none => c
  | some i =>
    if i.svc != .hidx || i.st != .active then c
    else match c.takePacket ep with
      | (none, c) => c
      | (some bs, c) => if i.hidx.mode = .report then c.hidxReport h i bs else c.hidxKeys h i bs

/-! ### Requests (R346) -/

/-- The interface is a boot keyboard. -/
def Chip.bootKeyboard (c : Chip) (i : Inst) : Bool :=
  match c.ifOf i.dev i.iface with
  | some d => d.sub == 1 && d.proto == 1
  | none => false

/-- SET_MODE takes effect: a string being assembled is discarded. -/
def Chip.setMode (c : Chip) (h : Nat) (x : Xfer) : Chip :=
  c.updHidx h fun y => { y with
    mode := match x.d.argA with | 1 => .scanner | 2 => .magstripe | _ => .report
    term := x.d.argB % 16
    idle := if x.d.argB / 256 = 0 then 50 else x.d.argB / 256
    text := [], idleRun := false, prev := [] }

def Chip.hidxRequest (c : Chip) (h f n : Nat) (x : Xfer) : Chip :=
  match c.inst h with
  | none => c
  | some i =>
    let tag := reqTag x.d.req x.count
    match x.d.req with
    | 0x01 => c.svcAnswer h f n x i.hidx.rdesc
    | 0x02 => match mapBad x.payload with
      | some o => c.svcFail h f n x 0x0A o
      | none => (c.updHidx h fun y => y.loadMap x.payload).svcOk f n x x.outLen
    | 0x03 =>
      let wedge := x.d.argA != 0
      let was := i.hidx.mode != .report
      if wedge && !c.bootKeyboard i then c.svcFail h f n x 0x09 0
      else if c.unreachable h then c.endSuspended f n x
      else if wedge = was then (c.setMode h x).svcOk f n x
      else c.instCtl h 0 tag i.dev (setup0 0x21 0x0B (if wedge then 0 else 1), setup1 i.iface 0)
    | 0x04 =>
      (c.updHidx h fun y => { y with keymap := if x.d.length = 0 then none else some x.payload }).svcOk f n x x.outLen
    | 0x05 =>
      if c.unreachable h then c.endSuspended f n x
      else match (if x.d.argA = 2 then c.instEp h .intr false else none) with
        | some ep =>
          let bs := (if x.d.argB = 0 then [] else [BitVec.ofNat 8 x.d.argB]) ++ x.payload
          c.instSend h 0 tag ep (mkDesc 4 bs.length 0#32 0#32) bs
        | none => c.instCtl h 0 tag i.dev (setup0 0x21 0x09 (x.d.argA * 256 + x.d.argB), setup1 i.iface x.d.length) x.payload
    | 0x06 =>
      if c.unreachable h then c.endSuspended f n x
      else c.instCtl h 0 tag i.dev (setup0 0xA1 0x01 (x.d.argA * 256 + x.d.argB), setup1 i.iface x.d.length)
    | _ => c

/-- The transfer of a request has ended. -/
def Chip.hidxOutcome (c : Chip) (h req f n : Nat) (x : Xfer) (st : Nat) (data : List Byte) : Chip :=
  if okStatus st then
    match req with
    | 0x03 => (c.setMode h x).svcOk f n x
    | 0x05 => c.svcOk f n x x.outLen
    | 0x06 => c.svcAnswer h f n x data
    | _ => c
  else
    let out := match c.instEp h .intr false with | some e => if req = 0x05 && x.d.argA == 2 then some e else none | none => none
    let c := c.svcXferFail h f n x st (if out.isSome then 0 else if req = 0x03 then 0x0B else if req = 0x05 then 0x09 else 0x01)
      (if req = 0x05 then min data.length x.d.length else 0)
    match out with
    | some e => if (c.ep e).any Ep.halted then c.svcClear h e else c
    | none => c

/-! ### Binding (R345) -/

/-- The HID descriptor's report descriptor length. -/
def IfDesc.hidLen (d : IfDesc) : Option Nat := (d.rest.find? fun x => descType x == 0x21).map fun x => halfAt x 7

/-- The next request of the bind sequence. A restarted instance reads the report descriptor only (R370). -/
def Chip.hidxBind (c : Chip) (h : Nat) : Chip :=
  match c.inst h with
  | none => c
  | some i => match c.ifOf i.dev i.iface with
    | none => c.bindFail h 0x09
    | some d =>
      let n := d.hidLen.getD 0
      match i.step with
      | 0 =>
        if d.hidLen.isNone || 4096 < n then c.bindFail h 0x09
        else c.instCtl h 0 bindTag i.dev (setup0 0x81 6 0x2200, setup1 i.iface n)
      | 1 => c.instCtl h 0 bindTag i.dev (setup0 0x21 0x0A 0, setup1 i.iface 0)
      | _ => c.instCtl h 0 bindTag i.dev (setup0 0x21 0x0B 1, setup1 i.iface 0)

def Chip.hidxBound (c : Chip) (h st : Nat) (data : List Byte) : Chip :=
  match c.inst h with
  | none => c
  | some i =>
    let boot := (c.ifOf i.dev i.iface).any fun d => d.sub == 1
    let next := fun (c : Chip) (k : Nat) => (c.updInst h fun i => { i with step := k }).hidxBind h
    match i.step with
    | 0 =>
      if !okStatus st then c.bindFail h (statusDetail st)
      else
        let c := c.updHidx h fun x => { x with rdesc := data }
        if i.st = .restarting then c.bindDone h else next c 1
    | 1 =>
      if !okStatus st && st != St.stall then c.bindFail h (statusDetail st)
      else if boot then next c 2 else c.bindDone h
    | _ => if okStatus st then c.bindDone h else c.bindFail h (statusDetail st)

end Sys2Proof.Machine
end

