-- ==== Sys2Proof/Machine/Ccid.lean ====
section
/-!
DEFINITION. CCID (R352 to R360): smart-card readers: slots, activation, and the APDU exchange by APDU, T=0 or T=1.
-/
namespace Sys2Proof.Machine

def Chip.updCcid (c : Chip) (h : Nat) (g : Ccid → Ccid) : Chip := c.updInst h fun i => { i with ccid := g i.ccid }
def Chip.slot (c : Chip) (h s : Nat) : Slot :=
  match c.inst h with
  | some i => Tab.get (fun _ => {}) i.ccid.slots s
  | none => {}
def Chip.updSlot (c : Chip) (h s : Nat) (g : Slot → Slot) : Chip :=
  c.updCcid h fun x => { x with slots := Tab.upd (fun _ => {}) x.slots s g }
def Chip.feature (c : Chip) (h i : Nat) : Bool := match c.inst h with | some x => bit x.ccid.features i | none => false

def SlotSt.code : SlotSt → Nat
  | .absent => 0
  | .present => 1
  | .activating => 2
  | .active => 3
  | .mute => 4
  | .error => 5

/-! ### Messages (R360) -/

def Chip.ccidMsg (c : Chip) (h type : Nat) (w : Word) (rest : List Byte := []) (ref : Word := noRef) : Chip :=
  match c.inst h with
  | some i => c.statusMsg h type i.dev ref (wordBytes w ++ rest)
  | none => c

/-- A slot's new state, with SLOT_CHANGE. -/
def Chip.slotChange (c : Chip) (h s : Nat) (st : SlotSt) : Chip :=
  (c.updSlot h s fun x => { x with st := st }).ccidMsg h 0x01 (mkWord [(s, 0), (st.code, 8)])

/-! ### Commands to the reader (R352, R356) -/

/-- The three bytes after bSeq, and the payload, of a command of type `msg`. -/
def Chip.ccidCmd (c : Chip) (h s : Nat) (job : SlotJob) (msg : Nat) (p : Nat × Nat × Nat) (payload : List Byte) : Chip :=
  match c.inst h with
  | none => c
  | some i =>
    let seq := i.ccid.bseq
    let bs := [BitVec.ofNat 8 msg] ++ natBytes 4 payload.length ++
      [BitVec.ofNat 8 s, BitVec.ofNat 8 seq, BitVec.ofNat 8 p.1, BitVec.ofNat 8 p.2.1, BitVec.ofNat 8 p.2.2] ++ payload
    let c := c.updCcid h fun x => { x with bseq := (seq + 1) % 256 }
    let c := c.updSlot h s fun x => { x with job := job, msg := msg, seq := seq }
    match c.instEp h .bulk false with
    | some ep => c.instSend h (s + 1) (slotTag s) ep (mkDesc 2 bs.length 0#32 0#32) bs
    | none => c

/-- XfrBlock (0x6F): bBWI and wLevelParameter. -/
def Chip.xfrBlock (c : Chip) (h s : Nat) (job : SlotJob) (bwi level : Nat) (bs : List Byte) : Chip :=
  (c.updSlot h s fun x => { x with lastBlock := bs }).ccidCmd h s job 0x6F (bwi, level % 256, level / 256) bs

/-! ### Powering a card (R354) -/

/-- IccPowerOff, with what it is for. -/
def Chip.powerOff (c : Chip) (h s why : Nat) : Chip :=
  (c.updSlot h s fun x => { x with offFor := why }).ccidCmd h s .powerOff 0x63 (0, 0, 0) []

/-- Step 1: IccPowerOn at the voltage class in hand. -/
def Chip.powerOn (c : Chip) (h s : Nat) : Chip :=
  (c.updSlot h s fun x => { x with st := .activating }).ccidCmd h s .powerOn 0x62 ((c.slot h s).volt, 0, 0) []

/-- The voltage classes in order, by their bPowerSelect. -/
def Ccid.classes (x : Ccid) : List Nat :=
  if bit x.features 3 then [0]
  else [3, 2, 1].filter fun v => x.volts / 2 ^ (v - 1) % 2 == 1

/-- Begin the activation of a slot. -/
def Chip.activate (c : Chip) (h s : Nat) : Chip :=
  match c.inst h with
  | none => c
  | some i =>
    (c.updSlot h s fun x => { x with volt := (i.ccid.classes).headD 0, tries := 0, unsynced := false, found := false }).powerOn h s

/-! ### Requests of a slot -/

/-- The request that the slot's work serves. -/
def Chip.slotReq (c : Chip) (h s : Nat) : Option (Nat × Nat × Xfer) :=
  (c.slot h s).req.bind fun r => (c.xfer r.1 r.2.1 r.2.2).map fun x => (r.1, r.2.1, x)

/-- Ask for a slot's status. -/
def Chip.askStatus (c : Chip) (h s : Nat) : Chip :=
  if (c.slot h s).job = .none then c.ccidCmd h s .status 0x65 (0, 0, 0) [] else c

/-- The slot's command has ended: a look at the slot that is due comes first (R567), then the activation of a card
that has been found (R353); else a request that waits goes on, by its task (R310). (DEDUCED, log 257) -/
def Chip.slotIdle (c : Chip) (h s : Nat) : Chip :=
  let c := c.updSlot h s fun x => { x with
    job := .none, req := none, tries := 0, resyncs := 0, resyncing := false, resp := [], toSend := [], lastBlock := [],
    apdu := [], tmoFirst := false }
  let x := c.slot h s
  if x.look then c.askStatus h s
  else if x.found && x.autoPower && x.st == .present then c.activate h s
  else
    let c := c.updSlot h s fun x => { x with todo := x.todo.drop 1 }
    match x.todo with
    | r :: _ => match c.instFlow h (s + 1) with
      | some fl => (c.updXfer r.1 r.2.1 r.2.2 fun y => { y with svcRun := false }).happen fl 0 (.request r.1 r.2.1 r.2.2)
      | none => c
    | [] => c

/-- The slot's request fails with a detail code of R340 and its value. -/
def Chip.slotFail (c : Chip) (h s detail value : Nat) : Chip :=
  match c.slotReq h s with
  | some (f, n, x) => c.svcFail h f n x detail value
  | none => c

/-! ### The ATR (R354 step 2, R355) -/

/-- What an ATR says. -/
structure Atr where
  ta1 : Option Nat := none
  tc1 : Nat := 0
  ta2 : Option Nat := none
  tc2 : Option Nat := none
  ta3 : Option Nat := none
  tb3 : Option Nat := none
  tc3 : Option Nat := none
  /-- the protocols of TD1, TD2, ... in order -/
  protos : List Nat := []
  deriving DecidableEq, Repr

/-- The interface bytes from group `i` on: `y` says which are present. -/
def atrGroups : Nat → Nat → Nat → List Byte → Atr → Option (Atr × List Byte)
  | 0, _, _, bs, a => some (a, bs)
  | k + 1, i, y, bs, a =>
    let take := fun (b : Bool) (bs : List Byte) => if b then (match bs with
      | x :: r => some (some x.toNat, r)
      | [] => none) else some (none, bs)
    match take (y % 2 == 1) bs with
    | none => none
    | some (ta, bs) => match take (y / 2 % 2 == 1) bs with
      | none => none
      | some (tb, bs) => match take (y / 4 % 2 == 1) bs with
        | none => none
        | some (tc, bs) => match take (y / 8 % 2 == 1) bs with
          | none => none
          | some (td, bs) =>
            let a := match i with
              | 1 => { a with ta1 := ta, tc1 := tc.getD 0 }
              | 2 => { a with ta2 := ta, tc2 := tc }
              | 3 => { a with ta3 := ta, tb3 := tb, tc3 := tc }
              | _ => a
            match td with
            | none => some (a, bs)
            | some d => atrGroups k (i + 1) (d / 16) bs { a with protos := a.protos ++ [d % 16] }

/-- An ATR parses: TS, length at most 33, the interface bytes, the historical bytes, and TCK where a protocol other than
T=0 is indicated. -/
def parseAtr (bs : List Byte) : Option Atr :=
  let ts := byteAt bs 0
  if 33 < bs.length || bs.length < 2 || (ts != 0x3B && ts != 0x3F) then none
  else
    let t0 := byteAt bs 1
    match atrGroups 33 1 (t0 / 16) (bs.drop 2) {} with
    | none => none
    | some (a, r) =>
      let k := t0 % 16
      let tck := a.protos.any (· != 0)
      if r.length != k + b2n tck then none
      else if tck && (bs.drop 1).foldl (fun x b => x ^^^ b) 0#8 != 0#8 then none
      else some a

def Atr.first (a : Atr) : Nat := a.protos.headD 0

/-- The Fi and Di numbers of ISO/IEC 7816-3, by the halves of TA1; 0 for one reserved. -/
def atrF (k : Nat) : Nat := [372, 372, 558, 744, 1116, 1488, 1860, 0, 0, 512, 768, 1024, 1536, 2048, 0, 0].getD k 0
def atrD (k : Nat) : Nat := [0, 1, 2, 4, 8, 16, 32, 64, 12, 20, 0, 0, 0, 0, 0, 0].getD k 0

/-- R355: the reader runs the rate of a TA1: it is in its rate table, or its baud rate is automatic. (DEDUCED, log 93)
-/
def Ccid.rateOk (x : Ccid) (ta1 : Nat) : Bool :=
  bit x.features 5 || (atrF (ta1 / 16) != 0 && x.rates.contains (x.clock * 1000 * atrD (ta1 % 16) / atrF (ta1 / 16)))

/-- What R355 chooses: none when the reader cannot run the card's specific mode. -/
def Ccid.choose (x : Ccid) (s : Slot) (a : Atr) : Option Slot :=
  let slotWith := fun (proto ta1 : Nat) =>
    let s := { s with proto := proto, ta1 := ta1, guard := a.tc1, wi := a.tc2.getD 10, ifsc := a.ta3.getD 32, ifsd := 32 }
    { s with bwi := (a.tb3.getD 0x4D) / 16, cwi := (a.tb3.getD 0x4D) % 16, crc := (a.tc3.getD 0) % 2 == 1 }
  match a.ta2 with
  | some t =>
    let p := t % 16
    if (p = 0 ∨ p = 1) ∧ x.protocols / 2 ^ p % 2 = 1 then some (slotWith p (a.ta1.getD 0x11)) else none
  | none =>
    let t1 := a.protos.contains 1 && (s.preferT1 || a.first == 1)
    let ta := match a.ta1 with
      | some t => if !s.noPps && !s.cardNoPps && x.rateOk t then t else 0x11
      | none => 0x11
    some (slotWith (if t1 then 1 else 0) ta)

/-! ### T=1 blocks (R358) -/

/-- The CRC of T=1 with CRC (ISO/IEC 13239, high byte first). (PRESUMED, log 92) -/
def crcT1 (bs : List Byte) : Nat :=
  bs.foldl (fun v b => (List.range 8).foldl (fun v _ => if v % 2 = 1 then (v / 2) ^^^ 0x8408 else v / 2) (v ^^^ b.toNat)) 0xFFFF

def Slot.edc (s : Slot) (bs : List Byte) : List Byte :=
  if s.crc then [BitVec.ofNat 8 (crcT1 bs / 256), BitVec.ofNat 8 (crcT1 bs % 256)] else [bs.foldl (fun x b => x ^^^ b) 0#8]

/-- A block with NAD 0x00. -/
def Slot.block (s : Slot) (pcb : Nat) (inf : List Byte) : List Byte :=
  let b := [0#8, BitVec.ofNat 8 pcb, BitVec.ofNat 8 inf.length] ++ inf
  b ++ s.edc b

/-- The PCB and INF of a received block with good EDC and length. -/
def Slot.unblock (s : Slot) (bs : List Byte) : Option (Nat × List Byte) :=
  let n := byteAt bs 2
  let b := bs.take (3 + n)
  if bs.length != 3 + n + (if s.crc then 2 else 1) || bs.drop (3 + n) != s.edc b then none
  else some (byteAt bs 1, b.drop 3)

/-- Send the next I-block of the APDU: at most IFSC bytes, with M while more follows. -/
def Chip.sendIBlock (c : Chip) (h s : Nat) : Chip :=
  let x := c.slot h s
  let n := max 1 x.ifsc
  let more := decide (n < x.toSend.length)
  c.xfrBlock h s .xfr 0 0 (x.block ((if x.ns then 0x40 else 0) + (if more then 0x20 else 0)) (x.toSend.take n))

/-- Begin the exchange of the slot's APDU under T=1; a card whose numbering is unknown is resynchronised first. -/
def Chip.startT1 (c : Chip) (h s : Nat) : Chip :=
  let c := c.updSlot h s fun x => { x with toSend := x.apdu, resp := [] }
  if (c.slot h s).unsynced then
    (c.updSlot h s fun x => { x with resyncing := true, resyncs := 1, unsynced := false }).xfrBlock h s .xfr 0 0
      ((c.slot h s).block 0xC0 [])
  else c.sendIBlock h s

/-! ### Exchanges (R357) -/

/-- The slot's XFR has its response APDU. -/
def Chip.xfrDone (c : Chip) (h s : Nat) (bs : List Byte) : Chip :=
  let y := c.slot h s
  let k := bs.length
  let c := match c.slotReq h s with
    | some (f, n, x) => c.svcAnswer h f n x bs (mkWord [(y.proto, 0), (min y.retrans 255, 8), (min y.wtx 255, 16)])
        (mkWord [(byteAt bs (k - 1), 0), (byteAt bs (k - 2), 8)])
    | none => c
  c.slotIdle h s

/-- R357, T=0: the TPDU of an APDU; none for an extended one, or one of no case. (DEDUCED, log 98) -/
def tpduOf (a : List Byte) : Option (List Byte) :=
  let lc := byteAt a 4
  if a.length = 4 then some (a ++ [0#8])
  else if a.length = 5 then some a
  else if lc != 0 && (a.length == 5 + lc || a.length == 6 + lc) then some (a.take (5 + lc))
  else none

/-- R357, APDU level: the next part of a command longer than a message holds, and its wLevelParameter. -/
def Chip.sendApdu (c : Chip) (h s : Nat) (first : Bool) : Chip :=
  match c.inst h with
  | none => c
  | some i =>
    let x := c.slot h s
    let m := max 1 (i.ccid.maxMsg - 10)
    if x.toSend.length ≤ m then
      (c.updSlot h s fun x => { x with toSend := [] }).xfrBlock h s .xfr 0 (if first then 0 else 2) x.toSend
    else
      (c.updSlot h s fun x => { x with toSend := x.toSend.drop m }).xfrBlock h s .xfr 0 (if first then 1 else 3) (x.toSend.take m)

/-- Begin an XFR on an active slot. -/
def Chip.startXfr (c : Chip) (h s f n : Nat) (x : Xfer) : Chip :=
  let a := x.payload
  let c := c.updSlot h s fun y => { y with
    req := some (f, n, x.count), apdu := a, toSend := a, resp := [], tries := 0, resyncs := 0, retrans := 0, wtx := 0 }
  if c.feature h 17 || c.feature h 18 then c.sendApdu h s true
  else if (c.slot h s).proto = 1 then c.startT1 h s
  else match tpduOf a with
    | some t => c.xfrBlock h s .xfr 0 0 t
    | none => (c.slotFail h s 0x09 0).slotIdle h s

/-! ### Activation (R354) -/

/-- The activation ends without an active card: the slot's new state, and the detail of R340 in the request or in a
CARD_ERROR message. (DEDUCED, log 94; DEDUCED, log 97) -/
def Chip.activateFail (c : Chip) (h s : Nat) (st : SlotSt) (detail value : Nat) : Chip :=
  let c := c.updSlot h s fun x => { x with st := st }
  let c := if (c.slot h s).req.isSome then c.slotFail h s detail value
    else c.ccidMsg h 0x03 (mkWord [(s, 0), (detail, 8)])
  c.slotIdle h s

/-- Step 7: the slot is ACTIVE. -/
def Chip.slotActive (c : Chip) (h s : Nat) : Chip :=
  let c := c.updSlot h s fun x => { x with st := .active, ns := false, nr := false, unsynced := false }
  let y := c.slot h s
  let c := match c.slotReq h s with
    | some (f, n, x) => c.svcAnswer h f n x y.atr 0#32 (mkWord [(y.proto, 0), (y.ta1, 8), (y.ifsc, 16)])
    | none => c.ccidMsg h 0x02 (mkWord [(s, 0), (y.proto, 8), (y.atr.length, 16)]) y.atr
  c.slotIdle h s

/-- Step 6: S(IFS request) with IFSD 254, for T=1 at TPDU level. -/
def Chip.ifsStep (c : Chip) (h s : Nat) : Chip :=
  if (c.slot h s).proto = 1 ∧ c.feature h 16 then
    c.xfrBlock h s .ifs 0 0 ((c.slot h s).block 0xC1 [254#8])
  else c.slotActive h s

/-- Step 5: SetParameters. (DEDUCED, log 95) -/
def Chip.paramStep (c : Chip) (h s : Nat) : Chip :=
  if c.feature h 1 then c.ifsStep h s
  else
    let y := c.slot h s
    let inv := if byteAt y.atr 0 = 0x3F then 2 else 0
    let b := fun n => BitVec.ofNat 8 n
    let d := if y.proto = 1 then
        [b y.ta1, b (0x10 + inv + b2n y.crc), b y.guard, b (16 * y.bwi + y.cwi), 0#8, b y.ifsc, 0#8]
      else [b y.ta1, b inv, b y.guard, b y.wi, 0#8]
    c.ccidCmd h s .setParams 0x61 (y.proto, 0, 0) d

/-- Step 4: PPS. -/
def Chip.ppsStep (c : Chip) (h s : Nat) (a : Atr) : Chip :=
  let y := c.slot h s
  if a.ta2.isNone && (y.ta1 != 0x11 || y.proto != a.first) && !c.feature h 6 && !c.feature h 7 && !y.noPps && !y.cardNoPps then
    let p := [0xFF#8, BitVec.ofNat 8 (0x10 + y.proto), BitVec.ofNat 8 y.ta1]
    c.xfrBlock h s .pps 0 0 (p ++ [p.foldl (fun x b => x ^^^ b) 0#8])
  else c.paramStep h s

/-- Step 1 or 2 failed: IccPowerOff, then the next class. -/
def Chip.classFail (c : Chip) (h s : Nat) : Chip := c.powerOff h s 1

/-- Steps 2 and 3: the ATR has come. -/
def Chip.atrCame (c : Chip) (h s : Nat) (bs : List Byte) : Chip :=
  match c.inst h, parseAtr bs with
  | some i, some a =>
    match i.ccid.choose { c.slot h s with atr := bs } a with
    | some y => (c.updSlot h s fun _ => y).ppsStep h s a
    | none => c.activateFail h s .error 0x09 0
  | _, _ => c.classFail h s

/-! ### Cards coming and going (R353) -/

/-- A card appears. -/
def Chip.cardIn (c : Chip) (h s : Nat) : Chip :=
  let c := c.updSlot h s fun x => { x with cardNoPps := false, atr := [], unsynced := false, found := x.autoPower }
  let c := c.slotChange h s .present
  if (c.slot h s).autoPower && (c.slot h s).job == .none then c.activate h s else c

/-- A card goes: the slot's tasks are cancelled, its requests fail with NO_CARD, and it becomes ABSENT. (DEDUCED, log
259). (DEDUCED, log 259) -/
def Chip.cardOut (c : Chip) (h s : Nat) : Chip :=
  let x := c.slot h s
  let fl := c.instFlow h (s + 1)
  let queued := (c.dsp.tasks.filter fun t => t.flow.isSome && t.flow == fl && !t.marker && !t.cancelled).filterMap fun t =>
    match t.job with
    | .request f n count => some (f, n, count)
    | _ => none
  let c := match fl with
    | some fl => c.cancelTasks fun t => t.flow == some fl
    | none => c
  let c := c.each (x.req.toList ++ queued ++ x.todo) fun c r => match c.xfer r.1 r.2.1 r.2.2 with
    | some y => c.svcFail h r.1 r.2.1 y 0x04 s
    | none => c
  let c := c.updSlot h s fun x =>
    ({ autoPower := x.autoPower, preferT1 := x.preferT1, noPps := x.noPps } : Slot)
  c.slotChange h s .absent

/-- A slot's status has been read: 0 active, 1 present and inactive, 2 no card (R353). After a spell in which the reader
could not be reached, an active T=1 card's block numbering is unknown (R567). -/
def Chip.slotSeen (c : Chip) (h s icc : Nat) : Chip :=
  let x := c.slot h s
  let c := c.updSlot h s fun y => { y with look := false }
  if icc = 2 then (if x.st = .absent then c else c.cardOut h s)
  else if x.st = .absent then c.cardIn h s
  else if icc = 1 ∧ x.st = .active then c.cardIn h s
  else if x.look ∧ x.st = .active ∧ x.proto = 1 then c.updSlot h s fun x => { x with unsynced := true }
  else c

/-- R353: NotifySlotChange, bit pair by bit pair; a removal goes before an insertion. -/
def Chip.notifySlots (c : Chip) (h : Nat) (bs : List Byte) : Chip :=
  match c.inst h with
  | none => c
  | some i =>
    c.each (List.range i.slots) fun c s =>
      let v := byteAt bs (1 + s / 4) / 4 ^ (s % 4) % 4
      if v = 2 then (if (c.slot h s).st = .absent then c else c.cardOut h s)
      else if v = 3 then
        (if (c.slot h s).st = .absent then c else c.cardOut h s).cardIn h s
      else c

/-- R353: the slot watch of a reader without an interrupt endpoint. -/
def Chip.watchSlots (c : Chip) (h : Nat) : Chip :=
  match c.inst h with
  | some i => c.each (List.range i.slots) fun c s => c.askStatus h s
  | none => c

/-- R567: every slot is looked at, at once or when its command has ended. -/
def Chip.lookSlots (c : Chip) (h : Nat) : Chip :=
  match c.inst h with
  | some i => c.each (List.range i.slots) fun c s => (c.updSlot h s fun x => { x with look := true }).askStatus h s
  | none => c

/-! ### Answers (R356) -/

/-- R358: a block was bad: ask for the expected block again, resynchronise after 2 attempts, and give the card up after 2
failed resynchronisations. -/
def Chip.badBlock (c : Chip) (h s : Nat) : Chip :=
  let x := c.slot h s
  let resync := fun (c : Chip) => (c.updSlot h s fun y => { y with resyncing := true, resyncs := y.resyncs + 1, tries := 0 }).xfrBlock
    h s .xfr 0 0 (x.block 0xC0 [])
  if x.resyncing then (if 2 ≤ x.resyncs then c.powerOff h s 4 else resync c)
  else if x.tries < 2 then
    (c.updSlot h s fun y => { y with tries := y.tries + 1, retrans := y.retrans + 1 }).xfrBlock h s .xfr 0 0
      (x.block (0x80 + (if x.nr then 0x10 else 0) + 1) [])
  else if 2 ≤ x.resyncs then c.powerOff h s 4
  else resync c

/-- R358: a good block of a T=1 exchange. -/
def Chip.goodBlock (c : Chip) (h s pcb : Nat) (inf : List Byte) : Chip :=
  let x := c.slot h s
  let answer := fun (c : Chip) (bwi p : Nat) (inf : List Byte) => c.xfrBlock h s .xfr bwi 0 (x.block p inf)
  if pcb < 0x80 then
    -- an I-block
    if x.resyncing || (pcb / 64 % 2 == 1) != x.nr || max 1 x.ifsc < x.toSend.length then c.badBlock h s
    else
      let c := c.updSlot h s fun y => { y with
        nr := !y.nr, ns := if y.toSend.isEmpty then y.ns else !y.ns, toSend := [], resp := y.resp ++ inf, tries := 0 }
      let y := c.slot h s
      if pcb / 32 % 2 = 1 then c.xfrBlock h s .xfr 0 0 (y.block (0x80 + (if y.nr then 0x10 else 0)) [])
      else c.xfrDone h s y.resp
  else if pcb < 0xC0 then
    -- an R-block
    if x.resyncing then c.badBlock h s
    else if (pcb / 16 % 2 == 1) != x.ns && decide (max 1 x.ifsc < x.toSend.length) then
      (c.updSlot h s fun y => { y with ns := !y.ns, toSend := y.toSend.drop (max 1 y.ifsc), tries := 0 }).sendIBlock h s
    else if (pcb / 16 % 2 == 1) == x.ns && !x.toSend.isEmpty then
      if 2 ≤ x.tries then c.badBlock h s
      else (c.updSlot h s fun y => { y with tries := y.tries + 1, retrans := y.retrans + 1 }).sendIBlock h s
    else c.badBlock h s
  else match pcb with
  | 0xC3 => answer (c.updSlot h s fun y => { y with wtx := y.wtx + 1 }) (byteAt inf 0) 0xE3 inf
  | 0xC1 => answer (c.updSlot h s fun y => { y with ifsc := byteAt inf 0 }) 0 0xE1 inf
  | 0xC2 =>
    let c := answer c 0 0xE2 inf
    (c.slotFail h s 0x06 s).updSlot h s fun y => { y with req := none }
  | 0xE0 =>
    if x.resyncing then
      (c.updSlot h s fun y => { y with resyncing := false, ns := false, nr := false, tries := 0 }).startT1 h s
    else c.badBlock h s
  | _ => c.badBlock h s

/-- An answer to an XfrBlock of an APDU exchange. -/
def Chip.xfrAnswer (c : Chip) (h s chain : Nat) (bs : List Byte) : Chip :=
  let x := c.slot h s
  if c.feature h 17 || c.feature h 18 then
    if chain = 0x10 then c.sendApdu h s false
    else
      let c := c.updSlot h s fun y => { y with resp := y.resp ++ bs }
      if chain = 1 ∨ chain = 3 then c.xfrBlock h s .xfr 0 0x10 [] else c.xfrDone h s (x.resp ++ bs)
  else if x.proto = 1 then
    if x.req.isNone then c.slotIdle h s
    else match x.unblock bs with
    | some (pcb, inf) => c.goodBlock h s pcb inf
    | none => c.badBlock h s
  else
    let sw1 := byteAt bs (bs.length - 2)
    let sw2 := byteAt bs (bs.length - 1)
    if 2 ≤ bs.length ∧ sw1 = 0x61 then
      (c.updSlot h s fun y => { y with resp := y.resp ++ bs.take (bs.length - 2) }).xfrBlock h s .xfr 0 0
        [x.apdu.headD 0#8, 0xC0#8, 0#8, 0#8, BitVec.ofNat 8 sw2]
    else if bs.length = 2 ∧ sw1 = 0x6C then c.xfrBlock h s .xfr 0 0 (x.lastBlock.take 4 ++ [BitVec.ofNat 8 sw2])
    else c.xfrDone h s (x.resp ++ bs)

/-- The slot has been powered off (R354, R358, R359, R370). -/
def Chip.poweredOff (c : Chip) (h s : Nat) : Chip :=
  match c.inst h with
  | none => c
  | some i =>
    let x := c.slot h s
    match x.offFor with
    | 0 =>
      let c := c.updSlot h s fun y => { y with st := .present }
      let c := match c.slotReq h s with
        | some (f, n, y) => c.svcOk f n y
        | none => c
      c.slotIdle h s
    | 1 =>
      match ((i.ccid.classes).dropWhile fun v => v != x.volt).drop 1 with
      | v :: _ => c.updSlot h s fun y => { y with job := .voltWait, volt := v }
      | [] => c.activateFail h s .mute 0x05 s
    | 2 => c.activate h s
    | 3 => (c.updSlot h s fun y => { y with cardNoPps := true }).activate h s
    | 4 =>
      let c := (c.updSlot h s fun y => { y with st := .error }).slotFail h s 0x06 s
      (c.ccidMsg h 0x03 (mkWord [(s, 0), (0x06, 8)])).slotIdle h s
    | _ => (c.updSlot h s fun y => { y with st := .absent, job := .none }).askStatus h s

/-- The bind sequence's GetSlotStatus of a slot has been answered: record it, and go on to the next slot (R352). -/
def Chip.bindSlot (c : Chip) (h s icc : Nat) : Chip :=
  let c := c.updSlot h s fun y => { y with st := if icc = 2 then .absent else .present, job := .none }
  match c.inst h with
  | none => c
  | some i =>
    if s + 1 < i.slots then (c.updInst h fun i => { i with step := s + 1 }).askStatus h (s + 1) else c.bindDone h

/-- R354 step 6: no valid S(IFS response) has come: it is asked for again, and after the retries of R358 IFSD 32 is used. -/
def Chip.ifsRetry (c : Chip) (h s : Nat) : Chip :=
  let x := c.slot h s
  if x.tries < 2 then
    (c.updSlot h s fun y => { y with tries := y.tries + 1 }).xfrBlock h s .ifs 0 0 (x.block 0xC1 [254#8])
  else c.slotActive h s

/-- R370: a restarted instance goes on with its next slot once slot `s` has been powered off and looked at, or could
not be. (DEDUCED, log 258) -/
def Chip.restartNext (c : Chip) (h s : Nat) : Chip :=
  match c.inst h with
  | none => c
  | some i =>
    if i.st != .restarting then c
    else if s + 1 < i.slots then c.powerOff h (s + 1) 5
    else c.bindDone h

/-- The slot's command is one of a restart's: its IccPowerOff or GetSlotStatus. -/
def Slot.restarts (x : Slot) : Bool := x.msg == 0x65 || (x.msg == 0x63 && x.offFor == 5)

/-- R356: the answer to a slot's command: message type, bStatus, bError, the byte after it, and the data. -/
def Chip.ccidAnswer (c : Chip) (h s : Nat) (i : Inst) (type st err chain : Nat) (bs : List Byte) : Chip :=
  let x := c.slot h s
  let icc := st % 4
  let cmd := st / 64
  if cmd = 2 then c
  else match x.job with
  | .none | .voltWait => c
  | .status =>
    let c := c.updSlot h s fun y => { y with job := .none }
    if i.st = .binding then c.bindSlot h s icc
    else
      let c := (c.slotSeen h s icc)
      (if (c.slot h s).job = .none then c.slotIdle h s else c).restartNext h s
  | .powerOn =>
    if cmd = 1 then
      if err = 0xFE then c.classFail h s else c.activateFail h s .present 0x0C err
    else c.atrCame h s bs
  | .powerOff => c.poweredOff h s
  | .pps => if cmd = 0 ∧ bs = x.lastBlock then c.paramStep h s else c.powerOff h s 3
  | .setParams => if cmd = 1 then c.activateFail h s .error 0x06 s else c.ifsStep h s
  | .ifs =>
    if cmd = 0 ∧ x.unblock bs = some (0xE1, [254#8]) then (c.updSlot h s fun y => { y with ifsd := 254 }).slotActive h s
    else c.ifsRetry h s
  | .xfr =>
    if cmd = 1 then
      if err = 0xFE ∧ x.proto = 1 ∧ c.feature h 16 then c.badBlock h s else (c.slotFail h s 0x0C err).slotIdle h s
    else if type = 0x80 then c.xfrAnswer h s chain bs
    else c
  | .escape =>
    if cmd = 1 then (c.slotFail h s 0x0C err).slotIdle h s
    else
      let c := match c.slotReq h s with
        | some (f, n, y) => c.svcAnswer h f n y bs
        | none => c
      c.slotIdle h s
  | .abort => c

/-- R356 steps 3 and 4: an aborted command ends its request; T=1 numbering is unknown from then on. A PPS or an S(IFS
request) that is not answered takes its branch of R354 instead. An activation that is aborted leaves the card PRESENT
(log). (DEDUCED, log 96; DEDUCED, log 255) -/
def Chip.abortEnd (c : Chip) (h s : Nat) : Chip :=
  let x := c.slot h s
  if x.st = .activating ∧ x.msg = 0x6F ∧ !x.tmoFirst then
    (if byteAt x.lastBlock 0 = 0xFF then c.powerOff h s 3 else c.ifsRetry h s)
  else
    let c := match c.slotReq h s with
      | some (f, n, y) =>
        if x.tmoFirst then c.finishWith f n y.count St.timeout fun e => { e with length := 0 } else c.svcFail h f n y 0x02 x.msg
      | none => c
    let c := c.updSlot h s fun y => { y with
      st := if y.st = .activating then .present else y.st, unsynced := y.proto == 1 && y.st == .active }
    match c.inst h with
    | some i =>
      if i.st = .binding then c.bindFail h 0x02
      else
        let c := c.slotIdle h s
        if x.restarts then c.restartNext h s else c
    | none => c

/-- One message from the reader's bulk IN endpoint (R352, R356): one whose bSeq does not match is dropped. -/
def Chip.ccidMessage (c : Chip) (h : Nat) (bs : List Byte) : Chip :=
  match c.inst h with
  | none => c
  | some i =>
    let s := byteAt bs 5
    let x := c.slot h s
    if i.slots ≤ s || x.job == .none || x.job == .voltWait || byteAt bs 6 != x.seq ||
      !(0x80 ≤ byteAt bs 0 && byteAt bs 0 ≤ 0x83) then c
    else if x.job = .abort then (if byteAt bs 0 = 0x81 && byteAt bs 7 / 64 != 2 then c.abortEnd h s else c)
    else c.ccidAnswer h s i (byteAt bs 0) (byteAt bs 7) (byteAt bs 8) (byteAt bs 9) ((bs.drop 10).take (wordAt bs 1).toNat)

/-- The oldest message in the inbox. -/
def Chip.ccidInbox (c : Chip) (h : Nat) : Chip :=
  match (c.inst h).bind fun i => i.ccid.inbox.head? with
  | some bs => (c.updCcid h fun x => { x with inbox := x.inbox.drop 1 }).ccidMessage h bs
  | none => c

/-- The oldest packet of the interrupt endpoint: NotifySlotChange or HardwareError. -/
def Chip.ccidNotice (c : Chip) (h ep : Nat) : Chip :=
  match c.takePacket ep with
  | (some bs, c) =>
    if byteAt bs 0 = 0x50 then c.notifySlots h bs
    else if byteAt bs 0 = 0x51 then c.ccidMsg h 0x04 (mkWord [(byteAt bs 1, 0), (byteAt bs 3, 8)])
    else c
  | (none, c) => c

/-- The OUT transfer of a slot's command has ended: only a failure matters, since the answer follows a success. A STALL
of SetParameters fails the activation with PROTOCOL (R354 step 5). -/
def Chip.ccidSent (c : Chip) (h s st : Nat) : Chip :=
  if okStatus st then c
  else
    let y := c.slot h s
    let c := if y.job = .setParams ∧ st = St.stall then c.activateFail h s .error 0x06 s
      else
        let c := match c.slotReq h s with
          | some (f, n, x) => c.svcXferFail h f n x st 0
          | none => c
        let c := c.updSlot h s fun y => { y with st := if y.st = .activating then .present else y.st }
        match c.inst h with
        | some i =>
          if i.st = InstSt.binding then c.bindFail h (statusDetail st)
          else
            let c := c.slotIdle h s
            if y.restarts then c.restartNext h s else c
        | none => c
    match c.instEp h .bulk false with
    | some ep => if (c.ep ep).any Ep.halted then c.svcClear h ep else c
    | none => c

/-! ### Requests (R359) -/

def Chip.ccidRequest (c : Chip) (h f n : Nat) (x : Xfer) : Chip :=
  match c.inst h with
  | none => c
  | some i =>
    let s := x.d.argA
    let y := c.slot h s
    let busy := y.job != .none
    let later := c.updSlot h s fun z => { z with todo := z.todo ++ [(f, n, x.count)] }
    match x.d.req with
    | 0x01 =>
      if c.unreachable h then c.endSuspended f n x
      else if y.st = .absent then c.svcFail h f n x 0x04 s
      else if y.st = .activating then c.svcFail h f n x 0x08 0
      else if busy then later
      else
        let c := c.updSlot h s fun z => { z with req := some (f, n, x.count) }
        if y.st = .active then (c.updSlot h s fun z => { z with st := .activating }).powerOff h s 2 else c.activate h s
    | 0x02 =>
      if c.unreachable h then c.endSuspended f n x
      else if y.st = .absent then c.svcFail h f n x 0x04 s
      else if busy then later
      else (c.updSlot h s fun z => { z with req := some (f, n, x.count) }).powerOff h s 0
    | 0x03 =>
      if c.unreachable h then c.endSuspended f n x
      else if busy && y.st == .active then later
      else if y.st = .absent then c.svcFail h f n x 0x04 s
      else if y.st != .active then c.svcFail h f n x 0x0B s
      else c.startXfr h s f n x
    | 0x04 => c.svcOk f n x 0 0#32 (mkWord [(y.st.code, 0), (y.proto, 8)])
    | 0x05 =>
      let ss := if s = 0xFFFF then List.range i.slots else [s]
      let b := x.d.argB
      (c.each ss fun c k => c.updSlot h k fun z => { z with
        autoPower := b % 2 == 1, preferT1 := b / 2 % 2 == 1, noPps := b / 4 % 2 == 1 }).svcOk f n x
    | 0x06 =>
      if c.unreachable h then c.endSuspended f n x
      else if busy then later
      else (c.updSlot h s fun z => { z with req := some (f, n, x.count) }).ccidCmd h s .escape 0x6B (0, 0, 0) x.payload
    | _ => c

/-! ### Timers (R354, R356) -/

/-- R356: a command's wait has expired, or the TMO of its request: Abort and the class ABORT request are sent. -/
def Chip.ccidTimeout (c : Chip) (h s : Nat) (tmo : Bool) : Chip :=
  match c.inst h with
  | none => c
  | some i =>
    let x := c.slot h s
    if x.job = .none ∨ x.job = .abort ∨ (tmo && x.req.isNone) then c
    else if x.job = .voltWait then (c.updSlot h s fun y => { y with tmoFirst := tmo }).abortEnd h s
    else
      let old := x.msg
      let c := c.updSlot h s fun y => { y with tmoFirst := tmo }
      let seq := match c.inst h with | some i => i.ccid.bseq | none => 0
      let c := (c.ccidCmd h s .abort 0x72 (0, 0, 0) []).updSlot h s fun y => { y with msg := old }
      c.instCtl h (s + 1) (slotTag s + 1) i.dev (setup0 0x21 0x01 (seq * 256 + s), setup1 i.iface 0)

/-! ### Binding (R352) -/

/-- The CCID class descriptor (54 bytes, type 0x21) of an interface. -/
def IfDesc.ccidDesc (d : IfDesc) : Option (List Byte) := d.rest.find? fun x => descType x == 0x21 && 54 ≤ x.length

/-- R352: the reader's class descriptor allows the bind: at most 8 slots, an exchange level above characters, and a
protocol. -/
def ccidFits (x : List Byte) : Bool :=
  byteAt x 4 ≤ 7 && bits (wordAt x 40) 18 16 != 0 && bits (wordAt x 6) 1 0 != 0

/-- The class state that a class descriptor gives. -/
def ccidOf (x : List Byte) : Ccid :=
  { features := wordAt x 40, protocols := bits (wordAt x 6) 1 0, maxMsg := (wordAt x 44).toNat, volts := byteAt x 5,
    clock := (wordAt x 10).toNat, rates := [(wordAt x 19).toNat, (wordAt x 23).toNat] }

/-- The bind sequence: each slot's status is asked for, one after the other. A restarted instance powers every slot off
first (R370). -/
def Chip.ccidBind (c : Chip) (h : Nat) : Chip :=
  match c.inst h with
  | none => c
  | some i =>
    if i.st = .restarting then c.powerOff h 0 5
    else match (c.ifOf i.dev i.iface).bind IfDesc.ccidDesc with
      | some x =>
        if ccidFits x then (c.updInst h fun i => { i with ccid := { ccidOf x with slots := i.ccid.slots }, slots := byteAt x 4 + 1 }).askStatus h 0
        else c.bindFail h 0x09
      | none => c.bindFail h 0x09

end Sys2Proof.Machine
end

