-- ==== Sys2Proof/Machine/Strm.lean ====
section
/-!
DEFINITION. STRM (R361 to R366): printers and CDC-ACM serial functions: requests, received data, and STREAM_JOBs.
-/
namespace Sys2Proof.Machine

def Chip.updStrm (c : Chip) (h : Nat) (g : Strm → Strm) : Chip := c.updInst h fun i => { i with strm := g i.strm }

/-! ### RX (R362, R366) -/

/-- Send the bytes gathered, up to `k`, as an RXDATA message; a change of RX_CFG takes effect after it. -/
def Chip.sendRx (c : Chip) (h k : Nat) : Chip :=
  match c.inst h with
  | none => c
  | some i =>
    let bs := i.strm.rx.take k
    let c := c.updStrm h fun x =>
      let y := x.nextRx.getD (x.rxIdle, x.rxChunk)
      { x with rx := x.rx.drop k, rxTimer := decide (k < x.rx.length), rxIdle := y.1, rxChunk := y.2, nextRx := none }
    c.dataMsg h i.port 0x01 i.dev (wordBytes (mkWord [(bs.length, 0)]) ++ bs)

def Chip.sendFullRx : Nat → Chip → Nat → Chip
  | 0, c, _ => c
  | k + 1, c, h =>
    match c.inst h with
    | some i => if i.strm.rxChunk ≤ i.strm.rx.length then Chip.sendFullRx k (c.sendRx h i.strm.rxChunk) h else c
    | none => c

/-- The oldest packet of the bulk IN endpoint joins the bytes gathered; the gap starts again. -/
def Chip.strmData (c : Chip) (h ep : Nat) : Chip :=
  match c.takePacket ep with
  | (some bs, c) =>
    let c := c.updStrm h fun x => { x with rx := x.rx ++ bs, rxTimer := !(x.rx ++ bs).isEmpty }
    Chip.sendFullRx (bs.length + 1) c h
  | (none, c) => c

/-- The oldest packet of the interrupt endpoint: a SERIAL_STATE notification. -/
def Chip.strmNotice (c : Chip) (h ep : Nat) : Chip :=
  match c.takePacket ep with
  | (some bs, c) =>
    match c.inst h with
    | some i => if byteAt bs 1 = 0x20 then c.statusMsg h 0x02 i.dev noRef (wordBytes (mkWord [(halfAt bs 8, 0)])) else c
    | none => c
  | (none, c) => c

/-! ### Jobs (R363, R364, R440) -/

def jobFetchTag (count : Word) : Nat := 6 + 64 * count.toNat
def jobSendTag (count : Word) : Nat := Strm.jobTag + 64 * count.toNat
def jobZlpTag (count : Word) : Nat := 5 + 64 * count.toNat

/-- Requests that waited for a job to end go on, each by its task, and so does the next job. -/
def Chip.strmWake (c : Chip) (h : Nat) : Chip :=
  match (c.inst h).bind Inst.wq with
  | none => c
  | some (f, n) => match c.wq f n, c.instFlow h 0 with
    | some q, some fl =>
      c.each (q.work.filter fun (x : Xfer) => x.result.isNone && x.svcPhase == 1) fun c x =>
        (c.updXfer f n x.count fun y => { y with svcPhase := 0, svcRun := false }).happen fl 0 (.request f n x.count)
    | _, _ => c

/-- R364: the job's next chunk of 64 KiB is fetched, as a continuation. -/
def Chip.jobFetch (c : Chip) (h : Nat) (count : Word) : Chip := c.instCont h 0 (jobFetchTag count) 1

/-- A STREAM_JOB starts with a record of its own, or waits for one (R436). -/
def Chip.startStream (c : Chip) (h f n : Nat) (x : Xfer) : Chip :=
  match c.opRoom f with
  | none => c.updOps fun o => { o with jobsWait := o.jobsWait ++ [(f, n, x.count)] }
  | some c =>
    let (i, c) := c.newOp f .streamJob 0xFFFF [] x.d.length
    let c := c.updOp i fun o => { o with job := some (f, n, x.count, h) }
    let c := (c.updStrm h fun y => { y with job := some i, stalled := false }).updXfer f n x.count fun y => { y with svcRun := true }
    (c.jobMsg i).jobFetch h x.count

def Chip.strmJob (c : Chip) (h f n : Nat) (x : Xfer) : Chip :=
  match c.inst h with
  | none => c
  | some i =>
    if i.strm.job.isSome then c.updXfer f n x.count fun y => { y with svcPhase := 1 } else c.startStream h f n x

/-- R436: jobs that wait for an operation record start as records become free. -/
def Chip.jobsStart (c : Chip) : Chip :=
  c.each c.ops.jobsWait fun c j =>
    match c.opRoom j.1 with
    | none => c
    | some _ =>
      let c := c.updOps fun o => { o with jobsWait := o.jobsWait.erase j }
      match c.xfer j.1 j.2.1 j.2.2, (c.wq j.1 j.2.1).bind fun q => match q.bind with | .svc h => some h | _ => none with
      | some x, some h => if x.result.isNone then c.strmJob h j.1 j.2.1 x else c
      | _, _ => c

/-- The job ends with a completion status and the bytes acknowledged (R364, R437). (DEDUCED, log 106) -/
def Chip.jobEnd (c : Chip) (h status : Nat) (g : Cpl → Cpl := id) : Chip :=
  match (c.inst h).bind fun i => i.strm.job with
  | none => c
  | some o => match c.op o with
    | none => c
    | some r => match r.job with
      | none => c
      | some (f, n, count, _) =>
        let c := c.finishWith f n count status fun e => g { e with length := r.progress }
        let c := (c.opDone o status).updStrm h fun y => { y with job := none, stalled := false }
        (c.strmWake h).jobsStart

/-- The chunk that has been fetched is sent. -/
def Chip.jobSend (c : Chip) (h : Nat) (count : Word) (from_ : Nat) : Chip :=
  match c.reqOf h count, c.instEp h .bulk false with
  | some (_, _, x), some ep =>
    let bs := x.payload.drop from_
    c.instSend h 0 (jobSendTag count) ep (mkDesc 2 bs.length 0#32 0#32) bs
  | _, _ => c

/-- R440: the ending steps of a cancelled job: a zero-length packet where the last packet sent was MPS long, then the
end. No transaction of it is on the wire. -/
def Chip.jobCancelStep (c : Chip) (h : Nat) : Chip :=
  match (c.inst h).bind fun i => i.strm.job with
  | none => c
  | some o => match c.op o, c.instEp h .bulk false with
    | some r, some ep => match r.job, c.ep ep with
      | some (_, _, count, _), some e =>
        let c := c.updEp ep fun e => { e with svc := e.svc.filter fun s => s.who != .inst h (jobSendTag count) }
        let c := c.cancelTasks fun t => t.job == .cont h (jobSendTag count) || t.job == .cont h (jobFetchTag count)
        if 0 < r.progress ∧ e.mps ≠ 0 ∧ r.progress % e.mps = 0 ∧ r.progress < r.total ∧ !c.unreachable h then
          c.instSend h 0 (jobZlpTag count) ep (mkDesc 2 0 0#32 0#32) []
        else c.jobEnd h St.cancelled
      | _, _ => c.jobEnd h St.cancelled
    | _, _ => c.jobEnd h St.cancelled

/-- The outcome of a chunk. -/
def Chip.jobOutcome (c : Chip) (h : Nat) (count : Word) (st sent : Nat) : Chip :=
  let o := (c.inst h).bind fun i => i.strm.job.bind c.op
  match c.reqOf h count with
  | none => if o.any fun r => r.st == .cancelling then c.jobCancelStep h else c
  | some (f, n, x) =>
    if o.any fun r => r.st == .cancelling then c.jobCancelStep h
    else if okStatus st then
      let done := x.done + x.payload.length
      let c := c.updXfer f n count fun y => { y with done := done, payload := [] }
      if x.d.length ≤ done then c.jobEnd h St.success else c.jobFetch h count
    else if st = St.suspended ∨ st = St.powerCancelled then
      c.jobSend h count ((o.map fun r => r.progress - x.done).getD sent)
    else if St.halts st || st == St.timeout then
      let d0 := mkWord [(statusDetail st, 0), (4, 8), (if st = St.stall || st == St.timeout then 0 else st, 16)]
      let c := c.jobEnd h St.serviceError fun e => { e with d0 := d0 }
      let c := c.updSvc fun s => { s with svcErr := satAdd 0xFFFF s.svcErr 1 }
      let c := match c.inst h with
        | some i => c.statusMsg h 0xF2 i.dev count (wordsBytes [d0, 0#32])
        | none => c
      match c.instEp h .bulk false with
      | some ep => if (c.ep ep).any Ep.halted then c.svcClear h ep else c
      | none => c
    else c.jobEnd h st

/-! ### The stall rule (R364) -/

/-- GET_PORT_STATUS while a printer's job is stalled. -/
def Chip.pollPrinter (c : Chip) (h : Nat) : Chip :=
  match c.inst h with
  | some i => if c.unreachable h then c else c.instCtl h 0 3 i.dev (setup0 0xA1 1 0, setup1 i.iface 1)
  | none => c

/-- No byte has been acknowledged for STALL ms. -/
def Chip.jobStall (c : Chip) (h : Nat) : Chip :=
  match c.inst h with
  | none => c
  | some i => match i.strm.job.bind c.op with
    | none => c
    | some o =>
      if o.st != .running || i.strm.stalled then c
      else
        let c := (c.updStrm h fun y => { y with stalled := true }).jobMsg o.opid
        if i.strm.cdc then c else c.instCont h 0 4 1 true

/-- The 1 s of the printer poll has passed. -/
def Chip.stallPoll (c : Chip) (h : Nat) : Chip :=
  match c.inst h with
  | some i => if i.strm.stalled then (c.pollPrinter h).instCont h 0 4 1 true else c
  | none => c

/-- The printer's status has been read: a change is told. -/
def Chip.stallStatus (c : Chip) (h st : Nat) (data : List Byte) : Chip :=
  match c.inst h with
  | none => c
  | some i =>
    if !okStatus st || byteAt data 0 == i.strm.portStatus then c
    else
      (c.updStrm h fun y => { y with portStatus := byteAt data 0 }).statusMsg h 0x04 i.dev noRef
        (wordBytes (mkWord [(byteAt data 0, 0)]))

/-! ### Requests (R365) -/

/-- (DEDUCED, log 256) -/
def Chip.strmRequest (c : Chip) (h f n : Nat) (x : Xfer) : Chip :=
  match c.inst h with
  | none => c
  | some i =>
    let tag := reqTag x.d.req x.count
    let cdcOnly := [2, 3, 4].contains x.d.req
    let prnOnly := [5, 6, 7].contains x.d.req
    if (cdcOnly && !i.strm.cdc) || (prnOnly && i.strm.cdc) then c.svcFail h f n x 0x09 0
    else match x.d.req with
    | 0x08 =>
      (c.updStrm h fun y => if y.rx.isEmpty then { y with rxIdle := x.d.argA, rxChunk := x.d.argB }
        else { y with nextRx := some (x.d.argA, x.d.argB) }).svcOk f n x
    | 0x06 => if i.strm.devId.isEmpty then c.svcFail h f n x 0x09 0 else c.svcAnswer h f n x i.strm.devId
    | 0x01 =>
      if i.strm.job.isSome then c.updXfer f n x.count fun y => { y with svcPhase := 1 }
      else if c.unreachable h then c.endSuspended f n x
      else match c.instEp h .bulk false with
        | some ep => c.instSend h 0 tag ep (mkDesc 2 x.payload.length 0#32 0#32) x.payload
        | none => c.svcFail h f n x 0x09 0
    | _ =>
      if c.unreachable h then c.endSuspended f n x
      else
        let a := x.d.argA
        match x.d.req with
        | 0x02 => c.instCtl h 0 tag i.dev (setup0 0x21 0x20 0, setup1 i.iface 7)
            (natBytes 4 x.d.argC.toNat ++ [BitVec.ofNat 8 (a / 4096), BitVec.ofNat 8 (a / 256 % 16), BitVec.ofNat 8 (a % 256)])
        | 0x03 => c.instCtl h 0 tag i.dev (setup0 0x21 0x22 a, setup1 i.iface 0)
        | 0x04 => c.instCtl h 0 tag i.dev (setup0 0x21 0x23 a, setup1 i.iface 0)
        | 0x05 => c.instCtl h 0 tag i.dev (setup0 0xA1 0x01 0, setup1 i.iface 1)
        | 0x07 => c.instCtl h 0 tag i.dev (setup0 0x21 0x02 0, setup1 i.iface 0)
        | _ => c

/-- The bRequest of a request's control transfer. -/
def strmRq (req : Nat) : Nat := [0, 0, 0x20, 0x22, 0x23, 0x01, 0, 0x02].getD req 0

/-- The transfer of a request has ended. -/
def Chip.strmOutcome (c : Chip) (h req f n : Nat) (x : Xfer) (st : Nat) (data : List Byte) : Chip :=
  if okStatus st then
    match req with
    | 0x01 => c.svcOk f n x x.outLen
    | 0x02 => (c.updStrm h fun y => { y with line := data }).svcOk f n x
    | 0x03 => (c.updStrm h fun y => { y with ctrl := x.d.argA }).svcOk f n x
    | 0x05 => (c.updStrm h fun y => { y with portStatus := byteAt data 0 }).svcOk f n x 0 0#32 (mkWord [(byteAt data 0, 0)])
    | 0x07 =>
      let es := (c.eps.filter fun e => e.2.inst == some h && e.2.type == .bulk).map Prod.fst
      (c.each es fun c e => c.updEp e fun y => { y with toggle := false, strikes := 0, ping := false, halted := false }).svcOk f n x
    | _ => c.svcOk f n x
  else
    let c := c.svcXferFail h f n x st (strmRq req) (if req = 0x01 then data.length else 0)
    if req = 0x01 then
      match c.instEp h .bulk false with
      | some ep => if (c.ep ep).any Ep.halted then c.svcClear h ep else c
      | none => c
    else c

/-! ### Binding (R361) -/

/-- The data interface that a communication interface's Union descriptor names. -/
def IfDesc.unionOf (d : IfDesc) : Option Nat :=
  (d.rest.find? fun x => descType x == 0x24 && byteAt x 2 == 6 && 5 ≤ x.length).map fun x => byteAt x 4

def Chip.strmBind (c : Chip) (h : Nat) : Chip :=
  match c.inst h with
  | none => c
  | some i =>
    let n := i.iface
    match i.strm.cdc, i.step with
    | false, 0 => c.instCtl h 0 bindTag i.dev (setup0 0xA1 0 0, setup1 (n * 256 + (match c.dev i.dev with
        | some d => d.altOf n
        | none => 0)) 1024)
    | false, _ => c.instCtl h 0 bindTag i.dev (setup0 0xA1 1 0, setup1 n 1)
    | true, 0 => c.instCtl h 0 bindTag i.dev (setup0 0xA1 0x21 0, setup1 n 7)
    | true, _ => c.instCtl h 0 bindTag i.dev (setup0 0x21 0x22 3, setup1 n 0)

/-- A request of the bind sequence has been answered. A restarted CDC-ACM instance keeps its line settings (R370). -/
def Chip.strmBound (c : Chip) (h st : Nat) (data : List Byte) : Chip :=
  match c.inst h with
  | none => c
  | some i =>
    let next := fun (c : Chip) => (c.updInst h fun i => { i with step := 1 }).strmBind h
    match i.strm.cdc, i.step with
    | false, 0 =>
      if okStatus st then next (c.updStrm h fun y => { y with devId := data })
      else if st = St.stall then next c
      else c.bindFail h (statusDetail st)
    | false, _ =>
      if okStatus st then (c.updStrm h fun y => { y with portStatus := byteAt data 0 }).bindDone h
      else c.bindFail h (statusDetail st)
    | true, 0 =>
      if !okStatus st then c.bindFail h (statusDetail st)
      else
        let c := c.updStrm h fun y => { y with line := data }
        if i.st = .restarting then c.bindDone h else next c
    | true, _ =>
      if okStatus st then (c.updStrm h fun y => { y with ctrl := 3 }).bindDone h else c.bindFail h (statusDetail st)

end Sys2Proof.Machine
end

