-- ==== Sys2Proof/Machine/Hlth.lean ====
section
/-!
DEFINITION. HLTH (R367 to R369): the watch over a root port's tree.
-/
namespace Sys2Proof.Machine

def Chip.updHlth (c : Chip) (h : Nat) (g : Hlth → Hlth) : Chip := c.updInst h fun i => { i with hlth := g i.hlth }
def Chip.watch (c : Chip) (h d : Nat) : Watch :=
  match c.inst h with
  | some i => Tab.get (fun _ => {}) i.hlth.devs d
  | none => {}
def Chip.updWatch (c : Chip) (h d : Nat) (g : Watch → Watch) : Chip :=
  c.updHlth h fun x => { x with devs := Tab.upd (fun _ => {}) x.devs d g }

/-- What is counted for the port as a whole stands under this number, which names no device (R257; log). -/
def portWatch : Nat := 0xFFFF

/-! ### Alerts (R368) -/

/-- Kind `k` (1 to 6) of a device counts `n` more; `hit`: its threshold is reached. An ALERT is raised unless it
stands. (DEDUCED, log 99; DESIGN CHOICE, log 100) -/
def Chip.watchCount (c : Chip) (h d k n : Nat) (hit : Bool) : Chip :=
  if n = 0 then c
  else
    let was := (c.watch h d).alerts.getD (k - 1) false
    let c := c.updWatch h d fun w => { w with
      counts := w.counts.modify (k - 1) (· + n)
      hits := if hit then w.hits.set (k - 1) true else w.hits
      alerts := if hit then w.alerts.set (k - 1) true else w.alerts }
    if hit && !was then
      let (v, c) := c.trackLen ((c.watch h d).counts.getD (k - 1) 0)
      c.statusMsg h 0x02 d noRef (wordBytes (mkWord [(k, 0), (v, 8)]))
    else c

/-- The end of a window of 64 heartbeats: an alert whose kind stayed below its threshold is cleared, with CLEARED. -/
def Chip.watchWindow (c : Chip) (h : Nat) : Chip :=
  match c.inst h with
  | none => c
  | some i =>
    let ds := i.hlth.devs.map Prod.fst
    let c := c.each ds fun c d =>
      let w := c.watch h d
      let ks := (List.range 6).filter fun k => w.alerts.getD k false && !w.hits.getD k false
      let c := c.each ks fun c k =>
        let (v, c) := c.trackLen (w.counts.getD k 0)
        (c.updWatch h d fun w => { w with alerts := w.alerts.set k false }).statusMsg h 0x03 d noRef
          (wordBytes (mkWord [(k + 1, 0), (v, 8)]))
      c.updWatch h d fun w => { w with counts := List.replicate 6 0, hits := List.replicate 6 false }
    c.updHlth h fun x => { x with inWindow := 0, attaches := [] }

/-! ### The heartbeat (R367) -/

/-- The counters of the port since the last heartbeat, through HLTH's own copies. (DEDUCED, log 101) -/
def Chip.watchPort (c : Chip) (h p : Nat) : Chip :=
  let s := (c.port p).sc
  let errs := s.seenErrs
  let c := c.updSc p fun s => { s with seenErrs := 0, seenBabble := 0, seenPower := 0, seenWake := 0, attachLog := [] }
  let c := c.updHlth h fun x => { x with attaches := x.attaches ++ s.attachLog }
  let cnt := fun (c : Chip) k => (c.watch h portWatch).counts.getD (k - 1) 0
  let c := c.watchCount h portWatch 2 errs (decide (16 ≤ errs))
  let c := c.watchCount h portWatch 3 s.seenBabble true
  let c := c.watchCount h portWatch 5 s.seenPower (decide (2 ≤ cnt c 5 + s.seenPower))
  let c := c.watchCount h portWatch 6 s.seenWake (decide (8 ≤ cnt c 6 + s.seenWake))
  -- FLAPPING: the device now at the position, or with the serial string, of each new ATTACH
  c.each s.attachLog fun c a =>
    let all := match c.inst h with | some i => i.hlth.attaches | none => []
    let n := max (all.filter fun b => b.1 == a.1).length (if a.2.isEmpty then 0 else (all.filter fun b => b.2 == a.2).length)
    let d := ((c.devs.find? fun e => e.1 < 0x800 && e.2.port == p && !e.2.detached && e.2.parent == a.1).map Prod.fst).getD portWatch
    (c.updWatch h d fun w => { w with counts := w.counts.set 3 (max (w.counts.getD 3 0) (n - 1)) }).watchCount h d 4 1 (decide (4 ≤ n))

/-- One heartbeat: the options that waited take effect, every device that can be asked is asked, the counters are read,
and a SUMMARY is sent when it is due. -/
def Chip.heartbeat (c : Chip) (h : Nat) : Chip :=
  match c.inst h with
  | none => c
  | some i =>
    let p := i.port
    let c := c.updHlth h fun x => match x.nextOpts with
      | some (iv, nf, ar, su) => { x with hbiv := iv, hbfail := nf, autoReset := ar, sumiv := su, nextOpts := none, beats := x.beats + 1 }
      | none => { x with beats := x.beats + 1 }
    let c := c.updHlth h fun x => { x with devs := x.devs.filter fun e => e.1 == portWatch || (c.dev e.1).any fun d => !d.detached }
    let c : Chip := match c.inst h with
      | some j => c.updInst h fun i => { i with tick := i.tick.map fun (t : Nat × Mfn × Mfn) => (j.hlth.hbiv, t.2) }
      | none => c
    let ds := if (c.port p).st == PortSt.enabled then (c.devsOf p).filter fun d => !c.devAsleep 6 d else []
    let c := c.each ds fun c d => c.instCtl h 0 (hlthTag d) d (setup0 0x80 0 0, setup1 0 2)
    let c := (c.watchPort h p).updHlth h fun x => { x with inWindow := x.inWindow + 1 }
    let c := match c.inst h with
      | some j =>
        if j.hlth.sumiv != 0 && (BitVec.ofNat 32 j.hlth.beats).toNat % j.hlth.sumiv == 0 then
          let w := (c.devsOf p).length
          let a := (j.hlth.devs.filter fun (e : Nat × Watch) => e.2.alerts.any id).length
          c.dataMsg h p 0x01 0xFFFF (wordsBytes [mkWord [(min w 255, 0), (min a 255, 8)], BitVec.ofNat 32 j.hlth.beats])
        else c
      | none => c
    match c.inst h with
    | some j => if 64 ≤ j.hlth.inWindow then c.watchWindow h else c
    | none => c

/-- A device has answered, or not (R367). -/
def Chip.hlthOutcome (c : Chip) (h d st : Nat) : Chip :=
  match c.inst h with
  | none => c
  | some i =>
    if !(c.dev d).any (fun x => !x.detached) then c
    else if st = St.timeout ∨ st = St.xactError ∨ st = St.splitError ∨ st = St.babble then
      let n := (c.watch h d).fails + 1
      let c := (c.updWatch h d fun w => { w with fails := n }).watchCount h d 1 1 (decide (i.hlth.hbfail ≤ n))
      if n = i.hlth.hbfail ∧ i.hlth.autoReset then
        (c.updRun i.port fun r => { r with todo := r.todo ++ [.reset d none] }).happen i.port 0 (.enum i.port 6 0)
      else c
    else if okStatus st || st == St.stall then c.updWatch h d fun w => { w with fails := 0 }
    else c

/-! ### Requests (R369) -/

/-- SNAPSHOT writes 16 bytes for each device; the spec gives their content but no layout, so the bytes are free (log).
(DESIGN CHOICE, log 102) -/
def Chip.snapshot (c : Chip) (h : Nat) : List Byte × Chip :=
  match c.inst h with
  | none => ([], c)
  | some i =>
    let k := 16 * (c.devsOf i.port).length
    ((List.range k).map fun j => Config.freeByte (c.free * 65536 + j), { c with free := c.free + 1 })

/-- (DEDUCED, log 103) -/
def Chip.hlthRequest (c : Chip) (h f n : Nat) (x : Xfer) : Chip :=
  match x.d.req with
  | 0x01 =>
    let b := x.d.argB
    (c.updHlth h fun y => { y with nextOpts := some (x.d.argA, b % 16, b / 16 % 2 == 1, b / 256) }).svcOk f n x
  | 0x02 =>
    let s := c.snapshot h
    s.2.svcAnswer h f n x s.1
  | _ => c

end Sys2Proof.Machine
end

