-- ==== Sys2Proof/Machine/Services.lean ====
section
/-!
DEFINITION. The service requests as they are given to their services (R266, R304, R337 to R343), the continuations of an
instance's work, the start of a bind sequence, restarts (R370) and periodic ticks (R190).
-/
namespace Sys2Proof.Machine

/-! ### What a request waits for (R304, R338) -/

/-- The bytes of payload that a service descriptor fetches before it starts: an OUT request's LENGTH, an IN/OUT one's
B bytes; a STREAM_JOB's chunks are fetched as it goes. (DEDUCED, log 24) -/
def Xfer.needs (x : Xfer) (svc : Svc) (slots : Nat) : Nat :=
  if x.d.ty = some .svcReq then
    match (reqRow svc slots x.d.req).map ReqRow.dir with
    | some .out => x.d.length
    | some .inout => x.d.argB
    | _ => 0
  else 0

/-- The entries of a service descriptor's index table (R134). -/
def Xfer.svcEntries (x : Xfer) : Nat :=
  if x.d.index && x.d.svcElemLen != 0 then (x.d.length + x.d.svcElemLen - 1) / x.d.svcElemLen else 0

/-- R304, R306: the request waits for a fetch: of payload, or of its index table. -/
def Xfer.waitsFetch (x : Xfer) (svc : Svc) (slots : Nat) : Bool :=
  x.d.ty == some .svcReq && (decide (0 < x.needs svc slots) || x.d.index)

/-- What it waits for is there. -/
def Xfer.fetched (x : Xfer) (svc : Svc) (slots : Nat) : Bool :=
  decide (x.needs svc slots ≤ x.moved) && (x.d.ty != some .svcReq || decide (x.svcEntries ≤ x.index.length))

/-- The end of the 64 KiB chunk that a STREAM_JOB fetches now (R364). -/
def Xfer.chunkEnd (x : Xfer) : Nat := min x.d.length ((x.done / 65536 + 1) * 65536)

/-- The instance that a WQ is bound to. -/
def Wq.instOf (q : Wq) : Option Nat :=
  match q.bind with
  | .svc h => some h
  | _ => none

/-! ### ENUM's requests (R266) -/

/-- The bmAttributes byte of an endpoint, as its device's configuration set gives it. -/
def Chip.epAttrs (c : Chip) (e : Ep) : Nat :=
  if e.dflt then 0
  else match (c.dev e.dev).bind fun d => (ifsOf d.cfg).find? fun i => i.num == e.iface && i.alt == e.alt with
    | some i => match i.eps.find? fun x => byteAt x 2 == e.addr with
      | some x => byteAt x 3
      | none => 0
    | none => 0

/-- DESCRIBE's answer. -/
def Chip.describe (c : Chip) (h : Nat) (d : Dev) : List Byte :=
  let mine := c.eps.filter fun e => e.2.dev == h && !e.2.gone
  let es := (mine.filter fun e => e.2.dflt) ++ mine.filter fun e => !e.2.dflt
  wordsBytes [mkWord [(h, 0), (es.length, 16)], mkWord [(d.cfg.length, 0)]] ++
  (es.flatMap fun e => wordsBytes [mkWord [(e.1, 0), (if e.2.dflt then 0 else e.2.addr, 16), (c.epAttrs e.2, 24)],
    mkWord [(e.2.wMax, 0), (e.2.iface, 16), (e.2.alt, 24)]]) ++ d.desc ++ d.cfg

/-- The root port on whose flow an ENUM request is served: that of the device or endpoint context it names (R310). -/
def Chip.enumReqPort (c : Chip) (x : Xfer) : Option Nat :=
  if x.d.req = 0x80 then none
  else if x.d.req = 0x04 ∨ x.d.req = 0x05 then c.epPort x.d.argA
  else c.devPort x.d.argA

/-- An ENUM request of function `f` (R266). -/
def Chip.enumRequest (c : Chip) (f n : Nat) (x : Xfer) : Chip :=
  let h := 0x800 + f
  let a := x.d.argA
  let byEp := x.d.req == 0x04 || x.d.req == 0x05
  let dev := if byEp then (match c.ep a with | some e => if e.gone then 0xFFFF else e.dev | none => 0xFFFF) else a
  match c.reqDev f dev with
  | .inl st => c.finishWith f n x.count st fun e => { e with length := 0 }
  | .inr d =>
    match x.d.req with
    | 0x01 => c.svcAnswer h f n x (c.describe a d)
    | 0x05 => (c.updEp a fun e => { e with weight := x.d.argB % 32 }).svcOk f n x
    | 0x08 => c.enumAdd d.port (.reset a (some (f, n, x.count)))
    | 0x04 =>
      if x.d.argB % 2 = 0 then
        (c.updEp a fun e => { e with toggle := false, strikes := 0, ping := false, halted := false }).svcOk f n x
      else c.enumAdd d.port (.request f n x.count)
    | _ => c.enumAdd d.port (.request f n x.count)

/-! ### Giving a request to its service -/

/-- R336, R343: a request of instance `h` runs now, its payload being there. -/
def Chip.runRequest (c : Chip) (h f n : Nat) (i : Inst) (x : Xfer) : Chip :=
  let c := c.updXfer f n x.count fun y => { y with svcRun := true }
  if x.d.ty = some .svcReq ∧ x.d.req = 0x80 then (c.flushWq f n).recvTry h
  else if i.st = .detached then c.finishWith f n x.count St.detached fun e => { e with length := 0 }
  else match i.svc with
    | .enum => c.enumRequest f n x
    | .hidx => c.hidxRequest h f n x
    | .ccid => c.ccidRequest h f n x
    | .strm => if x.d.ty = some .streamJob then c.strmJob h f n x else c.strmRequest h f n x
    | .hlth => c.hlthRequest h f n x

/-- The request at WQCOUNT `count` of WQ (f, n), consumed, with its payload fetched and not yet given to its service, of
which `p` holds: it is given to its service. -/
def Chip.giveRequest (c : Chip) (f n : Nat) (count : Word) (p : Svc → Xfer → Bool) : Chip :=
  match c.wq f n, c.xfer f n count with
  | some q, some x =>
    match q.instOf.bind fun h => (c.inst h).map fun i => (h, i) with
    | some (h, i) =>
      if x.svcRun || !x.fetched i.svc i.slots || !p i.svc x then c else c.runRequest h f n i x
    | none => c
  | _, _ => c

def Chip.svcRequest (c : Chip) (f n : Nat) (count : Word) : Chip := c.giveRequest f n count fun _ _ => true

/-- One service's request with a code. -/
def isReq (svc : Svc) (req : Nat) (s : Svc) (x : Xfer) : Bool := s == svc && x.d.ty == some .svcReq && x.d.req == req

/-- R304: a SVC_REQ or STREAM_JOB that has been consumed creates a task in the instance's request flow, with one
dependence when it has payload to fetch. ENUM's are on the flow of the root port they concern; one that concerns no port
takes effect at once. -/
def Chip.svcTaken (c : Chip) (f n : Nat) (count : Word) : Chip :=
  match c.wq f n, c.xfer f n count with
  | some q, some x =>
    match q.instOf.bind fun h => (c.inst h).map fun i => (h, i) with
    | some (h, i) =>
      let flow := if i.svc = .enum then c.enumReqPort x else c.instFlow h 0
      match flow with
      | some fl => c.happen fl (if x.waitsFetch i.svc i.slots then 1 else 0) (.request f n count) (0 < x.d.tmo && x.d.ty == some .svcReq)
      | none => c.svcRequest f n count
    | none => c
  | _, _ => c

/-! ### Outcomes (R304, R306) -/

/-- A request's transfer has ended. -/
def Chip.reqOutcome (c : Chip) (h req : Nat) (count : Word) (st : Nat) (data : List Byte) : Chip :=
  match c.inst h, c.reqOf h count with
  | some i, some (f, n, x) => match i.svc with
    | .hidx => c.hidxOutcome h req f n x st data
    | .strm => c.strmOutcome h req f n x st data
    | _ => c
  | _, _ => c

/-- A request of the bind sequence has ended. -/
def Chip.bindOutcome (c : Chip) (h st : Nat) (data : List Byte) : Chip :=
  match c.inst h with
  | some i => match i.svc with
    | .hidx => c.hidxBound h st data
    | .strm => c.strmBound h st data
    | _ => c
  | none => c

/-- A continuation of instance `h` is released: by its mark (R314). (DEDUCED, log 112) -/
def Chip.svcCont (c : Chip) (h tag : Nat) : Chip :=
  let k := tag / 64
  let out := c.takeOutcome h tag
  match tag % 64 with
  | 63 => c.svcClear h k
  | 62 => out.2.svcCleared h k
  | 1 => match out with | (some o, c) => c.bindOutcome h o.1 o.2 | (none, c) => c
  | 2 => match out with | (some o, c) => c.jobOutcome h (tagCount tag) o.1 o.2.length | (none, c) => c
  | 3 => match out with | (some o, c) => c.stallStatus h o.1 o.2 | (none, c) => c
  | 4 => c.stallPoll h
  | 5 => out.2.jobEnd h St.cancelled
  | 6 => c.jobSend h (tagCount tag) 0
  | 40 => match out with | (some o, c) => c.ccidSent h k o.1 | (none, c) => c
  | 41 => out.2
  | 50 => match out with | (some o, c) => c.hlthOutcome h k o.1 | (none, c) => c
  | t => match out with | (some o, c) => c.reqOutcome h (t - 8) (tagCount tag) o.1 o.2 | (none, c) => c

/-- A packet that an endpoint context holds is handed to its service (R294, R304). -/
def Chip.svcPacket (c : Chip) (h ep : Nat) : Chip :=
  match c.inst h, c.ep ep with
  | some i, some e =>
    match i.svc with
    | .hidx => c.hidxPacket h ep
    | .ccid => if e.type = .bulk then c.ccidInbox h else c.ccidNotice h ep
    | .strm => if e.type = .bulk then c.strmData h ep else c.strmNotice h ep
    | _ => c
  | _, _ => c

/-! ### Bind sequences and restarts (R332, R334, R370) -/

/-- The service's bind sequence begins. -/
def Chip.bindRun (c : Chip) (h : Nat) : Chip :=
  match c.inst h with
  | none => c
  | some i => match i.svc with
    | .hidx => c.hidxBind h
    | .ccid => c.ccidBind h
    | .strm => c.strmBind h
    | _ => c.bindDone h

/-- R310: the flows of a service: how many, and their class. -/
def svcFlows (s : Svc) (slots : Nat) : Nat × Bool :=
  match s with
  | .ccid => (slots + 1, true)
  | .strm => (1, true)
  | _ => (1, false)

/-- Make the flows of instance `h` (R309, R310). -/
def Chip.makeFlows (c : Chip) (h : Nat) (s : Svc) (slots : Nat) : Chip :=
  c.each (List.range (svcFlows s slots).1) fun c _ =>
    let (fl, c) := c.newFlow h (svcFlows s slots).2
    c.updInst h fun i => { i with flows := i.flows ++ [fl] }

/-- The transfers that an instance has issued are taken back: those not on the wire at once. -/
def Chip.dropXfers (c : Chip) (h : Nat) (p : Nat → Bool) : Chip :=
  let es := (c.eps.filter fun e => e.2.svc.any fun s => match s.who with | .inst k t => k == h && p t | _ => false).map Prod.fst
  c.each es fun c e =>
    let wire := c.onWire e
    c.updEp e fun y => { y with svc := y.svc.filterMap fun s => match s.who with
      | .inst k t => if k = h ∧ p t then
          (if wire && s.x.started then some { s with x := { s.x with cause := some St.cancelled } } else none) else some s
      | _ => some s }

/-- R370: an instance restarts: its requests in progress fail with RESTARTED, its flows are made again, and its bind
sequence runs again. (DEDUCED, log 108) -/
def Chip.restartInst (c : Chip) (h why : Nat) : Chip :=
  match c.inst h with
  | none => c
  | some i =>
    if i.svc = .enum ∨ i.st = .closing ∨ i.st = .detached then c
    else
      let c := c.dropXfers h fun _ => true
      let c : Chip := match i.wq with
        | some (f, n) => match c.wq f n with
          | some q => c.each (q.work.filter fun (x : Xfer) => x.result.isNone && !x.waitingRecv) fun c x => c.svcFail h f n x 0x0E 0
          | none => c
        | none => c
      let c : Chip := match i.strm.job with
        | some o => (c.opDone o St.serviceError).updStrm h fun y => { y with job := none, stalled := false }
        | none => c
      let c := c.each i.flows fun c fl => c.closeFlow fl
      let c := c.updSvc fun s => { s with restarts := satAdd 0xFFFF s.restarts 1 }
      let c := c.updInst h fun i => { i with
        st := if i.st = .binding then .binding else .restarting
        flows := []
        outcomes := []
        step := 0
        why := why }
      let c := c.updCcid h fun x => { x with rx := [], inbox := [], slots := x.slots.map fun e => (e.1, { e.2 with job := .none, req := none, todo := [] }) }
      (c.makeFlows h i.svc i.slots).bindRun h

/-! ### Periodic ticks (R189, R190, R566) -/

/-- A tick of instance `h` is due: a task is made, and the next nominal microframe follows with the catch-up of R189.
While the instance is unreachable the nominal microframes pass. -/
def Chip.tickDue (c : Chip) (h : Nat) : Chip :=
  match c.inst h with
  | none => c
  | some i => match i.tick, i.flows.head? with
    | some (iv, nom, due), some fl =>
      if iv = 0 ∨ 8192 ≤ mfnAfter c.mfn due ∨ i.st != .active then c
      else
        let late := mfnAfter c.mfn nom
        let k := if late < 8192 then late / iv else 0
        let nom := nom + BitVec.ofNat 14 (iv * k)
        let next := nom + BitVec.ofNat 14 iv
        if c.unreachable h then c.updInst h fun i => { i with tick := some (iv, next, next) }
        else
          let debt := if late < 8192 then late % iv else 0
          let due := if debt ≤ 1 then next else next + BitVec.ofNat 14 (debt - 1)
          (c.updInst h fun i => { i with tick := some (iv, next, due), writeoff := satAdd 255 i.writeoff k }).happen fl 0 (.tick h)
    | _, _ => c

/-- A tick is released: HLTH's heartbeat, or CCID's slot-status poll (R353, R367). -/
def Chip.svcTick (c : Chip) (h : Nat) : Chip :=
  match c.inst h with
  | some i => match i.svc with
    | .hlth => c.heartbeat h
    | .ccid => c.watchSlots h
    | _ => c
  | none => c

/-! ### Deadlines (R308, R341, R343) -/

/-- A continuation's mark belongs to the request at `count`. -/
def tagOfReq (tag : Nat) (count : Word) : Bool := 8 ≤ tag % 64 && tag % 64 < 40 && tagCount tag == count

/-- The bytes that the open transfer of a request has moved. -/
def Chip.reqMoved (c : Chip) (h : Nat) (count : Word) : Nat :=
  (c.eps.findSome? fun e => (e.2.svc.find? fun s => match s.who with
    | .inst k t => k == h && tagOfReq t count
    | _ => false).map fun s => s.x.done).getD 0

/-- The TMO of a request has expired: the request completes with TIMEOUT after its service's ending steps. (DEDUCED,
log 107) -/
def Chip.requestTimeout (c : Chip) (f n : Nat) (count : Word) : Chip :=
  match c.wq f n, c.xfer f n count with
  | some q, some x =>
    match q.instOf.bind fun h => (c.inst h).map fun i => (h, i) with
    | none => c
    | some (h, i) =>
      let slot := if i.svc = .ccid then (List.range i.slots).find? fun s => (c.slot h s).req == some (f, n, count) else none
      match slot with
      | some s => c.ccidTimeout h s true
      | none =>
        let moved := if x.d.dataOut || x.d.ty == some .svcReq then c.reqMoved h count else 0
        let c := c.dropXfers h fun t => tagOfReq t count
        let c := if i.svc = .ccid then
            c.updCcid h fun y => { y with slots := y.slots.map fun e => (e.1, { e.2 with todo := e.2.todo.filter fun r => r != (f, n, count) }) }
          else c
        let c := c.cancelTasks fun t => t.job == .request f n count ||
          (match t.job with | .cont k g => k == h && tagOfReq g count | _ => false)
        c.finishWith f n count St.timeout fun e => { e with length := if x.waitingRecv then 0 else moved }
  | _, _ => c

/-- R308: the deadline of a request expires: a task of it that waits becomes ready with TIMEDOUT set; else the request
times out as it stands. -/
def Chip.deadline (c : Chip) (f n : Nat) (count : Word) : Chip :=
  match c.wq f n, c.xfer f n count with
  | some q, some x =>
    if x.d.ty != some .svcReq || x.d.tmo == 0 then c
    else
      let mine := fun (t : Task) => t.job == .request f n count ||
        (match t.job, q.instOf with | .cont k g, some h => k == h && tagOfReq g count | _, _ => false)
      match c.dsp.tasks.find? fun (t : Task) => t.st == .waiting && decide (0 < t.deps) && mine t with
      | some t =>
        let c := c.updDsp fun d => { d with timedOut := satAdd 0xFFFF d.timedOut 1 }
        (c.updTask t.id fun t => { t with deps := 0, timedOut := true }).settleTask t.id
      | none => c.requestTimeout f n count
  | _, _ => c

end Sys2Proof.Machine
end

