-- ==== Sys2Proof/Machine/Download.lean ====
section
/-!
DEFINITION. PERIPH_DOWNLOAD (R434), and the suspending, resuming and cancelling of the operations that send to a device
(R439, R440, R570, R571).
-/
namespace Sys2Proof.Machine

/-! ### The fields of a PERIPH_DOWNLOAD command (R424, R434) -/

def dlEp (d : List Word) : Nat := bits (dw d 5) 12 0
def dlControl (d : List Word) : Bool := bit (dw d 5) 16
def dlChunk (d : List Word) : Nat := bits (dw d 6) 15 0
def dlLen (d : List Word) : Nat := bits (dw d 4) 25 0
/-- Chunks in the whole operation. -/
def dlTotal (d : List Word) : Nat := (dlLen d + dlChunk d - 1) / dlChunk d

/-- The transfer of chunk `k`: its descriptor and its bytes. -/
def dlXfer (d : List Word) (payload : List Byte) (k : Nat) : Desc × List Byte :=
  let bs := (payload.drop (k * dlChunk d)).take (dlChunk d)
  if dlControl d then
    (mkDesc 1 bs.length (mkWord [(bits (dw d 7) 15 0, 0), ((bits (dw d 8) 31 16 + k) % 65536, 16)])
      (setup1 (bits (dw d 8) 15 0) bs.length), bs)
  else (mkDesc 2 bs.length 0#32 0#32, bs)

/-- The next chunk is handed to the endpoint; one whose endpoint has gone ends as its transfers do. -/
def Chip.dlSend (c : Chip) (i : Nat) : Chip :=
  match c.op i with
  | none => c
  | some o =>
    let h := dlEp o.cmd
    if o.busy || o.progress ≥ o.total then c
    else if c.bindGone (.ep h) then c.updOp i fun o => { o with delay := false, lastStatus := St.detached }
    else
      let t := dlXfer o.cmd o.payload o.progress
      (c.updOp i fun o => { o with busy := true, delay := false }).queueSvc h { who := .op i, x := { count := 0#32, d := t.1 }, data := t.2 }

/-- What its completion carries (R430): OUT0 to OUT2. -/
def Op.dlOuts (o : Op) : List Word :=
  [BitVec.ofNat 32 o.acked, BitVec.ofNat 32 o.progress, BitVec.ofNat 32 o.lastStatus]

/-- The transfer of a download is taken back: at once, or after the transaction on the wire. -/
def Chip.dlDrop (c : Chip) (i : Nat) : Chip :=
  match c.op i with
  | none => c
  | some o =>
    let h := dlEp o.cmd
    if o.busy && c.onWire h then
      c.updEp h fun e => { e with svc := e.svc.map fun s => if s.who = .op i then { s with x := { s.x with cause := some St.cancelled } } else s }
    else (c.updEp h fun e => { e with svc := e.svc.filter fun s => s.who != .op i }).updOp i fun o => { o with busy := false }

/-- LONG_OP_DONE of a download: after its last chunk, after an error, or cancelled with nothing on the wire. (DEDUCED,
log 123) -/
def Chip.dlDone (c : Chip) (i : Nat) : Chip :=
  match c.op i with
  | none => c
  | some o =>
    if o.busy then c
    else if o.st = .cancelling then c.opDone i Ad.cancelled 0#32 o.dlOuts
    else if o.st != .running then c
    else if o.lastStatus != St.success then c.opDone i Ad.deviceError 0#32 o.dlOuts
    else if o.total ≤ o.progress then c.opDone i Ad.success 0#32 o.dlOuts
    else c

/-! ### Suspending and resuming (R439, R440, R570, R571) -/

/-- SUSPENDED goes back to RUNNING; a download whose delay has passed sends its next chunk. -/
def Chip.resumeOp (c : Chip) (i : Nat) : Chip :=
  match c.op i with
  | none => c
  | some o =>
    if o.st != .suspended then c
    else
      let c := (c.opState i .running).updOp i fun o => { o with byPower := false }
      if o.kind = .download && !o.delay then c.dlSend i else c

/-- The root port on which an operation runs. -/
def Chip.opPort (c : Chip) (o : Op) : Option Nat :=
  match o.kind with
  | .streamJob => (o.job.bind fun j => c.inst j.2.2.2).map Inst.port
  | .download => c.epPort (dlEp o.cmd)
  | _ => none

/-- A transaction of the operation is on the wire. -/
def Chip.opOnWire (c : Chip) (o : Op) : Bool :=
  match o.kind with
  | .streamJob => (match o.job.bind fun j => c.instEp j.2.2.2 .bulk false with
      | some e => c.onWire e
      | none => false)
  | .download => c.onWire (dlEp o.cmd)
  | _ => false

/-- LONG_CANCEL of an operation that sends to a device (R440). -/
def Chip.cancelSender (c : Chip) (o : Op) : Chip :=
  match o.kind with
  | .streamJob => match o.job with
    | none => c
    | some (_, _, count, h) =>
      if c.opOnWire o then
        match c.instEp h .bulk false with
        | some e =>
          let cut := fun (s : SvcXfer) =>
            if s.who = .inst h (jobSendTag count) then { s with x := { s.x with cause := some St.cancelled } } else s
          c.updEp e fun y => { y with svc := y.svc.map cut }
        | none => c
      else c.jobCancelStep h
  | .download => c.dlDrop o.opid
  | _ => c

/-! ### A port becomes reachable again (R219, R567, R570, R571) -/

/-- An instance whose device can be reached again. -/
def Chip.instReach (c : Chip) (h : Nat) : Chip :=
  match c.inst h with
  | none => c
  | some i => match i.svc with
    | .hidx => c.updHidx h fun x => { x with prev := [] }
    | .ccid => if i.st = .active then c.lookSlots h else c
    | _ => c

/-- The tree's WQs fetch again and the instances go on. -/
def Chip.portReach (c : Chip) (p : Nat) : Chip :=
  let c := c.each (c.treeWqs p) fun c w => c.updWq w.1 w.2 fun q => { q with suspHold := false }
  let c : Chip := if (c.port p).away then
      c.each ((c.insts.filter fun e => e.2.port == p && e.2.svc != .enum).map Prod.fst) fun c h => c.instReach h
    else c
  let c := c.updPort p fun x => { x with away := false }
  c.each (c.ops.recs.filter fun o => o.byPower && o.st == .suspended && c.opPort o == some p) fun c o => c.resumeOp o.opid

/-- Instances that a change of the chip has made reachable again, behind a hub's port (R566). -/
def Chip.reaching (c : Chip) (g : Chip → Chip) : Chip :=
  let was := (c.insts.filter fun e => c.unreachable e.1).map Prod.fst
  let d := g c
  d.each (was.filter fun h => !d.unreachable h) fun c h => c.instReach h

end Sys2Proof.Machine
end

