-- ==== Sys2Proof/Machine/ServiceCmds.lean ====
section
/-!
DEFINITION. The commands of the class services (chapter 10) and of ENUM's requests (R266). A request command gives the
request that stands consumed at a WQCOUNT of a WQ to its service, if it is that request; the task made for it (R304) then
finds it given.
-/
namespace Sys2Proof.Machine

/-! ### Requests -/

/-- RECV (R343), of any service. -/
def execRecv (f : Fin 128) (n : Fin 64) (count : Word) (s : State) : Host.Outcome State Fault Refusal :=
  s.live fun c => c.giveRequest f n count fun _ x => x.d.ty == some .svcReq && x.d.req == 0x80

/-- STREAM_JOB (R364): the descriptor starts its long operation. -/
def execStreamJob (f : Fin 128) (n : Fin 64) (count : Word) (s : State) : Host.Outcome State Fault Refusal :=
  s.live fun c => c.giveRequest f n count fun v x => v == .strm && x.d.ty == some .streamJob

/-- ENUM_DESCRIBE (R266). -/
def execEnumDescribe (f : Fin 128) (n : Fin 64) (count : Word) (s : State) : Host.Outcome State Fault Refusal :=
  s.live fun c => c.giveRequest f n count (isReq .enum 0x01)

/-- ENUM_SET_CONFIG (R266). -/
def execEnumSetConfig (f : Fin 128) (n : Fin 64) (count : Word) (s : State) : Host.Outcome State Fault Refusal :=
  s.live fun c => c.giveRequest f n count (isReq .enum 0x02)

/-- ENUM_SET_ALT (R266). -/
def execEnumSetAlt (f : Fin 128) (n : Fin 64) (count : Word) (s : State) : Host.Outcome State Fault Refusal :=
  s.live fun c => c.giveRequest f n count (isReq .enum 0x03)

/-- EP_RESET (R266). -/
def execEpReset (f : Fin 128) (n : Fin 64) (count : Word) (s : State) : Host.Outcome State Fault Refusal :=
  s.live fun c => c.giveRequest f n count (isReq .enum 0x04)

/-- EP_CONFIG (R266). -/
def execEpConfig (f : Fin 128) (n : Fin 64) (count : Word) (s : State) : Host.Outcome State Fault Refusal :=
  s.live fun c => c.giveRequest f n count (isReq .enum 0x05)

/-- DEV_SUSPEND (R266). -/
def execDevSuspend (f : Fin 128) (n : Fin 64) (count : Word) (s : State) : Host.Outcome State Fault Refusal :=
  s.live fun c => c.giveRequest f n count (isReq .enum 0x06)

/-- DEV_RESUME (R266). -/
def execDevResume (f : Fin 128) (n : Fin 64) (count : Word) (s : State) : Host.Outcome State Fault Refusal :=
  s.live fun c => c.giveRequest f n count (isReq .enum 0x07)

/-- DEV_RESET (R266). -/
def execDevReset (f : Fin 128) (n : Fin 64) (count : Word) (s : State) : Host.Outcome State Fault Refusal :=
  s.live fun c => c.giveRequest f n count (isReq .enum 0x08)

/-- HIDX_GET_RDESC (R346). -/
def execHidxGetRdesc (f : Fin 128) (n : Fin 64) (count : Word) (s : State) : Host.Outcome State Fault Refusal :=
  s.live fun c => c.giveRequest f n count (isReq .hidx 0x01)

/-- HIDX_MAP_LOAD (R346, R347). -/
def execHidxMapLoad (f : Fin 128) (n : Fin 64) (count : Word) (s : State) : Host.Outcome State Fault Refusal :=
  s.live fun c => c.giveRequest f n count (isReq .hidx 0x02)

/-- HIDX_SET_MODE (R346). -/
def execHidxSetMode (f : Fin 128) (n : Fin 64) (count : Word) (s : State) : Host.Outcome State Fault Refusal :=
  s.live fun c => c.giveRequest f n count (isReq .hidx 0x03)

/-- HIDX_KEYMAP_LOAD (R346, R349). -/
def execHidxKeymapLoad (f : Fin 128) (n : Fin 64) (count : Word) (s : State) : Host.Outcome State Fault Refusal :=
  s.live fun c => c.giveRequest f n count (isReq .hidx 0x04)

/-- HIDX_SEND_REPORT (R346). -/
def execHidxSendReport (f : Fin 128) (n : Fin 64) (count : Word) (s : State) : Host.Outcome State Fault Refusal :=
  s.live fun c => c.giveRequest f n count (isReq .hidx 0x05)

/-- HIDX_GET_REPORT (R346). -/
def execHidxGetReport (f : Fin 128) (n : Fin 64) (count : Word) (s : State) : Host.Outcome State Fault Refusal :=
  s.live fun c => c.giveRequest f n count (isReq .hidx 0x06)

/-- CCID_POWER_ON (R354, R359). -/
def execCcidPowerOn (f : Fin 128) (n : Fin 64) (count : Word) (s : State) : Host.Outcome State Fault Refusal :=
  s.live fun c => c.giveRequest f n count (isReq .ccid 0x01)

/-- CCID_POWER_OFF (R359). -/
def execCcidPowerOff (f : Fin 128) (n : Fin 64) (count : Word) (s : State) : Host.Outcome State Fault Refusal :=
  s.live fun c => c.giveRequest f n count (isReq .ccid 0x02)

/-- CCID_XFR (R357, R358, R359). -/
def execCcidXfr (f : Fin 128) (n : Fin 64) (count : Word) (s : State) : Host.Outcome State Fault Refusal :=
  s.live fun c => c.giveRequest f n count (isReq .ccid 0x03)

/-- CCID_SLOT_STATUS (R359). -/
def execCcidSlotStatus (f : Fin 128) (n : Fin 64) (count : Word) (s : State) : Host.Outcome State Fault Refusal :=
  s.live fun c => c.giveRequest f n count (isReq .ccid 0x04)

/-- CCID_SET_OPTS (R359). -/
def execCcidSetOpts (f : Fin 128) (n : Fin 64) (count : Word) (s : State) : Host.Outcome State Fault Refusal :=
  s.live fun c => c.giveRequest f n count (isReq .ccid 0x05)

/-- CCID_ESCAPE (R359). -/
def execCcidEscape (f : Fin 128) (n : Fin 64) (count : Word) (s : State) : Host.Outcome State Fault Refusal :=
  s.live fun c => c.giveRequest f n count (isReq .ccid 0x06)

/-- STRM_TX (R363, R365). -/
def execStrmTx (f : Fin 128) (n : Fin 64) (count : Word) (s : State) : Host.Outcome State Fault Refusal :=
  s.live fun c => c.giveRequest f n count (isReq .strm 0x01)

/-- STRM_SET_LINE (R365). -/
def execStrmSetLine (f : Fin 128) (n : Fin 64) (count : Word) (s : State) : Host.Outcome State Fault Refusal :=
  s.live fun c => c.giveRequest f n count (isReq .strm 0x02)

/-- STRM_SET_CTRL (R365). -/
def execStrmSetCtrl (f : Fin 128) (n : Fin 64) (count : Word) (s : State) : Host.Outcome State Fault Refusal :=
  s.live fun c => c.giveRequest f n count (isReq .strm 0x03)

/-- STRM_BREAK (R365). -/
def execStrmBreak (f : Fin 128) (n : Fin 64) (count : Word) (s : State) : Host.Outcome State Fault Refusal :=
  s.live fun c => c.giveRequest f n count (isReq .strm 0x04)

/-- STRM_PORT_STATUS (R365). -/
def execStrmPortStatus (f : Fin 128) (n : Fin 64) (count : Word) (s : State) : Host.Outcome State Fault Refusal :=
  s.live fun c => c.giveRequest f n count (isReq .strm 0x05)

/-- STRM_DEVICE_ID (R365). -/
def execStrmDeviceId (f : Fin 128) (n : Fin 64) (count : Word) (s : State) : Host.Outcome State Fault Refusal :=
  s.live fun c => c.giveRequest f n count (isReq .strm 0x06)

/-- STRM_SOFT_RESET (R365). -/
def execStrmSoftReset (f : Fin 128) (n : Fin 64) (count : Word) (s : State) : Host.Outcome State Fault Refusal :=
  s.live fun c => c.giveRequest f n count (isReq .strm 0x07)

/-- STRM_RX_CFG (R365). -/
def execStrmRxCfg (f : Fin 128) (n : Fin 64) (count : Word) (s : State) : Host.Outcome State Fault Refusal :=
  s.live fun c => c.giveRequest f n count (isReq .strm 0x08)

/-- HLTH_SET_OPTS (R369). -/
def execHlthSetOpts (f : Fin 128) (n : Fin 64) (count : Word) (s : State) : Host.Outcome State Fault Refusal :=
  s.live fun c => c.giveRequest f n count (isReq .hlth 0x01)

/-- HLTH_SNAPSHOT (R369). -/
def execHlthSnapshot (f : Fin 128) (n : Fin 64) (count : Word) (s : State) : Host.Outcome State Fault Refusal :=
  s.live fun c => c.giveRequest f n count (isReq .hlth 0x02)

/-! ### Reports, answers and timers -/

/-- The endpoint of instance `h`, of a type, that holds a packet whose first byte satisfies `p`. -/
def Chip.packetOn (c : Chip) (h : Nat) (ty : EpType) (p : Nat → Bool) : Option Nat :=
  (c.eps.find? fun e => e.2.inst == some h && e.2.isIn && e.2.type == ty &&
    (match e.2.cells.find? fun k => k.full with | some k => p (byteAt k.data 0) | none => false)).map Prod.fst

/-- An active instance of a service. -/
def Chip.serves (c : Chip) (h : Nat) (v : Svc) : Bool :=
  match c.inst h with
  | some i => i.svc == v && i.st == .active
  | none => false

/-- HIDX_INPUT_REPORT (R348, R349). -/
def execHidxInputReport (h : Fin 2048) (s : State) : Host.Outcome State Fault Refusal :=
  s.live fun c => if c.serves h .hidx then
      match c.packetOn h .intr fun _ => true with
      | some e => c.hidxPacket h e
      | none => c
    else c

/-- SCAN_IDLE_GAP (R350): the gap after the last character has passed. -/
def execScanIdleGap (h : Fin 2048) (s : State) : Host.Outcome State Fault Refusal :=
  s.live fun c => match c.inst h with
    | some i => if i.svc == .hidx && i.hidx.idleRun && !i.hidx.text.isEmpty then c.endString h true false else c
    | none => c

/-- CCID_SLOT_NOTIFICATION (R353): a NotifySlotChange has arrived. -/
def execCcidSlotNotification (h : Fin 2048) (s : State) : Host.Outcome State Fault Refusal :=
  s.live fun c => if c.serves h .ccid then
      match c.packetOn h .intr (· == 0x50) with
      | some e => c.ccidNotice h e
      | none => c
    else c

/-- CCID_HARDWARE_ERROR (R353): a HardwareError has arrived. -/
def execCcidHardwareError (h : Fin 2048) (s : State) : Host.Outcome State Fault Refusal :=
  s.live fun c => if c.serves h .ccid then
      match c.packetOn h .intr (· == 0x51) with
      | some e => c.ccidNotice h e
      | none => c
    else c

/-- CCID_RESPONSE (R356): a whole RDR_to_PC message has arrived. -/
def execCcidResponse (h : Fin 2048) (s : State) : Host.Outcome State Fault Refusal :=
  s.live fun c => match c.inst h with
    | some i => if i.svc == .ccid && i.st != .detached && i.st != .closing then c.ccidInbox h else c
    | none => c

/-- The reader has slot `k`. -/
def Chip.hasSlot (c : Chip) (h k : Nat) : Bool :=
  match c.inst h with
  | some i => i.svc == .ccid && decide (k < i.slots)
  | none => false

/-- CCID_COMMAND_TIMEOUT (R356): the 10 s of a slot's command, or its APDU's time, have passed. -/
def execCcidCommandTimeout (h : Fin 2048) (k : Fin 8) (s : State) : Host.Outcome State Fault Refusal :=
  s.live fun c => if c.hasSlot h k && (c.slot h k).job != .voltWait then c.ccidTimeout h k false else c

/-- CCID_ABORT_TIMEOUT (R356): the 1 s for the Abort's answer has passed. -/
def execCcidAbortTimeout (h : Fin 2048) (k : Fin 8) (s : State) : Host.Outcome State Fault Refusal :=
  s.live fun c => if c.hasSlot h k && (c.slot h k).job == .abort then c.abortEnd h k else c

/-- CCID_VOLTAGE_RETRY_WAIT (R354): the 10 ms after IccPowerOff have passed; the next class is tried. -/
def execCcidVoltageRetryWait (h : Fin 2048) (k : Fin 8) (s : State) : Host.Outcome State Fault Refusal :=
  s.live fun c => if c.hasSlot h k && (c.slot h k).job == .voltWait then c.powerOn h k else c

/-- STRM_RX_DATA (R362): bytes have arrived on the bulk IN endpoint. -/
def execStrmRxData (h : Fin 2048) (s : State) : Host.Outcome State Fault Refusal :=
  s.live fun c => if c.serves h .strm then
      match c.packetOn h .bulk fun _ => true with
      | some e => c.strmData h e
      | none => c
    else c

/-- STRM_RXIDLE_EXPIRY (R362): RXIDLE ms have passed since the last byte. -/
def execStrmRxidleExpiry (h : Fin 2048) (s : State) : Host.Outcome State Fault Refusal :=
  s.live fun c => match c.inst h with
    | some i => if i.svc == .strm && i.strm.rxTimer then c.sendRx h i.strm.rxChunk else c
    | none => c

/-- SERIAL_STATE (R362): a notification has arrived on the interrupt endpoint. -/
def execSerialState (h : Fin 2048) (s : State) : Host.Outcome State Fault Refusal :=
  s.live fun c => if c.serves h .strm then
      match c.packetOn h .intr fun _ => true with
      | some e => c.strmNotice h e
      | none => c
    else c

/-- JOB_STALL (R364): no byte of the job has been acknowledged for its STALL time. -/
def execJobStall (h : Fin 2048) (s : State) : Host.Outcome State Fault Refusal :=
  s.live fun c => match c.inst h with
    | some i => if i.svc == .strm && i.strm.job.isSome then c.jobStall h else c
    | none => c

end Sys2Proof.Machine
end

