-- ==== Sys2Proof/Machine/Splice.lean ====
section
/-!
DEFINITION. The commands of Splice, the task dispatcher (chapter 09): placement, contexts, lanes, release, timers and
deadlines; the end of a token hold (R216, R220); and the failure of a lane or a flow (R319, R326, R327, R370).
-/
namespace Sys2Proof.Machine

/-! ### What a released task does (R314, R315) -/

/-- The result of a task takes effect: the work that its service does for it. (DEDUCED, log 110) -/
def Chip.taskEffect (c : Chip) (t : Task) : Chip :=
  match t.job with
  | .enum p ev arg => c.reaching fun c => c.enumTask p ev arg
  | .request f n count => if t.timedOut then c.requestTimeout f n count else c.svcRequest f n count
  | .packet h e => c.svcPacket h e
  | .tick h => c.svcTick h
  | .cont h tag =>
    if t.timedOut then
      match (c.inst h).bind Inst.wq with
      | some (f, n) => c.requestTimeout f n (tagCount tag)
      | none => c
    else c.svcCont h tag
  | .admin _ h => c.bindRun h
  | .test _ => c

/-- R319, R370: what becomes of the work of a task that the watchdog ended: a request fails with LANE_FAIL, a report or
chunk is dropped and counted, a step of a bind sequence or of a slot's work fails, ENUM makes its step again. -/
def Chip.taskFailed (c : Chip) (t : Task) : Chip :=
  match t.job with
  | .enum p ev arg => c.happen p 0 (.enum p ev arg)
  | .request f n count => match c.wq f n, c.xfer f n count with
    | some q, some x => c.svcFail (q.instOf.getD 0xFFF) f n x 0x0D t.lane
    | _, _ => c
  | .packet h e =>
    let c := (c.takePacket e).2
    c.updInst h fun i => { i with drops := satAdd 255 i.drops 1 }
  | .tick _ => c
  | .cont h tag =>
    let out := c.takeOutcome h tag
    match tag % 64 with
    | 1 => out.2.bindFail h 0x0D
    | 2 | 6 => out.2.jobEnd h St.serviceError fun e => { e with d0 := mkWord [(0x0D, 0), (4, 8), (t.lane, 16)] }
    | 5 => out.2.jobEnd h St.cancelled
    | 4 => out.2.stallPoll h
    | 40 => (out.2.slotFail h (tag / 64) 0x0D t.lane).slotIdle h (tag / 64)
    | 62 => out.2.svcCleared h (tag / 64)
    | 63 => out.2.svcClear h (tag / 64)
    | 3 | 41 | 50 => out.2
    | _ => match out.2.reqOf h (tagCount tag) with
      | some (f, n, x) => out.2.svcFail h f n x 0x0D t.lane
      | none => out.2
  | .admin _ h => c.bindFail h 0x0D
  | .test _ => c

/-- The instance of a task. -/
def Chip.taskInst (c : Chip) (t : Task) : Option Nat :=
  match t.flow with
  | some i => (c.flow i).bind Flow.inst
  | none => none

/-- R315: the task at RELSEQ of flow `i` is released. (DEDUCED, log 111) -/
def Chip.releaseTask (c : Chip) (i : Nat) : Chip :=
  match c.releasable i with
  | none => c
  | some t =>
    let c := if t.failed then c.taskFailed t else if t.marker then c else c.taskEffect t
    match c.task t.id with
    | some u => c.dropTask i u
    | none => c

/-! ### Failures (R319, R326, R327) -/

/-- The task in service on lane `l` ends without a result: an empty marker with FAILED set. -/
def Chip.failTask (c : Chip) (l : Nat) : Chip :=
  match c.laneTask l with
  | none => c
  | some t =>
    let c := c.updTask t.id fun t => { t with st := .done, marker := true, failed := !t.cancelled }
    let c := c.updLane l fun x => { x with tasks := satAdd 0xFFFFFFFF x.tasks 1, off := if x.off = 1 then 2 else x.off }
    match t.flow, t.cancelled with
    | some i, true => c.clearPrev i t.seq
    | none, _ => c.updDsp fun d => { d with tasks := d.tasks.filter fun u => u.id != t.id }
    | _, _ => c

/-- R326: a flow becomes LOST. An ENUM flow's tree is handled as for a lost context (R195); another flow's instance
restarts. -/
def Chip.loseFlow (c : Chip) (i : Nat) : Chip :=
  match c.flow i with
  | none => c
  | some x =>
    if x.st = .closing ∨ x.st = .lost then c
    else
      let c := c.updDsp fun d => { d with losts := satAdd 255 d.losts 1 }
      let c := c.cancelTasks fun t => t.flow == some i
      if i < 128 then
        let c := c.updFlow i fun y => { y with ctxOut := false, ctxLane := none }
        let c := c.detachTree i 0x06
        if (c.port i).st = .enabled then (c.enumEnd i).happen i 0 (.enum i 7 0) else c
      else
        let c := c.updFlow i fun y => { y with st := .lost }
        match x.inst with
        | some h => c.restartInst h 1
        | none => c

/-- R327: a lane has failed: its task ends as by the watchdog with UNCORRECTABLE reported, the task's instance restarts
(R370), and contexts held only there are lost (R326). -/
def Chip.failLane (c : Chip) (l : Nat) : Chip :=
  let inst := (c.laneTask l).bind c.taskInst
  let busy := (c.laneTask l).isSome
  let c := c.laneOffline l true
  let c := if busy then (c.failTask l).report (0x0B0 + l) Kind.uncorrectable 0 else c
  let lost := (c.dsp.flows.filter fun e => e.2.ctxLane == some l).map Prod.fst
  let c := c.each lost fun c i => c.loseFlow i
  match inst with
  | some h => match c.inst h with
    | some i => if i.st = .restarting then c else c.restartInst h 2
    | none => c
  | none => c

/-! ### The commands -/

/-- TASK_PLACEMENT (R316, R317). -/
def execTaskPlacement (s : State) : Host.Outcome State Fault Refusal := s.live fun c => c.place

/-- The task at a sequence number of a flow. -/
def Chip.taskAt (c : Chip) (i seq : Nat) : Option Task := (c.flowTasks i).find? fun t => t.seq == seq

/-- CONTEXT_COPY_DONE (R318): the flow's context has come from another lane's store. -/
def execContextCopyDone (i : Fin 16384) (seq : Fin 65536) (s : State) : Host.Outcome State Fault Refusal :=
  s.live fun c => match c.taskAt i seq with
    | some t => if t.ctx = 1 then c.updTask t.id fun t => { t with ctx := 0 } else c
    | none => c

/-- CONTEXT_FETCH_BACK (R318): the flow's context has come back from Garnet. -/
def execContextFetchBack (i : Fin 16384) (seq : Fin 65536) (s : State) : Host.Outcome State Fault Refusal :=
  s.live fun c => match c.taskAt i seq with
    | some t => if t.ctx = 2 then c.updTask t.id fun t => { t with ctx := 0 } else c
    | none => c

/-- LANE_TASK_START (R319, R326): the lane takes the head of its ready queue, whose context is there. What the lane
reads may be uncorrectable: the flow's context, or the task's record. (DEDUCED, log 254) -/
def execLaneTaskStart (l : Fin 32) (r : LaneRead) (s : State) : Host.Outcome State Fault Refusal :=
  s.live fun c =>
    if (c.laneTask l).isSome then c
    else match firstBy (fun a b => a.placedAt < b.placedAt) (c.laneQueue l) with
    | none => c
    | some t =>
      if t.ctx != 0 || ((c.lane l).off == 2 && t.flow.isSome) then c
      else match r with
        | .good => (c.updTask t.id fun t => { t with st := .inService }).updLane t.lane fun x => { x with served := true }
        | .contextLost => match t.flow with
          | some i => (c.report (0x0B0 + l) Kind.uncorrectable 0).loseFlow i
          | none => c
        | .recordLost =>
          let c := c.updTask t.id fun t => { t with st := .done, marker := true }
          match t.flow with
          | some i => c.clearPrev i t.seq
          | none => c.updDsp fun d => { d with tasks := d.tasks.filter fun u => u.id != t.id }

/-- TASK_DONE (R319, R321, R324): the task in service ends; one that was cancelled becomes an empty marker. -/
def execTaskDone (l : Fin 32) (s : State) : Host.Outcome State Fault Refusal :=
  s.live fun c => match c.laneTask l with
    | none => c
    | some t =>
      let c := c.updTask t.id fun t => { t with st := .done, marker := t.cancelled }
      let c := c.updLane l fun x => { x with tasks := satAdd 0xFFFFFFFF x.tasks 1, off := if x.off = 1 then 2 else x.off }
      match t.flow with
      | some i => if t.cancelled then c.clearPrev i t.seq else c
      | none => c

/-- TASK_RELEASE (R315): the task at RELSEQ of a flow; or the oldest task made for no function that is done. -/
def execTaskRelease (i : Option (Fin 16384)) (s : State) : Host.Outcome State Fault Refusal :=
  s.live fun c => match i with
    | some i => c.releaseTask i
    | none => match c.dsp.tasks.find? fun t => t.flow.isNone && t.st == .done with
      | some t => (c.updDsp fun d => { d with tasks := d.tasks.filter fun u => u.id != t.id }).serveWaiting
      | none => c

/-- LANE_WATCHDOG (R319): a task has been in service longer than WDOG. -/
def execLaneWatchdog (l : Fin 32) (s : State) : Host.Outcome State Fault Refusal :=
  s.live fun c =>
    if (c.laneTask l).isSome then
      ((c.failTask l).report (0x0B0 + l) Kind.timeout 0).updDsp fun d => { d with wdogs := satAdd 255 d.wdogs 1 }
    else c

/-- TIMER_EXPIRY (R307): the timer of a waiting task expires and its counter decrements. -/
def execTimerExpiry (i : Fin 16384) (seq : Fin 65536) (s : State) : Host.Outcome State Fault Refusal :=
  s.live fun c => match c.taskAt i seq with
    | some t => if t.timer && t.st == .waiting then (c.updTask t.id fun t => { t with timer := false }).decTask t.id else c
    | none => c

/-- DEADLINE_EXPIRY (R308, R341): the TMO of a request of a WQ expires. -/
def execDeadlineExpiry (f : Fin 128) (n : Fin 64) (count : Word) (s : State) : Host.Outcome State Fault Refusal :=
  s.live fun c => c.deadline f n count

/-- The task that waits for the payload of a request or a job's chunk is decremented, once the payload is all there. -/
def Chip.payloadIn (c : Chip) (f n : Nat) (count : Word) : Chip :=
  match c.wq f n, c.xfer f n count with
  | some q, some x =>
    match q.instOf.bind fun h => (c.inst h).map fun i => (h, i) with
    | none => c
    | some (h, i) =>
      if x.d.ty = some .streamJob then
        if x.svcRun && decide (x.chunkEnd ≤ x.moved) then
          match i.flows.head? with
          | some fl => c.contReady fl (Job.instCont h (jobFetchTag count))
          | none => c
        else c
      else if x.waitsFetch i.svc i.slots && x.fetched i.svc i.slots then
        match i.flows.head? with
        | some fl => c.contReady fl fun j => j == .request f n count
        | none => c
      else c
  | _, _ => c

/-- SERVICE_BUFFER_FETCH_DONE (R306): the last byte of a fetch is in the service buffer. -/
def execServiceBufferFetchDone (f : Fin 128) (n : Fin 64) (count : Word) (s : State) : Host.Outcome State Fault Refusal :=
  s.live fun c => c.payloadIn f n count

/-- PERIODIC_TICK (R189, R190): an armed tick of an instance reaches its nominal microframe. -/
def execPeriodicTick (h : Fin 2048) (s : State) : Host.Outcome State Fault Refusal := s.live fun c => c.tickDue h

/-- TOKEN_HOLD_END (R216 step 5, R220 step 5, R224): the 10 ms of recovery, or the BESL latency, have passed. -/
def execTokenHoldEnd (p : Fin 128) (s : State) : Host.Outcome State Fault Refusal :=
  s.live fun c =>
    let x := c.port p
    if x.st != .enabled || !x.tokHold then c
    else
      let c := c.updPort p fun x => { x with tokHold := false, afterReset := false }
      let c := if x.afterReset then c.afterPortReset p else c
      c.portReach p

end Sys2Proof.Machine
end

