-- ==== Sys2Proof/Machine/Doorbells.lean ====
section
/-!
DEFINITION. The commands of the queues (chapter 03): doorbells, pushes, polls, ring reads and what they return, the
consumer doorbells, the AQ's start, stop and doorbells, and failed reads (R49).
-/
namespace Sys2Proof.Machine

/-! ### Doorbells of WQs (R40, R94, R95, R97 to R100) -/

/-- Bytes written into the slot buffer at slot offset `off`, 0x20 to 0x7F (R98). -/
def Wq.buffer (q : Wq) (off : Nat) (ws : List Word) : Wq :=
  let put := fun (t : Tab Byte) (e : Byte × Nat) =>
    if 0x20 ≤ off + e.2 ∧ off + e.2 < 0x80 then Tab.put t (off + e.2) e.1 else t
  { q with slotBuf := ((wordsBytes ws).zipIdx).foldl put q.slotBuf }

/-- R98: the field of 32 bytes at slot offset `off`, if it is valid. -/
def Wq.field (q : Wq) (off : Nat) : Option (List Byte) :=
  (List.range 32).foldr (fun i r => match Tab.find q.slotBuf (off + i), r with
    | some b, some l => some (b :: l)
    | _, _ => none) (some [])

/-- R99, R118, R564: the WQ may take a pushed entry now: its binding has room, its CQ is not held, its endpoint is not
halted and fetching runs. -/
def Chip.pushRoom (c : Chip) (q : Wq) (f : Nat) : Bool :=
  c.fetchRuns && !q.draining && c.fetchable f { q with pobs := q.ccount + 1#32 }

/-- R100: INLINE is used as the data of PUSH0 when it is an EXPRESS INTR_OUT of 32 bytes or fewer. -/
def inlineFor (d : Desc) (i : Option (List Byte)) : Option (List Byte) :=
  if d.ty = some .intrOut ∧ d.express ∧ d.length ≤ 32 then i.map fun b => b.take d.length else none

/-- R99: take a pushed entry as the entry at the consumer count, if its PHASE is right and there is room. The second
component says whether it was taken. -/
def Chip.takePush (c : Chip) (f n : Nat) (field : Option (List Byte)) (inline : Option (List Byte)) : Chip × Bool :=
  match c.wq f n, field with
  | some q, some bs =>
    let d := bytesWords bs 8
    if c.pushRoom q f && Desc.phase d == phaseOf q.log2 q.ccount then ((c.consume f n d (inlineFor d inline)).svcTaken f n q.ccount, true)
    else (c, false)
  | _, _ => (c, false)

/-- R94, R98, R99: a PCOUNT write to a WQ that takes doorbells, after its TLP's other bytes have been applied.
(DEDUCED, log 21) -/
def Chip.pcount (c : Chip) (f n : Nat) (p : Word) : Chip :=
  match c.wq f n with
  | none => c
  | some q =>
    match pcheck q.log2 p q.pobs q.ccount with
    | .nothing => c
    | .refuse => c.wqStop f n 1
    | .accept =>
      let fresh := decide (q.pobs = q.ccount)
      let adv := (p - q.pobs).toNat
      let c := c.putWq f n { q with pobs := p, slotBuf := [] }
      if q.mode == .push && fresh then
        let t := c.takePush f n (q.field 0x40) (q.field 0x20)
        if t.2 && decide (2 ≤ adv) then (t.1.takePush f n (q.field 0x60) none).1 else t.1
      else c

/-- R95: a doorbell to the slot has no effect: its WQ does not exist, is stopped or is being deleted. (DEDUCED, log
236). (DEDUCED, log 236) -/
def Chip.slotDead (c : Chip) (f n : Nat) : Bool :=
  match c.wq f n with
  | none => true
  | some q => q.stopped || q.deleting.isSome

/-- A PCOUNT write with the dwords that its TLP writes behind it, from slot offset 0x04 (R95, R97, R98). -/
def Chip.slotWrite (c : Chip) (f n : Nat) (p : Word) (rest : List Word) : Chip :=
  match c.wq f n with
  | none => c.countDbign f n
  | some q =>
    if c.slotDead f n then c.countDbign f n
    else match q.mode with
    | .poll => c.putWq f n { q with pollDue := true }
    | .doorbell => c.pcount f n p
    | .push => (c.putWq f n (q.buffer 0x04 rest)).pcount f n p

/-- R405: BAR2 writes of a homed function have no effect; a function that does not exist decodes none (R618). -/
def Chip.bar2Open (c : Chip) (f : Nat) : Bool := c.fnExists f && !c.homed f

/-- WQ_DOORBELL (R94): a write TLP that carries PCOUNT and the dwords behind it. -/
def execWqDoorbell (f : Fin 128) (n : Fin 64) (p : Word) (rest : List Word) (s : State) :
    Host.Outcome State Fault Refusal :=
  s.live fun c => if c.bar2Open f then (c.slotWrite f n p (rest.take 31)).dozeWake 6 else c

/-- PUSH_SLOT_WRITE (R98): a write TLP from slot offset 0x20 + 4 x `o`, without PCOUNT. It has no effect on a slot whose
WQ does not exist, is stopped or is not in PUSH mode (R95). -/
def execPushSlotWrite (f : Fin 128) (n : Fin 64) (o : Fin 24) (ws : List Word) (s : State) :
    Host.Outcome State Fault Refusal :=
  s.live fun c =>
    if c.bar2Open f && !c.slotDead f n then
      c.updWq f n fun q => if q.mode = .push then q.buffer (0x20 + 4 * o) (ws.take (24 - o)) else q
    else c

/-- POLL_DOORBELL (R97): a PCOUNT write to a POLL-mode WQ makes a poll due at once; its value is ignored. -/
def execPollDoorbell (f : Fin 128) (n : Fin 64) (p : Word) (s : State) : Host.Outcome State Fault Refusal :=
  s.live fun c => if c.bar2Open f then (c.slotWrite f n p []).dozeWake 6 else c

/-- R40: a BAR2 write TLP of `len` bytes at `off` lies wholly in a reserved range. -/
def bar2Reserved (off len : Nat) : Bool :=
  (0x2400 ≤ off && off + len ≤ 0x3000) || (0x3100 ≤ off && off + len ≤ 0x4000)

/-- R40: the conditions under which such a TLP is accepted. -/
def bar2Accepted (off len : Nat) : Bool :=
  off % 4 == 0 && len % 4 == 0 && 4 ≤ len && len ≤ 128 &&
  ((off + len ≤ 0x2000 && off / 128 == (off + len - 1) / 128) ||
   (0x2000 ≤ off && off + len ≤ 0x2400 && off / 64 == (off + len - 1) / 64) ||
   (0x3000 ≤ off && off + len ≤ 0x3100))

/-- The WQ slots that a TLP touches. -/
def bar2Slots (off len : Nat) : List Nat := (List.range 64).filter fun n => off < 128 * n + 128 && 128 * n < off + len

/-- BAR2_WRITE_REFUSED (R40): a TLP that breaks the conditions has no effect, is logged as Unsupported Request in the
function's AER registers, and adds 1 to DBIGN of each WQ slot it touches. -/
def execBar2WriteRefused (f : Fin 128) (off : Fin 16384) (len : Fin 4097) (s : State) :
    Host.Outcome State Fault Refusal :=
  s.live fun c =>
    if !c.fnExists f || bar2Accepted off len || bar2Reserved off len || len.val = 0 then c
    else
      let c := c.logAer f .unsupportedRequest
      if c.homed f then c else c.each (bar2Slots off len) fun c n => c.countDbign f n

/-! ### Polls and ring reads (R90 to R93) -/

/-- POLL_INTERVAL_EXPIRY (R93, R564): a poll of a POLL-mode WQ falls due. None is made while fetching does not run, or
while the cluster of its endpoint's port sleeps. (DEDUCED, log 22) -/
def execPollIntervalExpiry (f : Fin 128) (n : Fin 64) (s : State) : Host.Outcome State Fault Refusal :=
  s.live fun c => match c.wq f n with
    | some q =>
      if q.mode == .poll && !q.reading && c.fetchRuns && !c.bindAsleep q.bind then c.putWq f n { q with pollDue := true }
      else c
    | none => c

/-- RING_READ_ISSUE (R104): the front end's next read opportunity. (DEDUCED, log 23) -/
def execRingReadIssue (s : State) : Host.Outcome State Fault Refusal := s.live Chip.readOpportunity

/-- R304: what was consumed at count `k` goes to its service, if it was consumed. -/
def Chip.ifTaken (c : Chip) (f n : Nat) (k : Word) : Chip :=
  match c.wq f n with
  | some q => if q.ccount = k then c else c.svcTaken f n k
  | none => c

/-- R90, R92, R93: a WQ entry read has returned these bytes. -/
def Chip.ringReturn (c : Chip) (f n : Nat) (bs : List Byte) : Chip :=
  match c.wq f n with
  | none => c
  | some q =>
    if !q.reading then c
    else if q.deleting.isSome && !q.draining || q.moveHold && !q.draining then c.putWq f n { q with reading := false }
    else
      let a := entryAddr q.base q.log2 q.ccount 32
      match (c.fn f).home with
      | some h => if h.poisoned a.toNat 32 then c.wqStop f n 3 else (c.ringEntry f n q (bytesWords (h.read a.toNat 32) 8)).ifTaken f n q.ccount
      | none => (c.ringEntry f n q (bytesWords bs 8)).ifTaken f n q.ccount

/-- RING_READ_RETURN (R90). -/
def execRingReadReturn (f : Fin 128) (n : Fin 64) (bs : List Byte) (s : State) : Host.Outcome State Fault Refusal :=
  s.live fun c => c.ringReturn f n bs

/-- PHASE_REREAD (R92): the entry of a WQ, or of the AQ, is read again. -/
def execPhaseReread (f : Fin 128) (n : Option (Fin 64)) (s : State) : Host.Outcome State Fault Refusal :=
  s.live fun c => match n with
    | some n => match c.wq f n with
      | some q => if q.rereadDue && !q.reading && !q.stopped && !c.dmaHeld f then c.issueRing f n else c
      | none => c
    | none => if (c.fn f).aq.rereads != 0 && !(c.fn f).aq.reading && !(c.fn f).aq.stopped && !c.dmaHeld f then c.issueAdmin f else c

/-! ### CQ doorbells (R109, R115, R116, R119) -/

/-- CQ_CONSUMER_DOORBELL (R115). -/
def execCqConsumerDoorbell (f : Fin 128) (n : Fin 16) (w : Word) (s : State) : Host.Outcome State Fault Refusal :=
  s.live fun c => if c.bar2Open f then (c.ccount f n w).dozeWake 6 else c

/-- CQ_SPILL_DRAIN_TIMEOUT (R109): the 10 ms of a deletion pass; what is left is discarded and counted in LOST. -/
def execCqSpillDrainTimeout (f : Fin 128) (n : Fin 16) (s : State) : Host.Outcome State Fault Refusal :=
  s.live fun c => match c.cq f n with
    | some q =>
      if q.deleting.isSome then
        (c.updFn f fun x => { x with lost := satAdd 0xFFFF x.lost q.spill.length }).endCqDelete f n
      else c
    | none => c

/-! ### The AQ (R122 to R125) -/

/-- AQ_ENABLE (R123): a write of Q_AQ_CFG with ENABLE 1. A homed function's geometry is NET_HOME's (R405). -/
def execAqEnable (f : Fin 128) (w : Word) (s : State) : Host.Outcome State Fault Refusal :=
  s.live fun c => if c.fnExists f && !c.homed f then c.aqCfg f (w ||| 0x80000000#32) else c

/-- AQ_READY (R123): within 10 µs of the enable the AQ is ready, and ENUM sends the attach messages owed (R73). -/
def execAqReady (f : Fin 128) (s : State) : Host.Outcome State Fault Refusal :=
  s.live fun c =>
    if (c.fn f).aq.starting then
      (c.updFn f fun x => { x with aq := { x.aq with starting := false, ready := true } }).sendOwed f
    else c

/-- AQ_DISABLE (R123): a write of Q_AQ_CFG with ENABLE 0. -/
def execAqDisable (f : Fin 128) (w : Word) (s : State) : Host.Outcome State Fault Refusal :=
  s.live fun c => if c.fnExists f && !c.homed f then c.aqCfg f (w &&& 0x7FFFFFFF#32) else c

/-- AQ_SUBMISSION_DOORBELL (R124). -/
def execAqSubmissionDoorbell (f : Fin 128) (w : Word) (s : State) : Host.Outcome State Fault Refusal :=
  s.live fun c => if c.bar2Open f then (c.sqPcount f w).dozeWake 6 else c

/-- AQ_COMPLETION_DOORBELL (R124). -/
def execAqCompletionDoorbell (f : Fin 128) (w : Word) (s : State) : Host.Outcome State Fault Refusal :=
  s.live fun c => if c.bar2Open f then (c.cqCcount f w).dozeWake 6 else c

/-- ADMIN_FETCH (R125): the next admin command is read, round robin across functions. -/
def execAdminFetch (s : State) : Host.Outcome State Fault Refusal :=
  s.live fun c => match nextAfter c.fnNums c.aqPtr c.aqReady with
    | some f => ({ c with aqPtr := f }).issueAdmin f
    | none => c

/-! ### Failed reads (R49) -/

/-- R49, R473: the kind reported for a failed read; ADDR holds the function. (DEDUCED, log 12) -/
def readFailureKind : ReadFailure → Nat
  | .poisoned => Kind.uncorrectable
  | _ => Kind.accessViolation

def readFailureAer : ReadFailure → AerErr
  | .unsupportedRequest => .unsupportedRequest
  | .completerAbort => .completerAbort
  | .poisoned => .poisonedTlp

/-- The outstanding reads of a descriptor. -/
def Chip.readsOf (c : Chip) (f n : Nat) (count : Word) (r : MovRead) : Bool :=
  r.fn == f && (match r.what with
    | .fill ep k _ => k == count && (match c.ep ep with | some e => e.wq == some (f, n) | none => false)
    | .index _ m k _ | .packets _ m k _ | .payload _ m k _ => m == n && k == count)

/-- The descriptor of a WQ with this count, decided or not. -/
def Chip.work (c : Chip) (f n : Nat) (count : Word) : Option Xfer :=
  (c.wq f n).bind fun q => q.work.find? fun (x : Xfer) => x.count == count

/-- R49, R159: a data, index-table or packet-list read of a descriptor failed: IN data received and not yet written is
discarded; a descriptor whose transactions have ended completes so in place of what they gave (R164). (DEDUCED, log
252). (DEDUCED, log 252) -/
def Chip.dataReadFailed (c : Chip) (f n : Nat) (count : Word) (status : Nat) : Chip :=
  let c := c.updGrn fun g => { g with reads := g.reads.eraseP fun r => c.readsOf f n count r }
  let c := match (c.wq f n).map Wq.bind with
    | some (.ep h) => if (c.work f n count).any fun (x : Xfer) => x.d.dataIn then c.release h fun k => k.full && k.owner == count else c
    | _ => c
  let c := c.updXfer f n count fun x => if x.d.dataIn then { x with done := min x.done x.moved } else x
  match c.work f n count with
  | some (x : Xfer) => match (c.wq f n).bind Wq.instOf with
    | some h =>
      if x.result.isSome then c
      else if x.d.ty = some .streamJob && x.svcRun then c.jobEnd h status else c.finish f n count status
    | none =>
      if x.result.isSome then
        (c.updXfer f n count fun y => { y with result := y.result.map fun r =>
          { r with status := status, length := x.done, event := true } }).flushWq f n
      else c.causeEnd f n x status
  | none => c

/-- R49: what a failed read does, by what it was for. -/
def Chip.readFailed (c : Chip) (f : Nat) (r : ReadFor) (poisoned : Bool) : Chip :=
  match r with
  | .ring n => match c.wq f n with
    | some q => if q.reading then c.wqStop f n 3 else c
    | none => c
  | .admin => if (c.fn f).aq.reading then c.aqStop f 3 else c
  | .data n count => c.dataReadFailed f n count (if poisoned then St.dataError else St.accessError)

/-- HOST_READ_FAILED (R49). -/
def execHostReadFailed (f : Fin 128) (r : ReadFor) (e : ReadFailure) (s : State) : Host.Outcome State Fault Refusal :=
  s.live fun c => (((c.logAer f (readFailureAer e)).report 0x100 (readFailureKind e) f).readFailed f r (e == .poisoned))

/-- HOST_READ_COMPLETION_TIMEOUT (R49): as any other failed read, reported as TIMEOUT. -/
def execHostReadCompletionTimeout (f : Fin 128) (r : ReadFor) (s : State) : Host.Outcome State Fault Refusal :=
  s.live fun c => (((c.logAer f .completionTimeout).report 0x100 Kind.timeout f).readFailed f r false)

end Sys2Proof.Machine
end

