-- ==== Sys2Proof/Machine/Mover.lean ====
section
/-!
DEFINITION. Hawser, the mover (R283 to R294), cell grants (R280, R281), channel settings (R282, R302), and the words of
Garnet that the symbol code corrects or poisons, with the scrubber (R271 to R273, R296 to R300).
-/
namespace Sys2Proof.Machine

/-! ### Words (R271, R273, R296, R297, R300) -/

/-- The area code of a word (R301). -/
def WordOf.area : WordOf → Nat
  | .cell _ _ | .freeCell => 0
  | .spill _ _ _ => 1
  | .homed _ _ => 2
  | .message _ _ | .payload _ _ _ => 3
  | .image _ => 4
  | .relocation => 5
  | .sram _ => 6

/-- R296, R461, R554: the image in force is read again from the flash; one that was staged live is lost at once. -/
def Chip.imageReread (c : Chip) : Chip :=
  if c.boot.live then
    ({ c with boot := { c.boot with lost := true, cacheLost := true } }).report 0x150 Kind.uncorrectable 0
  else if c.boot.running.isNone then c
  else ({ c with boot := { c.boot with rereading := true } }).emit (.flashRead c.boot.slot)

/-- A word is found poisoned: what it belongs to is marked, so that its owner meets the poison, and a free cell is
retired at once. -/
def Chip.markPoison (c : Chip) (w : WordOf) : Chip :=
  match w with
  | .cell ep i => c.updEp ep fun e => { e with cells := e.cells.modify i fun k => { k with poison := true } }
  | .freeCell => c.updGrn fun g => { g with retired := satAdd 0xFFFF g.retired 1 }
  | .spill f n i => c.updCq f n fun q => { q with spill := q.spill.modify i fun e => { e with poison := true } }
  | .homed f off =>
    let mark := fun (h : Home) =>
      if h.within off 1 && !h.poisoned off 1 then { h with poison := h.poison ++ [off / 8 * 8] } else h
    c.updFn f fun x => { x with home := x.home.map mark }
  | .message h i => c.updInst h fun x => { x with msgs := x.msgs.modify i fun m => { m with poison := true } }
  | .payload f n count => match (c.wq f n).bind Wq.instOf, c.xfer f n count with
    | some h, some x =>
      if x.payload.isEmpty then c
      else if x.d.ty = some .streamJob then c.jobEnd h St.dataError
      else c.finishWith f n count St.dataError fun e => { e with length := 0 }
    | _, _ => c
  | .image 0 => c.imageReread
  | .image _ => { c with boot := { c.boot with staged := if c.boot.inForce.isEmpty then none else c.boot.staged } }
  | .relocation | .sram _ => c

/-- A word needs correction again after its write-back: a hard fault, which retires its cell (R273, R297). -/
def Chip.hardFault (c : Chip) (w : WordOf) : Chip :=
  match w with
  | .cell ep i => c.updEp ep fun e => { e with cells := e.cells.modify i fun k => { k with retire := true } }
  | .freeCell => c.updGrn fun g => { g with retired := satAdd 0xFFFF g.retired 1 }
  | _ => c

/-- The bank group of a word of SRAM, 0 for the DRAM: its fault source is 0x0E0 plus it. -/
def WordOf.group : WordOf → Nat
  | .sram g => g
  | _ => 0

/-- R271, R273: a read of word `w` at byte address `addr` corrects a symbol (or finds it poisoned). -/
def Chip.wordError (c : Chip) (w : WordOf) (addr : Nat) (poison : Bool) : Chip :=
  let g := w.group
  let c := c.updGrn fun x => if poison then
      (if g = 0 then { x with dramUnc := satAdd 0xFFFF x.dramUnc 1 } else { x with sramUnc := satAdd 0xFFFF x.sramUnc 1 })
    else (if g = 0 then { x with dramCor := satAdd 0xFFFF x.dramCor 1 } else { x with sramCor := satAdd 0xFFFF x.sramCor 1 })
  let c := c.report (0x0E0 + g) (if poison then Kind.uncorrectable else Kind.correctedSymbol) addr
  if poison then (c.updGrn fun x => { x with lastUe := some (w.area, addr) }).markPoison w
  else if g ≠ 0 then c
  else if c.grn.wrote.contains addr then c.hardFault w
  else c.updGrn fun x => { x with toWrite := if x.toWrite.contains addr then x.toWrite else x.toWrite ++ [addr] }

/-- The corrected word is written back. -/
def Chip.wroteBack (c : Chip) (addr : Nat) : Chip :=
  if c.grn.toWrite.contains addr then
    c.updGrn fun x => { x with toWrite := x.toWrite.filter fun a => a != addr, wrote := x.wrote ++ [addr] }
  else c

/-! ### What a channel's data need (R134, R149, R283, R293) -/

/-- The sum of the requested lengths of the packets before packet `k` (R149). -/
def Xfer.before (x : Xfer) (k : Nat) : Nat := ((x.pkts.take k).map IsoPkt.req).sum

/-- Where byte `i` of packet `k` lies (R149). -/
def Xfer.pktAddr (x : Xfer) (k i : Nat) : Addr :=
  match x.pkts[k]? with
  | some p => if x.d.index then x.d.addr + p.offset.setWidth 64 + BitVec.ofNat 64 i
      else x.d.addr + BitVec.ofNat 64 (x.before k + i)
  | none => x.d.addr

/-- The packet in which the next bytes to fetch lie: number and offset in it; packets already decided are passed over. -/
def Xfer.fetchAt (x : Xfer) : Option (Nat × Nat) :=
  ((List.range x.pkts.length).find? fun k => match x.pkts[k]? with
    | some p => p.pstat.isNone && decide (x.moved < x.before k + p.req)
    | none => false).map fun k => (k, x.moved - x.before k)

/-- The next OUT cell of a descriptor: its packet, its offset there or in the data, and its size; none when all its data
have been asked for. -/
def Xfer.nextCell (x : Xfer) (mps : Nat) : Option (Nat × Nat × Nat) :=
  if x.inline.isSome || !x.d.dataOut then none
  else if x.d.ty = some .isoOut then
    x.fetchAt.bind fun a => (x.pkts[a.1]?).map fun p => (a.1, a.2, min mps (p.req - a.2))
  else if x.moved < x.d.length then some (0, x.moved, min mps (x.d.length - x.moved)) else none

/-- Where byte `i` of a cell's data lies. -/
def Xfer.cellAddr (x : Xfer) (k : Cell) (i : Nat) : Addr :=
  match x.d.ty with
  | some .isoIn | some .isoOut => x.pktAddr k.pkt (k.off + i)
  | _ => x.d.byteAddr x.index (k.off + i)

/-- The element boundary that bounds a piece from byte `o` of the data; 0 for none. -/
def Xfer.elem (x : Xfer) : Nat :=
  match x.d.ty with
  | some .isoIn | some .isoOut => 0
  | _ => if x.d.index then x.d.elemLen else 0

/-- The length of a piece of at most `n` bytes from address `a`, byte `o` of the data (R48, R292). -/
def pieceLen (a : Addr) (o n mx elem : Nat) : Nat :=
  let l := min n (min mx (4096 - a.toNat % 4096))
  if elem = 0 then l else min l (elem - o % elem)

/-- The index entry that bytes `o` to `o + n - 1` need and that has not been read, if there is one. -/
def Xfer.lacksIndex (x : Xfer) (o n : Nat) : Bool :=
  x.elem != 0 && decide (x.index.length * x.d.elemLen < o + n)

/-- The next packet-list entries are to be read: eight ahead of the plan at most (R150, R293). -/
def Xfer.lacksPackets (x : Xfer) : Bool :=
  (x.d.ty == some .isoIn || x.d.ty == some .isoOut) && decide (x.pkts.length < x.d.npkt) && decide (x.pkts.length ≤ x.planned + 8)

/-! ### Reads (R286, R292, R293) -/

/-- A read of this kind is outstanding. -/
def Chip.readOut (c : Chip) (p : ReadOf → Bool) : Bool := c.grn.reads.any fun r => p r.what

/-- Issue a read for function `f`. For a homed function one that leaves the window ends the descriptor (R404). -/
def Chip.movRead (c : Chip) (f n : Nat) (count : Word) (what : ReadOf) (a : Addr) (len : Nat) (ns : Bool) : Chip :=
  match (c.fn f).home with
  | some h =>
    if h.within a.toNat len then c.updGrn fun g => { g with reads := g.reads ++ [{ fn := f, what := what, addr := a, len := len }] }
    else c.dataReadFailed f n count St.accessError
  | none => (c.updGrn fun g => { g with reads := g.reads ++ [{ fn := f, what := what, addr := a, len := len }] }).emit (.memRead f a len ns)

/-- Entries of a table at `base`, from entry `k`: up to `mx`, within `total`, not across a 4 KiB boundary (R293). -/
def tableRun (base : Addr) (k total mx size : Nat) : Addr × Nat :=
  let a := base + BitVec.ofNat 64 (k * size)
  (a, min (min mx (total - k)) ((4096 - a.toNat % 4096) / size))

/-- The next index-table read of a descriptor. (DESIGN CHOICE, log 25) -/
def Chip.readIndex (c : Chip) (f n : Nat) (x : Xfer) (svc : Bool) : Chip :=
  let k := x.index.length
  let total := if svc then x.svcEntries else x.d.entries
  if c.readOut fun w => w == .index f n x.count k then c
  else
    let r := tableRun (if svc then x.d.svcTable else x.d.table) k total 16 4
    c.movRead f n x.count (.index f n x.count k) r.1 (4 * r.2) false

/-- (DESIGN CHOICE, log 26) -/
def Chip.readPackets (c : Chip) (f n : Nat) (x : Xfer) : Chip :=
  let k := x.pkts.length
  if c.readOut fun w => w == .packets f n x.count k then c
  else
    let r := tableRun x.d.table k x.d.npkt 8 8
    c.movRead f n x.count (.packets f n x.count k) r.1 (8 * r.2) false

/-! ### Fills (R283) -/

/-- The WQ's descriptor whose data the channel fetches next: the oldest in progress or staged with data left. -/
def Chip.fillOf (c : Chip) (h : Nat) : Option (Nat × Nat × Xfer) :=
  match c.ep h with
  | none => none
  | some e => match e.wq, e.inst with
    | some (f, n), none => ((c.wq f n).bind fun q => q.work.find? fun (x : Xfer) =>
        x.result.isNone && x.cause.isNone && ((x.nextCell e.mps).isSome || x.lacksPackets)).map fun x => (f, n, x)
    | _, _ => none

/-- A cell whose pieces have not all been asked for, with its descriptor. -/
def Chip.askCell (c : Chip) (h : Nat) : Option (Nat × Nat × Xfer × Cell) :=
  match c.ep h with
  | none => none
  | some e => match e.wq, e.cells.find? fun k => !k.full && decide (k.asked < k.size) with
    | some (f, n), some k => (c.xfer f n k.owner).map fun x => (f, n, x, k)
    | _, _ => none

/-- R283: filling is on: it starts at or below LM and stops at HM or when nothing is left. -/
def Ep.filling (e : Ep) (left : Bool) : Bool :=
  left && (if e.heldCells ≤ e.lmOut then true else if e.hmOut ≤ e.heldCells then false else e.paceOn)

/-- R290: an OUT channel waits: it has data left to send, no data cell, no read outstanding and no cell to be had. -/
def Chip.outWaits (c : Chip) (h : Nat) : Bool :=
  match c.ep h, c.fillOf h with
  | some e, some (_, _, x) => (x.nextCell e.mps).isSome && !(e.cells.any fun k => k.full || 0 < k.size) && !c.grantable h
  | _, _ => false

/-- What the mover can do for a channel's OUT data now. -/
def Chip.canFill (c : Chip) (h : Nat) : Bool :=
  match c.ep h with
  | none => false
  | some e =>
    match e.wq with
    | none => false
    | some (f, n) =>
      !c.dmaHeld f && decide (c.grn.reads.length < 512) &&
      ((match c.askCell h with
        | some (_, _, x, k) =>
          if x.lacksIndex (k.off + k.asked) 1 then !c.readOut fun w => w == .index f n x.count x.index.length else true
        | none => false) ||
       (match c.fillOf h with
        | some (_, _, x) =>
          (x.lacksPackets && !(c.readOut fun w => w == .packets f n x.count x.pkts.length)) ||
          (match x.nextCell e.mps with
           | some _ => e.filling true && c.grantable h
           | none => false)
        | none => false))

/-- R283: lend the channel a cell for the next bytes of its data. -/
def Chip.lendOut (c : Chip) (h : Nat) : Chip :=
  match c.ep h, c.fillOf h with
  | some e, some (f, n, x) => match x.nextCell e.mps with
    | some (k, off, size) =>
      let upTo := if x.d.ty = some .isoOut then x.before k + off + size else x.moved + size
      let last := if x.d.ty = some .isoOut then decide (k + 1 = x.d.npkt) && (match x.pkts[k]? with | some p => off + size == p.req | none => false)
        else decide (x.d.length ≤ x.moved + size)
      let c := ((c.updXfer f n x.count fun y => { y with moved := upTo }).updEp h fun e =>
        { e with cells := e.cells ++ [{ size := size, owner := x.count, pkt := k, off := off, last := last }] }).setWaiting h false
      let left := match c.fillOf h with | some (_, _, y) => (y.nextCell e.mps).isSome | none => false
      c.updEp h fun e => { e with paceOn := left && decide (e.heldCells < e.hmOut) }
    | none => c
  | _, _ => c

/-- Ask for the next piece of a cell, or for the index entry it needs. -/
def Chip.askPiece (c : Chip) (h : Nat) : Chip :=
  match c.askCell h with
  | none => c
  | some (f, n, x, k) =>
    let o := k.off + k.asked
    if x.lacksIndex o 1 then c.readIndex f n x false
    else
      let a := x.cellAddr k k.asked
      let l := pieceLen a o (k.size - k.asked) c.pci.mrrs x.elem
      let c := c.updEp h fun e => { e with cells := e.cells.map fun y =>
        if y.owner = k.owner ∧ y.pkt = k.pkt ∧ y.off = k.off ∧ !y.full then { y with asked := y.asked + l } else y }
      c.movRead f n x.count (.fill h x.count (x.before k.pkt + o)) a l (x.d.noSnoop && (c.fn f).nosnoop)

/-- One request for the OUT side of a channel. -/
def Chip.fillStep (c : Chip) (h : Nat) : Chip :=
  if (c.askCell h).isSome then c.askPiece h
  else match c.ep h, c.fillOf h with
    | some e, some (f, n, x) =>
      if x.lacksPackets && !(c.readOut fun w => w == .packets f n x.count x.pkts.length) then c.readPackets f n x
      else if (x.nextCell e.mps).isSome && e.filling true && c.grantable h then (c.lendOut h).askPiece h
      else c
    | _, _ => c

/-! ### Drains (R284, R292, R296) -/

/-- The oldest cell of a channel that drains, with its descriptor. -/
def Chip.drainOf (c : Chip) (h : Nat) : Option (Nat × Nat × Xfer × Cell) :=
  match c.ep h with
  | none => none
  | some e => match e.wq, e.inst, e.cells.find? fun k => k.full with
    | some (f, n), none, some k =>
      if k.draining then
        ((c.wq f n).bind fun q => q.work.find? fun (x : Xfer) => x.count == k.owner && x.d.dataIn).map fun x => (f, n, x, k)
      else none
    | _, _, _ => none

def Chip.canDrain (c : Chip) (h : Nat) : Bool :=
  match c.drainOf h with
  | some (f, n, x, k) =>
    !c.dmaHeld f && (!x.lacksIndex k.off k.data.length ||
      (decide (c.grn.reads.length < 512) && !c.readOut fun w => w == .index f n x.count x.index.length))
  | none =>
    match c.fillOf h with
    | some (f, n, x) => !c.dmaHeld f && x.d.dataIn && x.lacksPackets && decide (c.grn.reads.length < 512) &&
        !c.readOut fun w => w == .packets f n x.count x.pkts.length
    | none => false

/-- R296: an IN cell is poisoned: none of its bytes is written; the descriptor, decided or not, ends with DATA_ERROR, or
its isochronous packet does. -/
def Chip.drainPoison (c : Chip) (h f n : Nat) (x : Xfer) (k : Cell) : Chip :=
  if x.d.ty = some .isoIn then
    let c := c.release h fun y => y == k
    let c := c.updXfer f n x.count fun y => { y with done := y.done - k.data.length }
    let c := c.updXfer f n x.count fun y =>
      { y with pkts := y.pkts.modify k.pkt fun p => { p with pstat := some St.dataError, len := 0 },
               result := y.result.map fun r => if r.status = St.success ∨ r.status = St.short then { r with status := St.dataError } else r }
    (c.isoJudge f n x.count).flushWq f n
  else
    let c := c.release h fun y => y.full && y.owner == x.count
    let c := c.updXfer f n x.count fun y => { y with done := y.moved }
    match x.result with
    | some _ => (c.updXfer f n x.count fun y => { y with result := y.result.map fun r =>
        { r with status := St.dataError, length := y.moved, event := true } }).flushWq f n
    | none => match c.xfer f n x.count with
      | some y => c.causeEnd f n y St.dataError
      | none => c

/-- R284: the data of the descriptor has ended: it is decided, or all of its data stage has come. -/
def Xfer.dataEnded (x : Xfer) : Bool :=
  x.result.isSome || x.cause.isSome || decide (x.d.length ≤ x.done) || (x.d.ty == some .control && x.stage == 3)

/-- R284: draining stops once the data cells number LM or fewer, unless the data of the oldest one's descriptor has ended. -/
def Chip.judgeDrainStop (c : Chip) (h f n : Nat) : Chip :=
  c.updEp h fun e =>
    let ended := match e.cells.find? fun k => k.full with
      | some k => (c.work f n k.owner).any Xfer.dataEnded
      | none => false
    if !ended && decide (e.dataCells ≤ e.lmIn) then { e with cells := e.cells.map fun y => { y with draining := false } } else e

/-- Write a cell's bytes to the buffer and release the cell. -/
def Chip.drainCell (c : Chip) (h f n : Nat) (x : Xfer) (k : Cell) : Chip :=
  let ps := splitRun k.data.length (x.cellAddr k) x.elem c.pci.mps 0 k.data.length
  let ok := match (c.fn f).home with
    | some w => ps.all fun p => w.within (x.cellAddr k p.1).toNat p.2
    | none => true
  if !ok then
    let c := c.release h fun y => y.full && y.owner == x.count
    c.dataReadFailed f n x.count St.accessError
  else
    let ns := x.d.noSnoop && (c.fn f).nosnoop
    let c := c.each ps fun c p => c.hostWrite f (x.cellAddr k p.1) ((k.data.drop p.1).take p.2) ns
    let c := c.release h fun y => y == k
    let c := c.updXfer f n x.count fun y => { y with moved := y.moved + k.data.length }
    let c := c.judgeDrainStop h f n
    ((c.flushWq f n).supplyEp h).releaseIdle h

/-- One request for the IN side of a channel. (DESIGN CHOICE, log 116) -/
def Chip.drainStep (c : Chip) (h : Nat) : Chip :=
  match c.drainOf h with
  | some (f, n, x, k) =>
    if k.poison then c.drainPoison h f n x k
    else if x.lacksIndex k.off k.data.length then c.readIndex f n x false
    else c.drainCell h f n x k
  | none => match c.fillOf h with
    | some (f, n, x) => c.readPackets f n x
    | none => c

/-! ### Payload moves (R294, R306) -/

/-- A service descriptor whose payload or index table is not all there, by its WQ. -/
def Chip.payloadOf (c : Chip) (f n : Nat) : Option (Nat × Xfer) :=
  match c.wq f n with
  | none => none
  | some q => match q.instOf.bind fun h => (c.inst h).map fun i => (h, i) with
    | none => none
    | some (h, i) => (q.work.find? fun (x : Xfer) => x.result.isNone &&
        (if x.d.ty = some .streamJob then x.svcRun && decide (x.moved < x.chunkEnd)
         else !x.svcRun && !x.fetched i.svc i.slots)).map fun x => (h, x)

/-- (DEDUCED, log 120) -/
def Chip.payloadEnd (c : Chip) (h : Nat) (x : Xfer) : Nat :=
  if x.d.ty = some .streamJob then x.chunkEnd
  else match c.inst h with
    | some i => x.needs i.svc i.slots
    | none => 0

/-- The index table is read ahead of the payload of a job, and whole for a request. -/
def Chip.payloadLacks (c : Chip) (h : Nat) (x : Xfer) : Bool :=
  x.d.index && (if x.moved < c.payloadEnd h x then decide (x.index.length * x.d.svcElemLen ≤ x.moved)
    else decide (x.index.length < x.svcEntries))

def Chip.canPayload (c : Chip) (f n : Nat) : Bool :=
  match c.payloadOf f n with
  | some (h, x) => !c.dmaHeld f && decide (c.grn.reads.length < 512) &&
      (if c.payloadLacks h x then !c.readOut fun w => w == .index f n x.count x.index.length
       else !c.readOut fun w => w == .payload f n x.count x.moved)
  | none => false

def Chip.payloadStep (c : Chip) (f n : Nat) : Chip :=
  match c.payloadOf f n with
  | none => c
  | some (h, x) =>
    if c.payloadLacks h x then c.readIndex f n x true
    else
      let a := x.svcAddr x.moved
      let l := pieceLen a x.moved (c.payloadEnd h x - x.moved) c.pci.mrrs (if x.d.index then x.d.svcElemLen else 0)
      c.movRead f n x.count (.payload f n x.count x.moved) a l (x.d.noSnoop && (c.fn f).nosnoop)

/-! ### The choice of the next request (R286) -/

/-- Class 1: the channel's next service lies no more than 3 microframes on. -/
def Chip.urgent (c : Chip) (e : Ep) : Bool :=
  e.periodic && !e.isIn &&
    (let next := if e.type = .intr ∧ e.nom.isSome then e.due else e.slotFrom c.mfn
     let d := mfnAfter next c.mfn
     decide (d ≤ 3) || decide (8192 ≤ d))

/-- The next after `cur` of those that `p` holds of. (DEDUCED, log 117) -/
def Chip.robin (c : Chip) (cur : Nat) (p : Nat × Ep → Bool) : Option Nat :=
  nextAfter ((c.eps.filter p).map Prod.fst) cur fun _ => true

/-- R286: the mover issues its next request. -/
def Chip.moverIssue (c : Chip) : Chip :=
  let c := c.each (c.eps.map Prod.fst) fun c h =>
    if c.outWaits h then c.setWaiting h true else c
  match c.robin c.grn.last1 fun e => c.urgent e.2 && c.canFill e.1 with
  | some h => (c.updGrn fun g => { g with last1 := h }).fillStep h
  | none =>
    let per := c.robin c.grn.last2 fun e => e.2.periodic && c.canDrain e.1
    match per.orElse fun _ => c.robin c.grn.last2 fun e => !e.2.periodic && c.canDrain e.1 with
    | some h => (c.updGrn fun g => { g with last2 := h }).drainStep h
    | none =>
      let fills := (c.eps.filter fun e => c.canFill e.1).map Prod.fst
      let pays := (c.wqs.filter fun e => c.canPayload (e.1 / 64) (e.1 % 64)).map fun e => 0x2000 + e.1
      match nextAfter (fills ++ pays) c.grn.last3 fun _ => true with
      | some k =>
        let c := c.updGrn fun g => { g with last3 := k }
        if k < 0x2000 then c.fillStep k else c.payloadStep ((k - 0x2000) / 64) ((k - 0x2000) % 64)
      | none => c

/-- MOVER_REQUEST_ISSUE (R286); `e` is the DRAM word of the cell it drains that needed a correction (false) or is poisoned
(true), with its byte address (R271, R296). -/
def execMoverRequestIssue (e : Option (Fin 0x10000000 × Bool)) (s : State) : Host.Outcome State Fault Refusal :=
  s.live fun c =>
    if !c.fabricRuns then c
    else
      let c := match e with
        | some (a, bad) =>
          let h := (c.robin c.grn.last2 fun e => e.2.periodic && c.canDrain e.1).orElse fun _ =>
            c.robin c.grn.last2 fun e => !e.2.periodic && c.canDrain e.1
          match h.bind fun h => ((c.ep h).bind fun e => e.cells.findIdx? fun (k : Cell) => k.full).map fun i => (h, i) with
          | some (h, i) => c.wordError (.cell h i) a.val bad
          | none => c
        | none => c
      c.moverIssue

/-! ### What reads return (R292) -/

/-- A piece of a cell has returned; with its last one the cell is filled. -/
def Chip.fillReturn (c : Chip) (h : Nat) (count : Word) (off : Nat) (bs : List Byte) : Chip :=
  c.updEp h fun e =>
    let x := (e.wq.bind fun w => c.xfer w.1 w.2 count)
    { e with cells := e.cells.map fun k =>
        let base := (match x with | some x => x.before k.pkt | none => 0) + k.off
        if k.owner = count ∧ !k.full ∧ base ≤ off ∧ off < base + k.size then
          let ps := Tab.put k.parts (off - base) bs
          let data := ps.flatMap Prod.snd
          if data.length = k.size then { k with data := data, full := true, parts := [], size := 0, asked := 0 }
          else { k with parts := ps }
        else k }

/-- The entries that a packet-list read returned (R148). -/
def pktsOf (bs : List Byte) : List IsoPkt :=
  (List.range (bs.length / 8)).map fun i => { offset := wordAt bs (8 * i), req := bits (wordAt bs (8 * i + 4)) 12 0 }

/-- R421: a homed function's read touches a poisoned word. -/
def Chip.poisonRead (c : Chip) (n : Nat) (count : Word) (r : MovRead) : Chip :=
  match r.what, c.xfer r.fn n count with
  | .fill _ _ off, some x =>
    if x.d.ty = some .isoOut then
      match (List.range x.pkts.length).find? fun k => decide (off < x.before (k + 1)) with
      | some k => c.pktEnd r.fn n count k St.dataError 0 0
      | none => c
    else c.dataReadFailed r.fn n count St.dataError
  | _, _ => c.dataReadFailed r.fn n count St.dataError

/-- The WQ number and WQCOUNT that an outstanding read serves. -/
def Chip.readWq (c : Chip) (r : MovRead) : Option (Nat × Word) :=
  match r.what with
  | .fill h count _ => ((c.ep h).bind Ep.wq).map fun w => (w.2, count)
  | .index _ n count _ | .packets _ n count _ | .payload _ n count _ => some (n, count)

/-- The data of an outstanding read. (DEDUCED, log 124) -/
def Chip.readReturn (c : Chip) (r : MovRead) (bs : List Byte) : Chip :=
  match r.what with
  | .fill h count off => c.fillReturn h count off bs
  | .index f n count first => c.updXfer f n count fun x =>
      if x.index.length = first then { x with index := x.index ++ bytesWords bs (bs.length / 4) } else x
  | .packets f n count first => c.updXfer f n count fun x =>
      if x.pkts.length = first then { x with pkts := x.pkts ++ pktsOf bs } else x
  | .payload f n count off => c.updXfer f n count fun x =>
      if x.moved = off ∧ x.result.isNone then { x with payload := x.payload ++ bs, moved := x.moved + bs.length } else x

/-- MOVER_READ_RETURN (R292): the `k`-th oldest outstanding read returns its bytes; a homed function's come from its
window (R404). A return of another length than was asked for is no return of this read. -/
def execMoverReadReturn (k : Fin 512) (bs : List Byte) (s : State) : Host.Outcome State Fault Refusal :=
  s.live fun c => match c.grn.reads[k.val]? with
    | none => c
    | some r =>
      let data := c.hostReadData r.fn r.addr r.len bs
      if data.length != r.len then c
      else
        let c := c.updGrn fun g => { g with reads := g.reads.eraseIdx k }
        let bad := match (c.fn r.fn).home with | some h => h.poisoned r.addr.toNat r.len | none => false
        if bad then match c.readWq r with
          | some (n, count) => c.poisonRead n count r
          | none => c
        else c.readReturn r data

/-! ### Grants and settings (R280 to R282, R302) -/

/-- CELL_GRANT (R280, R281): the waiter whose turn it is gets a cell. -/
def execCellGrant (s : State) : Host.Outcome State Fault Refusal :=
  s.live fun c => match c.nextWaiter with
    | none => c
    | some h => match c.chan h with
      | some ch => if ch.x.d.dataIn then c.supplyEp h else c.lendOut h
      | none => c.lendOut h

/-- R282: QC and WAITLIM of a channel, if the marks in force stay legal. (DEDUCED, log 119) -/
def Ep.setQuota (e : Ep) (qc wait : Nat) : Option Ep :=
  let lim := 2 * e.t + qc
  let outOk := e.isIn || decide (e.hmOut ≤ lim)
  let inOk := (!e.isIn && e.type != .control) || e.periodic || decide (e.hmIn ≤ lim)
  if outOk && inOk then some { e with qc := qc, waitLim := wait } else none

/-- R282: the marks of a direction; those of a periodic IN channel are fixed, and writes to them are ignored. -/
def Ep.setMarks (e : Ep) (inDir : Bool) (hm lm : Nat) : Option Ep :=
  if inDir && e.periodic then some e
  else if 1 ≤ hm ∧ hm ≤ e.limit ∧ lm < hm then
    some (if inDir then { e with hmIn := hm, lmIn := lm }
      else { e with hmOut := hm, lmOut := lm, paceOn := e.paceOn && decide (e.heldCells < hm) })
  else none

/-- A write of GRN_CHCFG, or of GRN_CHMARK. -/
def Chip.channelWrite (c : Chip) (mark : Bool) (w : Word) : Chip :=
  let bad := c.updGrn fun g => { g with cfgerr := true }
  match c.ep c.grn.sel with
  | none => bad
  | some e =>
    let inDir := if e.type = .control then c.grn.ctlDir else e.isIn
    match if mark then e.setMarks inDir (bits w 24 16) (bits w 8 0) else e.setQuota (bits w 23 16) (bits w 31 24) with
    | some y => c.updEp c.grn.sel fun _ => y
    | none => bad

/-- CHANNEL_SETTINGS_WRITE (R282, R302): PF0 writes GRN_CHCFG, or GRN_CHMARK. -/
def execChannelSettingsWrite (mark : Bool) (w : Word) (s : State) : Host.Outcome State Fault Refusal :=
  s.live fun c => c.channelWrite mark w

/-! ### Scrub (R299, R300) -/

/-- The running SCRUB pass. (DEDUCED, log 121) -/
def Chip.scrubOp (c : Chip) : Option Op := c.ops.recs.find? fun o => o.kind == .scrub && o.st != .done

/-- The DRAM is clocked and out of self-refresh. -/
def Chip.dramRuns (c : Chip) : Bool := c.fabricRuns && (c.pwr.st != .doze || c.pwr.ungated.contains 6) && !c.pwr.dramWait

/-- SCRUB_PERIOD_START (R299): hardware starts a pass, of 4,096 units of 64 KiB. -/
def execScrubPeriodStart (s : State) : Host.Outcome State Fault Refusal :=
  s.live fun c =>
    if !c.grn.dramScrub || c.scrubOp.isSome then c
    else match c.opRoom 0 with
      | some c => (c.newOp 0 .scrub 0xFFFF [] 4096).2
      | none => c

/-- What a word named from outside belongs to. -/
def wordOf : GarnetWord → WordOf
  | .cell ep i => .cell ep.val i
  | .freeCell => .freeCell
  | .spill f n i => .spill f.val n.val i
  | .homed f off => .homed f.val off
  | .message h i => .message h.val i
  | .payload f n count => .payload f.val n.val count
  | .image staging => .image (if staging then 1 else 0)
  | .relocation => .relocation
  | .sram g => .sram (g.val + 1)

/-- SCRUB_ACCESS (R299, R300): the scrubber reads, corrects and writes back word `w` at a byte address; `e` is none
for a word without error, false for a corrected one and true for a poisoned one. (DEDUCED, log 118) -/
def execScrubAccess (w : GarnetWord) (addr : Fin 0x10000000) (e : Option Bool) (s : State) : Host.Outcome State Fault Refusal :=
  s.live fun c =>
    let v := wordOf w
    let err := fun (c : Chip) => match e with
      | none => c
      | some bad => c.wordError v addr.val bad
    if v.group != 0 then (if c.fabricRuns && c.grn.sramScrub then err c else c)
    else match c.scrubOp with
      | some o =>
        if o.st != .running || !c.dramRuns then c
        else
          let c := ((err c).wroteBack addr.val)
          c.updOp o.opid fun o => { o with progress := max o.progress ((addr.val + 8) / 65536) }
      | none => c

/-- CORRECTION_WRITE_BACK (R273): a word that a read corrected is written back. -/
def execCorrectionWriteBack (addr : Fin 0x10000000) (s : State) : Host.Outcome State Fault Refusal :=
  s.live fun c => c.wroteBack addr.val

/-- LONG_OP_DONE of a pass: all its units are done, or it was cancelled (R299, R440). (DEDUCED, log 122) -/
def Chip.scrubDone (c : Chip) (o : Op) : Chip :=
  if o.st = .cancelling then c.opDone o.opid Ad.cancelled
  else if o.st = .running ∧ o.total ≤ o.progress then
    (c.updGrn fun g => { g with passes := (g.passes + 1) % 65536 }).opDone o.opid Ad.success
  else c

end Sys2Proof.Machine
end

