-- ==== Sys2Proof/Machine/NetSend.lean ====
section
/-!
DEFINITION. How a CRQ frame goes out (R402, R407, R417): its header, its tag, its packet number.
-/
namespace Sys2Proof.Machine

/-- R423: RXWIN in force. (DESIGN CHOICE, log 7) -/
def Assoc.window (a : Assoc) : Nat := if 1 ≤ a.rxWin ∧ a.rxWin ≤ 256 then a.rxWin else 64

/-- R402: the numbers that the packet number of an SA ranges over: 32 bits, or 64 with the XPN suites. -/
def Sa.range (s : Sa) : Nat := if s.suite < 2 then 2 ^ 32 else 2 ^ 64

/-- R402: the transmit SA in use, with its AN. (DEDUCED, log 128) -/
def EthPort.txInUse (p : EthPort) : Option (Nat × Sa) := p.txSa.find? fun e => e.2.enabled

/-- The fault source of Ethernet port `i` (R472). -/
def netSrc (i : Nat) : Nat := 0x110 + i

/-- Put a frame on Ethernet port `i`. With a transmit SA in use it takes a fresh PN; when that is exhausted the frame
waits (R402). A port that does not run or whose link is down sends nothing. (DEDUCED, log 129) -/
def Chip.putFrame (c : Chip) (i slot : Nat) (f : CrqFrame) : Chip :=
  let p := c.eth i
  let count := fun (c : Chip) => c.updEth i fun p => { p with txcnt := satAdd 0xFFFFFFFF p.txcnt 1 }
  if !p.en || !p.link then c
  else match p.txInUse with
  | none => (count c).emit (.crq i f)
  | some (an, s) =>
    if s.range ≤ s.pn then c.updEth i fun p => { p with held := p.held ++ [(slot, f)] }
    else
      let c := (count c).emit (.crq i { f with sec := some (an, s.pn) })
      let c := c.updEth i fun p => { p with txSa := Tab.put p.txSa an { s with pn := s.pn + 1 } }
      if 3 * s.range < 4 * (s.pn + 1) ∧ !p.pnWarned then
        (c.updEth i fun p => { p with pnWarned := true }).report (netSrc i) Kind.range 0
      else c

/-- R402: the tag that an association sends. -/
def Assoc.vlan (a : Assoc) : Option (Nat × Nat) := if a.tagged then some (a.pcp, a.vid) else none

/-- R407, R417: send a frame of association `k` on its current port, with its current ACK and WIN. Every frame
acknowledges what has been received. -/
def Chip.sendFrame (c : Chip) (k : Nat) (kind : CrqKind) (seq : Word) (recs : List CrqRec) : Chip :=
  let a := c.assoc k
  let f : CrqFrame :=
    { kind := kind
      assoc := a.id
      seq := seq
      ack := a.rxSeq
      win := a.window
      recs := recs
      da := a.peer
      sa := (c.eth a.curPort).mac
      tag := a.vlan }
  (c.putFrame a.curPort k f).updAssoc k fun a => { a with rxUnacked := 0 }

/-- R417: an ACK frame. -/
def Chip.sendAck (c : Chip) (k : Nat) : Chip := c.sendFrame k .ack (c.assoc k).txSeq []

end Sys2Proof.Machine
end

