-- ==== Sys2Proof/Machine/Functions.lean ====
section
/-!
DEFINITION. The functions (chapter 02): VF Enable, resets of functions (R71 to R74), held DMA (R75), configuration writes
that the event controller reads (R384, R391), RESHAPE's effects (R66 to R71, R433), and the crossings (R22 to R25).
-/
namespace Sys2Proof.Machine

/-! ### Work that is given up (R73, R108, R442) -/

/-- ENUM's job serves a request of WQ (f, n) no longer: function 128 is none. -/
def EnumJob.letGo (f n : Nat) : EnumJob → EnumJob
  | .request g m k => if g = f ∧ m = n then .request 128 m k else .request g m k
  | .restore l (some (g, m, k)) => .restore l (if g = f ∧ m = n then none else some (g, m, k))
  | .reset h (some (g, m, k)) => .reset h (if g = f ∧ m = n then none else some (g, m, k))
  | j => j

/-- A request of WQ (f, n). -/
def Job.isReqOf (f n : Nat) : Job → Bool
  | .request g m _ => g == f && m == n
  | _ => false

/-- A card slot serves a request of WQ (f, n) no longer. -/
def Slot.letGo (f n : Nat) (x : Slot) : Slot :=
  { x with req := match x.req with
             | some (g, m, k) => if g = f ∧ m = n then none else some (g, m, k)
             | none => none
           todo := x.todo.filter fun r => !(r.1 == f && r.2.1 == n) }

/-- ENUM, the services and the dispatcher let go of the requests of WQ (f, n): their tasks are cancelled (R320). -/
def Chip.letGo (c : Chip) (f n : Nat) : Chip :=
  let c := c.updDsp fun d => { d with waiting := d.waiting.filter fun h => !h.job.isReqOf f n }
  let c := c.cancelTasks fun t => t.job.isReqOf f n
  let c := c.each (c.ports.map Prod.fst) fun c p => c.updRun p fun r =>
    { r with job := r.job.map (EnumJob.letGo f n), todo := r.todo.map (EnumJob.letGo f n) }
  let c := c.updOps fun o => { o with jobsWait := o.jobsWait.filter fun j => !(j.1 == f && j.2.1 == n) }
  match (c.wq f n).bind Wq.instOf with
  | some h => c.updCcid h fun x => { x with slots := x.slots.map fun e => (e.1, e.2.letGo f n) }
  | none => c

/-- R68, R161: the STREAM_JOB of instance `h` ends by an outside cause: after the packet on the wire, if one is. -/
def Chip.jobCause (c : Chip) (h status : Nat) : Chip :=
  match (c.inst h).bind fun i => i.strm.job.bind c.op with
  | none => c
  | some o => match o.job with
    | none => c
    | some (_, _, count, _) =>
      let mark := fun (s : SvcXfer) =>
        if s.who = .inst h (jobSendTag count) then { s with x := { s.x with cause := some status } } else s
      match (c.instEp h .bulk false).filter fun _ => c.opOnWire o with
      | some e => c.updEp e fun y => { y with svc := y.svc.map mark }
      | none =>
        let c := c.dropXfers h fun t => t == jobSendTag count
        let c := c.cancelTasks fun t => t.job == .cont h (jobSendTag count) || t.job == .cont h (jobFetchTag count)
        c.jobEnd h status

/-- Every descriptor of WQ (f, n) in progress or staged ends by an outside cause, in WQCOUNT order (R68, R108). -/
def Chip.endWork (c : Chip) (f n status : Nat) : Chip :=
  let c := c.letGo f n
  let job : Option Nat := ((c.wq f n).bind Wq.instOf).filter fun h =>
    match ((c.inst h).bind fun i => i.strm.job.bind c.op).bind Op.job with
    | some (g, m, _, _) => g == f && m == n
    | none => false
  let c := match job with
    | some h => c.jobCause h status
    | none => c
  -- a job whose packet is on the wire ends with it
  let held := match job with
    | some h => (((c.inst h).bind fun i => i.strm.job.bind c.op).bind Op.job).map fun j => j.2.2.1
    | none => none
  match c.wq f n with
  | none => c
  | some q =>
    (c.each (q.work.filter fun x => x.result.isNone && some x.count != held) fun c x => c.causeEnd f n x status).wqSettle f n

/-- R73: the transaction of a raw descriptor on the wire of endpoint `h` finishes for nobody. (DEDUCED, log 245) -/
def Chip.deadTxn (c : Chip) (h : Nat) : Chip :=
  match c.chan h, c.epPort h with
  | some (.raw _ _ _), some p => (c.dropOwed h).updSc p fun s =>
      { s with txn := s.txn.map fun t => if t.ep = h then { t with dead := true } else t }
  | _, _ => c

/-- R73: a WQ is deleted and its descriptors are abandoned; data already taken for them is dropped. -/
def Chip.abandonWq (c : Chip) (f n : Nat) : Chip :=
  let c := c.letGo f n
  let c := match (c.wq f n).map Wq.bind with
    | some (.ep h) => ((c.deadTxn h).release h fun _ => true).setWaiting h false
    | _ => c
  (c.unbindWq f n).delWq f n

/-- The bitmap of the ports moved (R433). -/
def Op.movedMap (o : Op) : List Word :=
  (List.range 4).map fun k => mkWord ((o.moved.filter fun p => p / 32 == k).map fun p => (1, p % 32))

/-- A port of the RESHAPE is in move. -/
def Chip.inMove (c : Chip) (o : Op) : Bool := match o.rest with | p :: _ => (c.own p).moving | [] => false

/-- R440: LONG_CANCEL of a RESHAPE: with no port in move it is DONE at once. -/
def Chip.cancelReshape (c : Chip) (i : Nat) : Chip :=
  match c.op i with
  | some o => if o.kind = .reshape ∧ o.st = .cancelling ∧ !c.inMove o then c.opDone i Ad.cancelled 0#32 o.movedMap else c
  | none => c

/-- An operation enters CANCELLING, and its ending steps begin (R438, R440). A waiting LONG_SUSPEND completes CANCELLED. -/
def Chip.cancelOp (c : Chip) (i : Nat) : Chip :=
  let c := (c.endSuspends i Ad.cancelled).opState i .cancelling
  let c := match c.op i with
    | some o => c.cancelSender o
    | none => c
  c.cancelReshape i

/-- R442: the reset of an operation's owner cancels it: no completion is written, and its record goes. -/
def Chip.dropOp (c : Chip) (i : Nat) : Chip :=
  match c.op i with
  | none => c
  | some o =>
    if o.st = .done then c
    else
      let c := c.updOp i fun o => { o with dropped := true }
      if o.st = .cancelling then c else c.cancelOp i

/-! ### Resets of functions (R72 to R74, R393, R442) -/

/-- R73: the work of function `f` is given up; its queues, its AQ and its event bank return to their reset state. -/
def Chip.resetFn (c : Chip) (f : Nat) : Chip :=
  let c := c.each (c.wqNums f) fun c n => c.abandonWq f n
  let c := c.updGrn fun g => { g with reads := g.reads.filter fun r => r.fn != f }
  let c := c.each (c.ops.recs.filter fun o => o.fn == f && (o.kind == .download || o.kind == .streamJob)) fun c o => c.dropOp o.opid
  let c := c.updOps fun x => { x with recs := x.recs.map fun o => { o with suspWait := o.suspWait.filter fun w => w.1 != f } }
  let c := c.each (c.cqNums f) fun c n => c.delCq f n
  let c := c.updFn f fun x =>
    let q := x.aq
    { x with aq := if x.home.isSome then { sqBase := q.sqBase, cqBase := q.cqBase, sqLog := q.sqLog, cqLog := q.cqLog, owed := true }
                   else { owed := true } }
  let un := fun (e : Nat × Inst) => (e.1, if e.2.forFn = some f then { e.2 with forFn := none } else e.2)
  let c := { c with insts := c.insts.map un }
  let c := c.each (List.range 128) fun c p =>
    if (c.own p).moving && (c.own p).owner == f then c.updOwn p fun o => { o with noDetach := true } else c
  c.resetBank f

/-- R72: the configuration space and the MSI-X table of `f` return to their reset values. -/
def Chip.resetCfg (c : Chip) (f : Nat) : Chip :=
  c.updFn f fun x => { x with bme := false, msixEn := false, fmask := false, msix := [], aer := [] }

/-- R73, R74: an FLR of `f` takes effect. (DEDUCED, log 32) -/
def Chip.flr (c : Chip) (f : Nat) : Chip := ((c.resetFn f).resetCfg f).updFn f fun x => { x with transPend := true }

/-- R73, R74: a function reset of `f` takes effect; it is complete within 1 ms. -/
def Chip.fnReset (c : Chip) (f : Nat) : Chip := (c.resetFn f).updFn f fun x => { x with resetting := true }

/-- R406: end homing: a CLOSE frame if the association is OPEN; the window's pages return and the association closes.
(DEDUCED, log 43) -/
def Chip.unhome (c : Chip) (f : Nat) : Chip :=
  match (c.fn f).home with
  | none => c
  | some h =>
    let a := c.assoc h.assoc
    let c := if a.st = .opened then c.sendFrame h.assoc .close a.txSeq [] else c
    let shut := fun (x : Assoc) =>
      { x with st := AssocSt.closed, fn := none, unacked := [], queue := [], openSeq := none, opened := false, tries := 0,
               backoff := 1, retx := false, rxUnacked := 0 }
    let c := c.updAssoc h.assoc shut
    c.updFn f fun x => { x with home := none, aq := { x.aq with sqBase := 0#64, cqBase := 0#64, sqLog := 0, cqLog := 0 } }

/-! ### Port moves (R68) -/

/-- The WQs bound to endpoints and service instances of port `p`: function and number. -/
def Chip.portWqs (c : Chip) (p : Nat) : List (Nat × Nat) :=
  c.treeWqs p ++ (c.insts.filter fun e => e.2.port == p && e.2.svc != .enum).filterMap fun e => e.2.wq

/-- Ownership of port `p` passes to `t`, with its attach messages (R68 step 7). A target that has been reset gets them at
its next AQ enable (R71, R73). -/
def Chip.givePort (c : Chip) (p t : Nat) : Chip :=
  let c := c.closeHlth p 2
  let c := c.updOwn p fun _ => { owner := t }
  let c := if (c.fn t).aq.owed then c else c.each (c.devsOf p) fun c h => c.sendAttach h 2
  (c.updFn t fun x => { x with ownchg := true }).raise t 19

/-- The WQ's fetched descriptors end with RESHAPED, and its published entries are fetched to end likewise (R68, R70). -/
def Chip.drainWq (c : Chip) (f n : Nat) (delete : Bool) : Chip :=
  let c := c.updWq f n fun q =>
    { q with draining := true, moveHold := false, deleting := if delete ∧ q.deleting = none then some false else q.deleting }
  c.endWork f n St.reshaped

/-! ### RESHAPE (R66, R67, R70, R432, R433) -/

def rsKind (d : List Word) : Nat := bits (dw d 5) 3 0
def rsSrc (d : List Word) : Nat := bits (dw d 5) 15 8
def rsTgt (d : List Word) : Nat := bits (dw d 5) 23 16
def rsCount (d : List Word) : Nat := bits (dw d 6) 17 0
/-- The ports named, ascending. -/
def rsPorts (d : List Word) : List Nat := (List.range 128).filter fun p => bit (dw d (7 + p / 32)) (p % 32)

/-- What a function, or the free stock (0xFF), holds of a kind of resource. -/
def Chip.holds (c : Chip) (w kind : Nat) : Nat :=
  if w = 0xFF then
    match kind with
    | 1 => c.stock.wqs
    | 2 => c.stock.cqs
    | 3 => c.stock.vectors
    | 4 => c.stock.cells
    | _ => c.stock.share
  else
    match kind with
    | 1 => (c.fn w).wqs
    | 2 => (c.fn w).cqs
    | 3 => (c.fn w).vectors
    | 4 => (c.fn w).cells
    | _ => (c.fn w).share

/-- Set what is held. -/
def Chip.setHolds (c : Chip) (w kind v : Nat) : Chip :=
  if w = 0xFF then
    { c with stock := match kind with
      | 1 => { c.stock with wqs := v }
      | 2 => { c.stock with cqs := v }
      | 3 => { c.stock with vectors := v }
      | 4 => { c.stock with cells := v }
      | _ => { c.stock with share := v } }
  else c.updFn w fun x => match kind with
      | 1 => { x with wqs := v }
      | 2 => { x with cqs := v }
      | 3 => { x with vectors := v }
      | 4 => { x with cells := v }
      | _ => { x with share := v }

/-- R53, R63, R66: the most that a function may hold of a kind. -/
def holdMax (f kind : Nat) : Nat :=
  match kind with
  | 1 => 64
  | 2 => 16
  | 3 => if f = 0 then 64 else 16
  | 4 => 262143
  | _ => 255

/-- R66: the first condition that a RESHAPE breaks: the byte offset and lowest bit of the field at fault (R425). -/
def Chip.reshapeBad (c : Chip) (d : List Word) : Option (Nat × Nat) :=
  let k := rsKind d
  let s := rsSrc d
  let t := rsTgt d
  let n := rsCount d
  let there := fun (w : Nat) => c.fnExists w && decide (w < 128) || (k != 0 && w == 0xFF)
  if 5 < k then some (0x14, 0)
  else if !there s then some (0x14, 8)
  else if !there t || s == t then some (0x14, 16)
  else if k = 0 then
    if n ≠ 0 then some (0x18, 0)
    else match (rsPorts d).find? fun p => c.ownerOf p != s with
      | some p => some (0x1C + 4 * (p / 32), 0)
      | none => none
  else
    let left := c.holds s k - n
    let bound : Bool := k == 2 && s != 0xFF && (c.cqNums s).any fun q =>
      decide (left ≤ q) && (c.wqNums s).any fun w => ((c.wq s w).map Wq.cq) == some q
    if c.holds s k < n || (k == 5 && s != 0xFF && left == 0) || bound then some (0x18, 0)
    else if t != 0xFF && decide (holdMax t k < c.holds t k + n) then some (0x18, 0)
    else none

/-- R70: what a withdrawal does in `s`, which now holds less. -/
def Chip.withdraw (c : Chip) (s kind : Nat) : Chip :=
  let v := c.holds s kind
  match kind with
  | 1 => c.each ((c.wqNums s).filter fun n => v ≤ n) fun c n =>
      match c.wq s n with
      | some q => if q.deleting.isSome then c else c.drainWq s n true
      | none => c
  | 2 => c.each ((c.cqNums s).filter fun n => v ≤ n) fun c n =>
      match c.cq s n with
      | some q =>
        if q.deleting.isSome then c
        else
          let c := c.updCq s n fun q => { q with deleting := some false }
          if q.spill.isEmpty then c.endCqDelete s n else c
      | none => c
  | 3 => c.remapVectors s v
  | _ => c

/-- R70: the named count moves from S to T; a count of 0 changes no resources (R372). (DEDUCED, log 31). (DEDUCED, log
239). (DEDUCED, log 239) -/
def Chip.grant (c : Chip) (d : List Word) : Chip :=
  let k := rsKind d
  let s := rsSrc d
  let t := rsTgt d
  let c := c.setHolds s k (c.holds s k - rsCount d)
  let c := c.setHolds t k (c.holds t k + rsCount d)
  let c := if s = 0xFF then c else c.withdraw s k
  if rsCount d = 0 then c
  else c.each ([s, t].filter fun w => w != 0xFF) fun c w =>
    let c := c.updFn w fun x => { x with reshaped := true }
    if w = 0 then c else c.raise w 23

/-- R67: an earlier RESHAPE that is not DONE names a function or port of `o`. -/
def Chip.reshapeBlocked (c : Chip) (o : Op) : Bool :=
  let fns := fun (o : Op) => [rsSrc o.cmd, rsTgt o.cmd].filter fun w => w != 0xFF
  ((c.ops.recs.filter fun r => r.kind == .reshape).takeWhile fun r => r.opid != o.opid).any fun r =>
    r.st != .done && ((fns r).any (fns o).contains || (rsPorts r.cmd).any (rsPorts o.cmd).contains)

/-- RESHAPE_ACCEPTANCE (R67, R68, R70): the scheduler accepts the operation's next port, or its grant takes effect. A
suspend that waits takes effect here (R440); the conditions of R66 are judged again (R71). -/
def Chip.reshapeAccept (c : Chip) (i : Nat) : Chip :=
  match c.op i with
  | none => c
  | some o =>
    if c.pwr.st == .entering || o.kind != .reshape || o.st != .running || c.reshapeBlocked o || c.inMove o then c
    else if o.suspReq then c.safePoint i
    else if rsKind o.cmd = 0 then
      match o.rest with
      | [] => c.opDone i Ad.success 0#32 o.movedMap
      | p :: _ =>
        match c.reshapeBad (o.cmd.take 7 ++ (List.range 4).map fun k => mkWord (if p / 32 = k then [(1, p % 32)] else [])) with
        | some (a, b) => c.opDone i Ad.invalidParam (mkWord [(a, 0), (b, 8)]) o.movedMap
        | none =>
          let c := c.updOwn p fun x => { x with moving := true }
          let c := c.each (c.treeWqs p) fun c w => c.updWq w.1 w.2 fun q => { q with moveHold := true }
          c.updOp i fun o => { o with cut := some (c.mfn + 3#14) }
    else match c.reshapeBad o.cmd with
      | some (a, b) => c.opDone i Ad.invalidParam (mkWord [(a, 0), (b, 8)]) [0#32, 0#32, 0#32, 0#32]
      | none => (c.grant o.cmd).opDone i Ad.success 0#32 [0#32, 0#32, 0#32, 0#32]

/-- RESHAPE_ACCEPTANCE (R68). -/
def execReshapeAcceptance (i : Fin 65536) (s : State) : Host.Outcome State Fault Refusal := s.run fun c => c.reshapeAccept i

/-- The RESHAPE that moves port `p`. -/
def Chip.mover (c : Chip) (p : Nat) : Option Op :=
  c.ops.recs.find? fun o => o.kind == .reshape && o.st != .done && o.rest.head? == some p && (c.own p).moving

/-- PORT_MOVE_CUT (R68 steps 3 and 4): from the edge of the cut microframe the source's descriptors on the port end
with RESHAPED and its bound WQs are drained. (DEDUCED, log 75) -/
def Chip.moveCut (c : Chip) (p : Nat) : Chip :=
  match c.mover p with
  | none => c
  | some o => match o.cut with
    | none => c
    | some k =>
      if 8192 ≤ mfnAfter c.mfn k then c
      else
        let c := c.updOwn p fun x => { x with cut := true }
        let c := c.updOp o.opid fun o => { o with cut := none, progress := o.progress + 1 }
        let c := c.each (c.portWqs p) fun c w => c.drainWq w.1 w.2 false
        c.safePoint o.opid

/-- PORT_MOVE_CUT (R68). -/
def execPortMoveCut (p : Fin 128) (s : State) : Host.Outcome State Fault Refusal := s.run fun c => c.moveCut p

/-- A RESHAPE whose last port has been moved, or that has been cancelled, is DONE. -/
def Chip.reshapeEnd (c : Chip) (i : Nat) : Chip :=
  match c.op i with
  | none => c
  | some o =>
    if o.kind != .reshape || rsKind o.cmd != 0 || c.inMove o then c
    else if o.st = .cancelling then c.cancelReshape i
    else if o.st = .running ∧ o.rest = [] then c.opDone i Ad.success 0#32 o.movedMap
    else c

/-- PORT_MOVE_HANDOVER (R68 steps 6 to 8): once the drain has ended. (DEDUCED, log 44) -/
def Chip.handover (c : Chip) (p : Nat) : Chip :=
  match c.mover p with
  | none => c
  | some o =>
    if !(c.own p).cut || !(c.portWqs p).isEmpty then c
    else
      let s := c.ownerOf p
      let c := if (c.own p).noDetach then c else c.each (c.devsOf p).reverse fun c h => c.sendDetach s h 2
      let c := (c.updFn s fun x => { x with ownchg := true }).raise s 19
      let c := c.givePort p (rsTgt o.cmd)
      (c.updOp o.opid fun o => { o with rest := o.rest.drop 1, moved := o.moved ++ [p] }).reshapeEnd o.opid

/-- PORT_MOVE_HANDOVER (R68). -/
def execPortMoveHandover (p : Fin 128) (s : State) : Host.Outcome State Fault Refusal := s.run fun c => c.handover p

/-! ### VF Enable (R52, R55, R56) -/

/-- R55: the allocation when VF Enable is set. -/
def Chip.vfAlloc (c : Chip) : Chip :=
  let n := c.pci.numVfs
  let v := min 16 ((2048 - 64) / n)
  let w := min 64 ((4096 - 64) / n)
  let q := min 16 ((1024 - 16) / n)
  let spare := c.grn.total - c.resvCells
  let each := spare / (n + 1)
  let c := c.updFn 0 fun x => { x with vectors := 64, wqs := 64, cqs := 16, share := 16, cells := spare - n * each }
  let c := c.each (List.range n) fun c i =>
    c.updFn (i + 1) fun _ => { vectors := v, wqs := w, cqs := q, share := 16, cells := each }
  { c with stock := { vectors := 2048 - 64 - n * v, wqs := 4096 - 64 - n * w, cqs := 1024 - 16 - n * q } }

/-- VF_ENABLE_SET (R55, R56): with NumVFs 0 no VF is created and nothing changes. -/
def Chip.vfSet (c : Chip) : Chip :=
  if c.pci.vfEnable then c
  else
    let c := { c with pci := { c.pci with vfEnable := true } }
    if c.pci.numVfs = 0 then c else c.vfAlloc

/-- VF_ENABLE_SET (R55). -/
def execVfEnableSet (s : State) : Host.Outcome State Fault Refusal := s.run Chip.vfSet

/-- A RESHAPE that names a VF ends as VF Enable clears: the port in move stays with the function that owns it.
(DEDUCED, log 29) -/
def Chip.endReshape (c : Chip) (o : Op) : Chip :=
  let c := match o.rest with
    | p :: _ => if (c.own p).moving then
        (c.updOwn p fun x => { owner := x.owner }).each (c.treeWqs p) fun c w => c.updWq w.1 w.2 fun q => { q with moveHold := false }
      else c
    | [] => c
  let c := c.updOp o.opid fun o => { o with rest := [], cut := none }
  c.opDone o.opid Ad.cancelled 0#32 o.movedMap

/-- R56: what VF Enable going to 0 does, in its order. -/
def Chip.vfClear (c : Chip) : Chip :=
  if !c.pci.vfEnable then c
  else
    let n := c.pci.numVfs
    let vfs := (List.range n).map (· + 1)
    let c := c.each vfs Chip.flr
    let c := c.each vfs Chip.unhome
    let c := c.each vfs Chip.shToPf0
    let c := c.each (c.ops.recs.filter fun o => o.kind == .reshape && o.st != .done &&
      vfs.any fun v => rsSrc o.cmd == v || rsTgt o.cmd == v) Chip.endReshape
    let c := c.each ((List.range 128).filter fun p => c.ownerOf p != 0) fun c p => c.givePort p 0
    let st := c.stock
    let sum := fun (g : Fun → Nat) => (vfs.map fun v => g (c.fn v)).sum
    let pf := c.fn 0
    let vec := st.vectors + sum Fun.vectors + pf.vectors
    let wq := st.wqs + sum Fun.wqs + pf.wqs
    let cq := st.cqs + sum Fun.cqs + pf.cqs
    let sh := st.share + sum Fun.share + pf.share
    let c := c.updFn 0 fun x => { x with vectors := 64, wqs := 64, cqs := 16, share := 16, cells := c.grn.total - c.resvCells }
    let c := { c with stock := { vectors := vec - 64, wqs := wq - 64, cqs := cq - 16, share := sh - 16 } }
    let c := { c with fns := c.fns.filter fun e => e.1 == 0 || decide (n < e.1) }
    { c with pci := { c.pci with vfEnable := false } }

/-- VF_ENABLE_CLEAR (R56). -/
def execVfEnableClear (s : State) : Host.Outcome State Fault Refusal := s.run Chip.vfClear

/-- NUMVFS_WRITE (R52): no effect while VF Enable is 1, nor with a value above TotalVFs. -/
def execNumvfsWrite (w : Fin 65536) (s : State) : Host.Outcome State Fault Refusal :=
  s.run fun c => if c.pci.vfEnable ∨ 127 < w.val then c else { c with pci := { c.pci with numVfs := w } }

/-! ### Resets that come from the host (R72, R74, R442) -/

/-- VF_FLR (R73): a VF that exists. -/
def execVfFlr (f : Fin 128) (s : State) : Host.Outcome State Fault Refusal :=
  s.run fun c => if f.val ≠ 0 ∧ c.fnExists f then c.flr f else c

/-- R72: what an FLR of PF0 does: VF Enable clears, and PF0's work is given up; SELFTEST and CAL_MEASURE are cancelled and
a RESHAPE stops at its next safe point (R442). -/
def Chip.pf0Flr (c : Chip) : Chip :=
  let c := c.vfClear
  let c := c.each (c.ops.recs.filter fun o => o.kind != .scrub && o.kind != .download && o.kind != .streamJob) fun c o => c.dropOp o.opid
  let c := c.flr 0
  { c with pci := { c.pci with vfEnable := false, vfMse := false, numVfs := 0, sysPage := 1, d3hot := false, pmeEn := false,
                               mps := 128, mrrs := 512 } }

/-- PF0_FLR (R72). -/
def execPf0Flr (s : State) : Host.Outcome State Fault Refusal := s.run Chip.pf0Flr

/-- R72: a conventional reset acts as a PF0 FLR, and the link retrains. -/
def Chip.conventional (c : Chip) : Chip := { c.pf0Flr with pci := { c.pf0Flr.pci with link := .down } }

/-- CONVENTIONAL_RESET (R72): PERST#, a hot reset or a link down in ACTIVE or DOZE. -/
def execConventionalReset (s : State) : Host.Outcome State Fault Refusal :=
  s.run fun c => if c.pwr.st = .active ∨ c.pwr.st = .doze then c.conventional else c

/-- FLR_COMPLETE (R74). -/
def execFlrComplete (f : Fin 128) (s : State) : Host.Outcome State Fault Refusal :=
  s.run fun c => c.updFn f fun x => { x with transPend := false }

/-- FUNCTION_RESET_COMPLETE (R74): RESET_DONE and source 21; the command of PF0 that made the reset completes (R406,
R430). -/
def execFunctionResetComplete (f : Fin 128) (s : State) : Host.Outcome State Fault Refusal :=
  s.run fun c =>
    if !(c.fn f).resetting then c
    else
      let c := (c.updFn f fun x => { x with resetting := false, resetDone := true }).raise f 21
      let mine := fun (op : Nat) => (c.adminWaits 0 op).any fun d => bits (dw d 5) 6 0 == f.val
      if mine 0x0B || mine 0x10 then c.adminDone 0 Ad.success else c

/-! ### Holds (R75, R384, R391) -/

/-- R75: the last hold on the DMA of `f` has ended: held admin completions are written in order, spilled entries go on,
and held messages are sent. -/
def Chip.dmaResume (c : Chip) (f : Nat) : Chip :=
  (((c.adminRelease f).each (c.cqNums f) fun c n => c.cqSettle f n).holdsEnd f).recvResume f

/-- Do what may end a hold on DMA, and resume every function that is held no more. -/
def Chip.dmaChange (c : Chip) (g : Chip → Chip) : Chip :=
  let was := c.fnNums.filter c.dmaHeld
  let d := g c
  d.each (was.filter fun f => !d.dmaHeld f) Chip.dmaResume

/-- BUS_MASTER_ENABLE_WRITE (R75). -/
def execBusMasterEnableWrite (f : Fin 128) (b : Bool) (s : State) : Host.Outcome State Fault Refusal :=
  s.run fun c => if c.fnExists f then c.dmaChange fun c => c.updFn f fun x => { x with bme := b } else c

/-- Every function's held messages are judged again. -/
def Chip.allHoldsEnd (c : Chip) : Chip := c.each c.fnNums Chip.holdsEnd

/-- PM_STATE_WRITE (R391): PF0 goes to D3hot, or to D0. -/
def execPmStateWrite (d3 : Bool) (s : State) : Host.Outcome State Fault Refusal :=
  s.run fun c => ({ c with pci := { c.pci with d3hot := d3 } }).allHoldsEnd

/-- MSIX_CONTROL_WRITE (R384): MSI-X Enable and Function Mask. -/
def execMsixControlWrite (f : Fin 128) (en mask : Bool) (s : State) : Host.Outcome State Fault Refusal :=
  s.run fun c => if c.fnExists f then (c.updFn f fun x => { x with msixEn := en, fmask := mask }).holdsEnd f else c

/-- One dword of an MSI-X entry (R42). -/
def MsixEntry.put (m : MsixEntry) (k : Nat) (w : Word) : MsixEntry :=
  match k with
  | 0 => { m with addr := addr64 (w &&& 0xFFFFFFFC#32) (m.addr.extractLsb' 32 32) }
  | 1 => { m with addr := addr64 (m.addr.extractLsb' 0 32) w }
  | 2 => { m with data := w }
  | _ => { m with mask := bit w 0 }

/-- R42, R53: a write of dword `k` of entry `v`; a VF's table has 16 entries. -/
def Chip.msixPut (c : Chip) (f v k : Nat) (w : Word) : Chip :=
  if c.fnExists f && decide (v < if f = 0 then 64 else 16) then
    let c := c.updMsix f v fun m => m.put k w
    if k = 3 then c.vecHoldEnd f v else c
  else c

/-- MSIX_ENTRY_WRITE (R384). -/
def execMsixEntryWrite (f : Fin 128) (v : Fin 64) (k : Fin 4) (w : Word) (s : State) : Host.Outcome State Fault Refusal :=
  s.run fun c => c.msixPut f v k w

/-! ### Accesses that no function decodes (R618), and crossings (R22 to R25) -/

/-- UNDECODED_VF_ACCESS (R618): a request to the aperture of VF `n`, a write or a read. -/
def execUndecodedVfAccess (n : Fin 128) (write : Bool) (s : State) : Host.Outcome State Fault Refusal :=
  s.run fun c =>
    if n.val = 0 ∨ (c.pci.vfEnable ∧ c.pci.vfMse ∧ n.val ≤ c.pci.numVfs) then c
    else
      let c := if write then c else c.emit (.unsupported 0)
      c.logAer 0 .unsupportedRequest

/-- CROSSING_WORD_RECEIVED (R24): the receiving side checks a word's code. (DEDUCED, log 13) -/
def execCrossingWordReceived (w : CrossWord) (s : State) : Host.Outcome State Fault Refusal :=
  s.run fun c => match w with
    | .good => c
    | .corrected => c.report 0x190 Kind.correctedSymbol 0
    | .data g => c.markPoison (wordOf g)
    | .control _ false => c.emit .resend
    | .control src true => (c.report 0x190 Kind.uncorrectable 0).report src.val Kind.uncorrectable 0

end Sys2Proof.Machine
end

