-- ==== Sys2Proof/Machine/Admin.lean ====
section
/-!
DEFINITION. The admin queue's commands (chapter 13): reading and checking a command (R424, R425), and the commands that
set up queues, channels, bindings, functions and homing. An admin row names the function whose command is carried out; it
has no effect when that function's admin queue carries out no command of the row's opcode (log 30).
-/
namespace Sys2Proof.Machine

/-! ### Command entries (R424, R425) -/

/-- R424, R430: the bits that a command of opcode `op` uses, by dword; none for an opcode that is not assigned. `k`: the
low 17 bits of P0, which decide what RESHAPE and PERIPH_DOWNLOAD use. -/
def usedBits (op k : Nat) : Option (List Nat) :=
  let all := 0xFFFFFFFF
  let buf := [all, all, 0x03FFFFFF]
  let adr := [all, all, 0]
  let no := [0, 0, 0]
  match op with
  | 0x01 => some buf
  | 0x02 => some (adr ++ [0x000F1F0F])
  | 0x03 => some (no ++ [0xF])
  | 0x04 => some (adr ++ [0x831F0F3F, 0x00FFFFFF, 0x7FFF])
  | 0x05 => some (no ++ [0x3F])
  | 0x06 => some (no ++ [0x3F, all])
  | 0x07 => some (no ++ [0x1FFF, 0xFFFF, 0x01FF01FF, 0x01FF01FF])
  | 0x08 => some (no ++ [0x007FFFFF, 0xFFFF, 0x7F])
  | 0x09 => some (no ++ [0xFFF])
  | 0x0A => some (no ++ [0xF7F])
  | 0x0B => some (no ++ [0x7F])
  | 0x0C => some (no ++ [0x003FFF7F])
  | 0x0D => some (no ++ [0x00FFFF0F, 0x3FFFF] ++ (if k % 16 = 0 then [all, all, all, all] else []))
  | 0x0E => some (no ++ [0xF07])
  | 0x0F => some (no ++ [0x1F7F, 0x1FFF, all, all, 0x1F1F])
  | 0x10 => some (no ++ [0x7F])
  | 0x11 => some (buf ++ [0xFF0F, 0x3F])
  | 0x12 => some (buf ++ [0x11FFF, all] ++ (if k / 65536 = 1 then [0xFFFF, all] else []))
  | 0x13 => some (buf ++ [0x01FF000F, 0xFFFF])
  | 0x14 => some (buf ++ [0xFF])
  | 0x15 => some buf
  | 0x16 => some (no ++ [0xFF])
  | 0x20 => some (no ++ [0xFFFF])
  | 0x21 => some (no ++ [0xFFFF])
  | 0x22 => some (no ++ [0xFFFF])
  | 0x23 => some (buf ++ [0xFFFF])
  | _ => none

/-- The used bits of all 16 dwords. -/
def usedDwords (op k : Nat) : Option (List Nat) :=
  (usedBits op k).map fun l => 0x800000FF :: 0xFFFF :: (l ++ List.replicate (14 - l.length) 0)

/-- The lowest bit of the reserved field in which a reserved bit of `w` is 1; `m`: the used bits. -/
def reservedBit (w m : Word) : Option Nat :=
  match (List.range 32).find? fun i => bit w i && !bit m i with
  | some i => some (i - ((List.range i).reverse.takeWhile fun j => !bit m j).length)
  | none => none

/-- R425 check 2: the DETAIL of the first reserved bit that is 1. -/
def reservedFault (d : List Word) : Option Word :=
  match usedDwords (bits (dw d 0) 7 0) (bits (dw d 5) 16 0) with
  | none => none
  | some m => (List.range 16).findSome? fun i =>
      (reservedBit (dw d i) (BitVec.ofNat 32 (m.getD i 0))).map fun b => mkWord [(4 * i, 0), (b, 8)]

/-- R425: a command has been read: opcode and reserved bits are checked; the rest is the command's own. -/
def Chip.adminStart (c : Chip) (f : Nat) (d : List Word) : Chip :=
  let c := c.updAq f fun q => { q with sqC := q.sqC + 1#32, running := some d, begun := false, reading := false, rereads := 0, cmdEpoch := q.epoch }
  if (usedBits (bits (dw d 0) 7 0) 0).isNone then c.adminDone f Ad.invalidOpcode
  else match reservedFault d with
    | some w => c.adminDone f Ad.invalidParam w
    | none => c

/-- ADMIN_COMMAND_READ_RETURN (R92, R124, R425): the read of an admin command of `f` has returned these bytes. -/
def execAdminCommandReadReturn (f : Fin 128) (bs : List Byte) (s : State) : Host.Outcome State Fault Refusal :=
  s.live fun c =>
    let q := (c.fn f).aq
    if !q.reading then c
    else
      let a := entryAddr q.sqBase q.sqLog q.sqC 64
      let bad := match (c.fn f).home with | some h => h.poisoned a.toNat 64 | none => false
      if bad then c.aqStop f 3
      else
        let d := bytesWords (c.hostReadData f a 64 bs) 16
        if b2n (bit (dw d 0) 31) = phaseOf q.sqLog q.sqC then c.adminStart f d
        else if q.rereads = 2 then c.aqStop f 2
        else c.updAq f fun q => { q with reading := false, rereads := q.rereads + 1 }

/-! ### Checks and answers -/

/-- Check 4: the field at a dword's offset and lowest bit is at fault. -/
def badParam (b : Bool) (off lo : Nat) : Option (Nat × Word) :=
  if b then some (Ad.invalidParam, mkWord [(off, 0), (lo, 8)]) else none
def denied (b : Bool) : Option (Nat × Word) := if b then some (Ad.access, 0#32) else none
def lacking (b : Bool) : Option (Nat × Word) := if b then some (Ad.resource, 0#32) else none
def badState (b : Bool) : Option (Nat × Word) := if b then some (Ad.badState, 0#32) else none

/-- R565: a command fetched while the device is ENTERING that starts a long operation, binds or unbinds, names a port
or requests another power state completes with BAD_STATE. (DEDUCED, log 163) -/
def Chip.enteringBars (c : Chip) (op : Nat) : Bool :=
  c.pwr.st == .entering && [0x08, 0x09, 0x0A, 0x0D, 0x0E, 0x11, 0x12, 0x13].contains op

/-- R429, R430: PF0's own commands. -/
def pf0Only (op : Nat) : Bool := (0x0B ≤ op && op ≤ 0x11) || (0x13 ≤ op && op ≤ 0x16)

/-- The row of opcode `op` carries out the command of `f`: the checks in order (R425), then the effect. (DESIGN
CHOICE, log 30; DEDUCED, log 34) -/
def Chip.admin (c : Chip) (f op : Nat) (checks : List Word → List (Option (Nat × Word))) (g : List Word → Chip → Chip) : Chip :=
  match (c.fn f).aq.running with
  | none => c
  | some d =>
    if (c.fn f).aq.begun ∨ bits (dw d 0) 7 0 ≠ op then c
    else match (denied (pf0Only op && f != 0) :: badState (c.enteringBars op) :: checks d).findSome? id with
      | some (st, w) => c.adminDone f st w
      | none => g d c

/-- The command waits for its end. -/
def Chip.adminBegun (c : Chip) (f : Nat) : Chip := c.updAq f fun q => { q with begun := true }

def admAddr (d : List Word) : Addr := addr64 (dw d 2) (dw d 3)
def admLen (d : List Word) : Nat := bits (dw d 4) 25 0
def admCid (d : List Word) : Nat := bits (dw d 1) 15 0

/-- R404: a buffer or ring of a homed function lies within its window, with the upper half of its address 0. -/
def Chip.bufFault (c : Chip) (f : Nat) (d : List Word) (n : Nat) : Option (Nat × Word) :=
  match (c.fn f).home with
  | none => none
  | some h => (badParam (dw d 3 != 0#32) 0x0C 0).or (badParam (!h.within (admAddr d).toNat n) 0x08 0)

/-! ### IDENTIFY (R431) -/

/-- FN_ALLOC and FN_QUOTA (R63). -/
def Fun.allocWord (x : Fun) : Word := mkWord [(x.vectors, 16), (x.cqs, 8), (x.wqs, 0)]
def Fun.quotaWord (x : Fun) : Word := mkWord [(x.share, 18), (x.cells, 0)]
/-- FN_ID (R60). -/
def Chip.fnId (c : Chip) (f : Nat) : Word :=
  mkWord [(if f = 0 then 0x0128 else 0x0129, 16), (b2n (f == 0), 15), (b2n (c.homed f), 14), (f, 0)]

/-- A bitmap dword of the numbers from 32k in a list. -/
def mapWord (l : List Nat) (k : Nat) : Word := mkWord ((l.filter fun i => i / 32 == k).map fun i => (1, i % 32))

def Chip.tstClu (c : Chip) (k : Nat) : TstClu := Tab.get (fun _ => {}) c.tst.clu k
/-- The ports in service (R508). -/
def Chip.portsOk (c : Chip) : List Nat := (List.range 128).filter fun p => !c.tst.portBad.contains p
def Chip.lanesPresent (c : Chip) : List Nat := (List.range 32).filter fun l => (c.lane l).present
/-- Cluster `k`'s spare is free to take over. -/
def Chip.spareFree (c : Chip) (k : Nat) : Bool :=
  !(c.clu k).spareFailed && !(c.tstClu k).cluFail &&
  !(List.range 8).any fun i => (c.port (8 * k + i)).spare || (c.port (8 * k + i)).takeover
/-- TST_STATUS.FUSED (R504). (DEDUCED, log 42) -/
def Tst.fused (t : Tst) : Bool := t.postdone && t.sramSoft == t.sramBurnt
/-- The image in force for `f` (R550, R552). -/
def Chip.imageOf (c : Chip) (f : Nat) : Option Image := if c.boot.inForce.contains f then c.boot.staged else c.boot.running
/-- The version of the image in force for `f`. -/
def Chip.imageVer (c : Chip) (f : Nat) : Nat := match c.imageOf f with | some x => x.ver | none => 0
/-- R547, R554: the SERVICE section in force for `f`, its own or the one for all; none where the image cannot be used. -/
def Chip.serviceSection (c : Chip) (f : Nat) : Option (List Word) :=
  if c.boot.lost && !c.boot.inForce.contains f then none
  else match c.imageOf f with
    | none => none
    | some x => ((x.services.find? fun e => e.1 == f).or (x.services.find? fun e => e.1 == 0xFF)).map Prod.snd
/-- R547: the values that an instance starts with when it is bound by `f`. -/
def Chip.bindDefaults (c : Chip) (f : Nat) (x : Inst) : Inst :=
  match c.serviceSection f with
  | none => x
  | some w => { x with
      strm := { x.strm with rxIdle := bits (dw w 0) 7 0, rxChunk := bits (dw w 0) 28 16 }
      hlth := { x.hlth with hbiv := bits (dw w 1) 12 0, hbfail := bits (dw w 1) 19 16, autoReset := bit (dw w 1) 20 }
      ccid := { x.ccid with slots := (List.range 8).foldl (fun (t : Tab Slot) k => Tab.upd (fun _ => {}) t k fun y =>
        { y with autoPower := bit (dw w 2) 0, preferT1 := bit (dw w 2) 1, noPps := bit (dw w 2) 2 }) x.ccid.slots } }

/-- The 128-byte record. -/
def Chip.identity (c : Chip) (f : Nat) : List Byte :=
  let x := c.fn f
  let sp := (List.range 16).filter c.spareFree
  wordsBytes ([mkWord [(0x1F9D, 0), (if f = 0 then 0x0128 else 0x0129, 16)],
    mkWord [(2, 0), (f, 8), (b2n (f == 0), 15), (b2n (c.homed f), 16), (b2n c.tst.degraded, 17)],
    mkWord [(c.portsOk.length, 0), (c.lanesPresent.length, 8), (sp.length, 16)],
    mapWord sp 0 ||| (mapWord ((List.range 16).filter fun k => (c.tstClu k).spareUsed) 0 <<< 16),
    mapWord c.lanesPresent 0] ++ (List.range 4).map (mapWord c.portsOk) ++
    [mkWord [(c.grn.total, 0)], mkWord [(c.tst.sramFused + c.tst.sramSoft, 0), (c.tst.dramRep, 16)], mkWord [(b2n c.tst.fused, 0)],
     x.allocWord, x.quotaWord, mkWord [(0x800 + f, 0)], mkWord [(c.imageVer f, 0)],
     Config.serialNumber.extractLsb' 0 32, Config.serialNumber.extractLsb' 32 32] ++ List.replicate 14 0#32)

/-- IDENTIFY (R431). -/
def execIdentify (f : Fin 128) (s : State) : Host.Outcome State Fault Refusal :=
  s.live fun c => c.admin f 0x01
    (fun d => [badParam (admLen d < 128) 0x10 0, c.bufFault f d 128])
    (fun d c => (c.hostWrite f (admAddr d) (c.identity f)).adminDone f Ad.success)

/-! ### Queues (R84, R106 to R110, R276) -/

/-- R84, R404: a ring's base is aligned to its size or to 4 KiB, and a homed ring fits its window. -/
def Chip.ringFault (c : Chip) (f : Nat) (d : List Word) (n : Nat) : Option (Nat × Word) :=
  (badParam ((admAddr d).toNat % min (32 * 2 ^ n) 4096 != 0) 0x08 0).or (c.bufFault f d (32 * 2 ^ n))

/-- The entries of a spill exponent. -/
def spillEntries (e : Nat) : Nat := if e = 0 then 256 else 2 ^ e
/-- GRN_SPILLFREE: the free blocks of 8 KiB (R276). -/
def Chip.spillFree (c : Chip) : Nat := c.grn.spillMb * 128 - (c.cqs.map fun e => e.2.spillSize / 256).sum

/-- CREATE_CQ (R107). -/
def execCreateCq (f : Fin 128) (s : State) : Host.Outcome State Fault Refusal :=
  s.live fun c => c.admin f 0x02
    (fun d =>
      let n := bits (dw d 5) 3 0
      let e := bits (dw d 5) 12 8
      let sp := bits (dw d 5) 19 16
      [badParam ((c.fn f).cqs ≤ n || (c.cq f n).isSome) 0x14 0, badParam (e < 4 || 16 < e) 0x14 8,
       badParam (sp != 0 && (sp < 8 || 12 < sp)) 0x14 16, c.ringFault f d e, lacking (c.spillFree < spillEntries sp / 256)])
    (fun d c =>
      let n := bits (dw d 5) 3 0
      ((c.putCq f n { log2 := bits (dw d 5) 12 8, base := admAddr d, spillSize := spillEntries (bits (dw d 5) 19 16) }).cqLevel f n).adminDone
        f Ad.success)

/-- DELETE_CQ (R109). (DEDUCED, log 46) -/
def execDeleteCq (f : Fin 128) (s : State) : Host.Outcome State Fault Refusal :=
  s.live fun c => c.admin f 0x03
    (fun d =>
      let n := bits (dw d 5) 3 0
      [badParam ((c.cq f n).isNone || (c.wqNums f).any fun w => ((c.wq f w).map Wq.cq) == some n) 0x14 0,
       badState ((c.cq f n).any fun q => q.deleting.isSome)])
    (fun d c =>
      let n := bits (dw d 5) 3 0
      let c := (c.adminBegun f).updCq f n fun q => { q with deleting := some true }
      if (c.cq f n).any fun q => q.spill.isEmpty then c.endCqDelete f n else c)

/-- What a CREATE_WQ binds to. -/
def admBind (d : List Word) : Binding :=
  let h := bits (dw d 6) 15 0
  if bit (dw d 5) 31 then .svc h else .ep h

/-- R58, R621: the binding does not belong to `f`: another's, none, an ended context, or a hub's, which is ENUM's.
(DEDUCED, log 41) -/
def Chip.bindDenied (c : Chip) (f : Nat) (b : Binding) : Bool :=
  !c.bindOwned f b || (match b with
    | .ep h => decide (0x2000 ≤ h) || (c.ep h).any fun e => e.gone || (c.dev e.dev).any Dev.hub
    | _ => false)

/-- R82, R106, R331: a WQ is bound to it, or its interface is bound to a service. -/
def Chip.bindTaken (c : Chip) (b : Binding) : Bool :=
  match b with
  | .ep h => (c.ep h).any fun e => e.wq.isSome || e.inst.isSome
  | .svc h => (c.inst h).any fun i => i.wq.isSome
  | .none => true

/-- The work queue that CREATE_WQ sets up (R106): held while its endpoint's port is suspended or being moved.
(DEDUCED, log 45) -/
def Chip.newWq (c : Chip) (d : List Word) : Wq :=
  let mode : WqMode := match bits (dw d 5) 25 24 with
    | 0 => .poll
    | 1 => .doorbell
    | _ => .push
  let port := match admBind d with
    | .ep h => c.epPort h
    | _ => none
  { log2 := bits (dw d 5) 20 16
    base := admAddr d
    mode := mode
    pollIv := bits (dw d 6) 23 16
    weight := bits (dw d 7) 7 0
    burst := bits (dw d 7) 14 8
    cq := bits (dw d 5) 11 8
    bind := admBind d
    credit := bits (dw d 7) 7 0
    pollDue := mode == .poll
    suspHold := port.any fun p => (c.port p).away
    moveHold := port.any fun p => (c.own p).moving }

/-- What a queue is bound to names the queue (R106). -/
def Chip.bindWq (c : Chip) (b : Binding) (f n : Nat) : Chip :=
  match b with
  | .ep h => c.updEp h fun e => { e with wq := some (f, n) }
  | .svc h => c.updInst h fun i => { i with wq := some (f, n) }
  | .none => c

/-- CREATE_WQ (R106). -/
def execCreateWq (f : Fin 128) (s : State) : Host.Outcome State Fault Refusal :=
  s.live fun c => c.admin f 0x04
    (fun d =>
      let n := bits (dw d 5) 5 0
      let e := bits (dw d 5) 20 16
      let m := bits (dw d 5) 25 24
      let b := bits (dw d 7) 14 8
      [denied (c.bindDenied f (admBind d)), badParam ((c.fn f).wqs ≤ n || (c.wq f n).isSome) 0x14 0,
       badParam ((c.cq f (bits (dw d 5) 11 8)).all fun q => q.deleting.isSome) 0x14 8, badParam (e < 4 || 16 < e) 0x14 16,
       badParam (m == 3 || (m == 0 && c.homed f)) 0x14 24, badParam (c.bindTaken (admBind d)) 0x18 0,
       badParam (m == 0 && bits (dw d 6) 19 16 == 0) 0x18 16, badParam (bits (dw d 7) 7 0 == 0) 0x1C 0,
       badParam (b == 0 || 64 < b) 0x1C 8, c.ringFault f d e])
    (fun d c => ((c.putWq f (bits (dw d 5) 5 0) (c.newWq d)).bindWq (admBind d) f (bits (dw d 5) 5 0)).adminDone f Ad.success)

/-- DELETE_WQ (R108). -/
def execDeleteWq (f : Fin 128) (s : State) : Host.Outcome State Fault Refusal :=
  s.live fun c => c.admin f 0x05
    (fun d =>
      let q := c.wq f (bits (dw d 5) 5 0)
      [badParam q.isNone 0x14 0, badState (q.any fun q => q.deleting.isSome)])
    (fun d c =>
      let n := bits (dw d 5) 5 0
      let c := (c.adminBegun f).updWq f n fun q => { q with deleting := some true, draining := false, reading := false, ended := 0 }
      c.endWork f n St.cancelled)

/-- RESTART_WQ (R110). -/
def execRestartWq (f : Fin 128) (s : State) : Host.Outcome State Fault Refusal :=
  s.live fun c => c.admin f 0x06
    (fun d =>
      let q := c.wq f (bits (dw d 5) 5 0)
      [badParam q.isNone 0x14 0, badState (q.any fun q => !q.stopped || q.deleting.isSome),
       badParam (q.any fun q => q.err == 4) 0x14 0])
    (fun d c =>
      let k := dw d 6
      let again := fun (q : Wq) =>
        { q with stopped := false, err := 0, ccount := k, pobs := k, reading := false, rereads := 0, rereadDue := false,
                 pollDue := q.mode == .poll, slotBuf := [] }
      (c.updWq f (bits (dw d 5) 5 0) again).adminDone f Ad.success)

/-! ### SET_CHANNEL (R282) -/

/-- The settings in force, in the layout of P1 to P3; the marks of a direction that the endpoint lacks read 0. -/
def Ep.settings (e : Ep) : List Word :=
  let out := !e.isIn
  let inn := e.isIn || e.type == .control
  [mkWord [(e.qc, 0), (e.waitLim, 8)], if out then mkWord [(e.hmOut, 0), (e.lmOut, 16)] else 0#32,
   if inn then mkWord [(e.hmIn, 0), (e.lmIn, 16)] else 0#32]

/-- The marks of a direction given by a dword are not legal under limit `lim`; 0 where the endpoint lacks it. -/
def marksBad (has fixed : Bool) (lim : Nat) (w : Word) : Option Nat :=
  let hm := bits w 8 0
  let lm := bits w 24 16
  if !has then (if hm ≠ 0 then some 0 else if lm ≠ 0 then some 16 else none)
  else if fixed then none
  else if hm = 0 ∨ lim < hm then some 0
  else if hm ≤ lm then some 16
  else none

/-- SET_CHANNEL (R282). -/
def execSetChannel (f : Fin 128) (s : State) : Host.Outcome State Fault Refusal :=
  s.live fun c => c.admin f 0x07
    (fun d =>
      let h := bits (dw d 5) 12 0
      match c.ep h with
      | none => [denied true]
      | some e =>
        let lim := 2 * e.t + bits (dw d 6) 7 0
        [denied (c.bindDenied f (.ep h)),
         (marksBad (!e.isIn) false lim (dw d 7)).bind (badParam true 0x1C),
         (marksBad (e.isIn || e.type == .control) (e.isIn && e.periodic) lim (dw d 8)).bind (badParam true 0x20)])
    (fun d c =>
      let h := bits (dw d 5) 12 0
      let c := c.updEp h fun e =>
        let e := { e with qc := bits (dw d 6) 7 0, waitLim := bits (dw d 6) 15 8 }
        let e := if e.isIn then e else { e with hmOut := bits (dw d 7) 8 0, lmOut := bits (dw d 7) 24 16 }
        if e.type = .control ∨ (e.isIn ∧ !e.periodic) then { e with hmIn := bits (dw d 8) 8 0, lmIn := bits (dw d 8) 24 16 } else e
      c.adminDone f Ad.success 0#32 ((c.ep h).map Ep.settings |>.getD []))

/-! ### Binding services (R331 to R335) -/

/-- The free KiB of the service-buffer area (R371): less the message buffers of the bound instances. (DEDUCED, log 40)
-/
def Chip.bufFree (c : Chip) : Nat := 15360 - ((c.insts.filter fun e => e.2.svc != .enum).map fun e => e.2.kib).sum

/-- The message buffer that a bind asks for. -/
def Chip.bindKib (c : Chip) (d : List Word) : Nat :=
  let k := bits (dw d 7) 6 0
  if k = 0 then (if c.svc.msgDef < 4 ∨ 64 < c.svc.msgDef then 8 else c.svc.msgDef) else k

/-- The service named by its code. -/
def svcOf : Nat → Option Svc
  | 2 => some .hidx
  | 3 => some .ccid
  | 4 => some .strm
  | 5 => some .hlth
  | _ => none

/-- R331's table: the interface's class fits the service. -/
def classFits (v : Svc) (i : IfDesc) : Bool :=
  match v with
  | .hidx => i.cls == 3
  | .ccid => i.cls == 0x0B
  | .strm => i.cls == 7 || (i.cls == 2 && i.sub == 2 && i.unionOf.isSome)
  | _ => false

/-- The interfaces that a bind takes: for CDC-ACM the data interface as well (R361). -/
def bindIfs (v : Svc) (i : IfDesc) : List Nat :=
  if v = .strm ∧ i.cls = 2 then i.num :: i.unionOf.toList else [i.num]

/-- An interface of device `h` is bound, or a WQ is bound to one of its endpoints. -/
def Chip.ifTakenUp (c : Chip) (h n : Nat) : Bool :=
  (c.dev h).any (fun d => (Tab.find d.bound n).isSome) ||
  c.eps.any fun e => e.2.dev == h && !e.2.dflt && !e.2.gone && e.2.iface == n && e.2.wq.isSome

/-- The lowest free instance handle (R333). -/
def Chip.freeInstHandle (c : Chip) : Option Nat := (List.range 2048).find? fun h => (Tab.find c.insts h).isNone

/-- The slots of a reader, for its flows (R310). -/
def Chip.slotsOf (c : Chip) (h n : Nat) : Nat :=
  match (c.ifOf h n).bind IfDesc.ccidDesc with
  | some x => min 8 (byteAt x 4 + 1)
  | none => 1

/-- The conditions of R332 for the bind of an interface. -/
def Chip.bindIfChecks (c : Chip) (f : Nat) (v : Option Svc) (h n : Nat) : List (Option (Nat × Word)) :=
  let i := c.ifOf h n
  [denied (decide (0x800 ≤ h) || c.devOwner h != some f), badParam v.isNone 0x14 0,
   badParam (i.isNone || (c.dev h).all fun d => d.cfgVal == 0) 0x14 8,
   badParam ((c.dev h).any Dev.hub || !(i.any fun i => v.any fun v => classFits v i)) 0x14 8,
   badParam (i.any fun i => v.any fun v => (bindIfs v i).any (c.ifTakenUp h)) 0x14 8]

/-- A new instance of service `v` on a port, and on an interface of device `h` but for HLTH. -/
def Chip.newInst (c : Chip) (k f : Nat) (v : Svc) (p h n kib : Nat) : Chip :=
  let i := c.ifOf h n
  let cdc := i.any fun i => i.cls == 2
  let data := (i.bind IfDesc.unionOf).getD 0
  let x : Inst := { svc := v, st := .binding, port := p, dev := h, iface := n, kib := kib, forFn := some f,
                    slots := if v = .ccid then c.slotsOf h n else 0, strm := { cdc := cdc, dataIf := data } }
  let c := { c with insts := Tab.put c.insts k (c.bindDefaults f x) }
  if v = .hlth then c
  else
    let ns := match i with | some i => bindIfs v i | none => []
    let c := c.updDev h fun d => { d with bound := ns.foldl (fun t m => Tab.put t m k) d.bound }
    let mine := fun (e : Ep) => e.dev == h && !e.dflt && !e.gone && ns.contains e.iface
    { c with eps := c.eps.map fun e => (e.1, if mine e.2 then { e.2 with inst := some k } else e.2) }

/-- BIND_SERVICE (R332). (DEDUCED, log 36; DEDUCED, log 37) -/
def execBindService (f : Fin 128) (s : State) : Host.Outcome State Fault Refusal :=
  s.live fun c => c.admin f 0x08
    (fun d =>
      let v := svcOf (bits (dw d 5) 7 0)
      let n := bits (dw d 5) 15 8
      let p := bits (dw d 5) 22 16
      let h := bits (dw d 6) 15 0
      let k := bits (dw d 7) 6 0
      let fl := (svcFlows (v.getD .hlth) (c.slotsOf h n)).1
      (if v = some .hlth then
        [denied (c.ownerOf p != f.val), badParam (c.insts.any fun e => e.2.svc == .hlth && e.2.port == p && e.2.st != .detached) 0x14 16,
         badParam (h != 0xFFFF) 0x18 0]
       else c.bindIfChecks f v h n) ++
      [badParam (k != 0 && (k < 4 || 64 < k)) 0x1C 0,
       lacking (16384 < c.flowsInUse + fl || c.freeInstHandle.isNone || c.bufFree < c.bindKib d)])
    (fun d c =>
      match svcOf (bits (dw d 5) 7 0), c.freeInstHandle with
      | some v, some k =>
        let h := bits (dw d 6) 15 0
        let p := if v = .hlth then bits (dw d 5) 22 16 else (c.devPort h).getD 0
        let n := bits (dw d 5) 15 8
        let c := (c.adminBegun f).newInst k f v p (if v = .hlth then 0xFFFF else h) n (c.bindKib d)
        (c.makeFlows k v (c.slotsOf h n)).bindRun k
      | _, _ => c)

/-- The service's unbind actions, queued at the device while it is attached (R335 step 3). (DEDUCED, log 38) -/
def Chip.unbindActs (c : Chip) (k : Nat) : Chip :=
  match c.inst k with
  | none => c
  | some i =>
    if i.st = .detached ∨ c.unreachable k then c
    else match i.svc with
      | .ccid =>
        match c.instEp k .bulk false with
        | none => c
        | some ep =>
          let on := i.ccid.slots.filter fun x => x.2.st == .active || x.2.st == .activating
          c.each on fun c x =>
            let seq := match c.inst k with | some i => i.ccid.bseq | none => 0
            let bs := [0x63#8] ++ natBytes 4 0 ++ [BitVec.ofNat 8 x.1, BitVec.ofNat 8 seq, 0#8, 0#8, 0#8]
            (c.updCcid k fun y => { y with bseq := (seq + 1) % 256 }).queueSvc ep
              { who := .inst k (slotTag x.1), x := { count := 0#32, d := mkDesc 2 10 0#32 0#32 }, data := bs }
      | .strm =>
        if i.strm.cdc then
          match c.ep0 i.dev with
          | some ep =>
            let x : Xfer :=
              { count := 0#32
                tmo := some 4000
                d := mkDesc 1 0 (setup0 0x21 0x22 0) (setup1 i.iface 0) }
            c.queueSvc ep { who := .inst k bindTag, x := x }
          | none => c
        else c
      | _ => c

/-- The transfers of an instance that have not ended. -/
def Chip.instXfers (c : Chip) (k : Nat) : Nat :=
  (c.eps.map fun e => (e.2.svc.filter fun s => match s.who with | .inst h _ => h == k | _ => false).length).sum

/-- R335: the unbind of instance `k`. (DEDUCED, log 39) -/
def Chip.unbind (c : Chip) (f k : Nat) : Chip :=
  match c.inst k with
  | none => c
  | some i =>
    let c := c.updDsp fun d => { d with waiting := d.waiting.filter fun h => !(match h.flow with | some k => i.flows.contains k | none => false) }
    let c := c.each i.flows Chip.closeFlow
    let c := c.updInst k fun i => { i with flows := [], tick := none }
    let c := c.dropXfers k fun _ => true
    let c := c.jobEnd k St.cancelled
    let c := match i.wq with
      | some (g, n) => c.endWork g n St.cancelled
      | none => c
    let c := c.unbindActs k
    let n := c.instXfers k
    let c := (c.adminBegun f).updInst k fun i => { i with st := .closing, step := n, forFn := some f, msgs := [], waitMsgs := [] }
    if n = 0 then c.closingStep k else c

/-- UNBIND_SERVICE (R335). -/
def execUnbindService (f : Fin 128) (s : State) : Host.Outcome State Fault Refusal :=
  s.live fun c => c.admin f 0x09
    (fun d =>
      let k := bits (dw d 5) 11 0
      let i := c.inst k
      [denied (c.instOwner k != some f.val), badParam (i.any fun i => i.svc == .enum) 0x14 0,
       badState (i.any fun i => i.st == .binding || i.st == .closing)])
    (fun d c => c.unbind f (bits (dw d 5) 11 0))

/-! ### Ports, functions and arbitration (R73, R105, R202, R403, R406) -/

/-- Give port `p` a command of PRT_CTRL.CMD, and say whether it had no effect (CMDERR). -/
def Chip.portTry (c : Chip) (p code : Nat) : Chip × Bool :=
  let was := (c.port p).event
  let c := (c.updPort p fun x => { x with event := 0 }).portCmd p code
  let now := (c.port p).event
  (c.updPort p fun x => { x with event := now ||| was }, bit (BitVec.ofNat 32 now) Ev.cmdErr)

/-- PORT_CONTROL (R202). -/
def execPortControl (f : Fin 128) (s : State) : Host.Outcome State Fault Refusal :=
  s.live fun c => c.admin f 0x0A
    (fun d =>
      let k := bits (dw d 5) 11 8
      [denied (c.ownerOf (bits (dw d 5) 6 0) != f.val), badParam (k == 0 || 3 < k) 0x14 8])
    (fun d c =>
      let p := bits (dw d 5) 6 0
      let (c, err) := c.portTry p (bits (dw d 5) 11 8)
      c.adminDone f (if err then Ad.badState else Ad.success) 0#32 [c.prtStatus p])

/-- FUNCTION_RESET (R73). -/
def execFunctionReset (s : State) : Host.Outcome State Fault Refusal :=
  s.live fun c => c.admin 0 0x0B
    (fun d => [badParam (bits (dw d 5) 6 0 == 0 || !c.fnExists (bits (dw d 5) 6 0)) 0x14 0])
    (fun d c => (c.adminBegun 0).fnReset (bits (dw d 5) 6 0))

/-- SET_FN_ARB (R105). (DESIGN CHOICE, log 35) -/
def execSetFnArb (s : State) : Host.Outcome State Fault Refusal :=
  s.live fun c => c.admin 0 0x0C
    (fun d =>
      let p := dw d 5
      [badParam (!c.fnExists (bits p 6 0)) 0x14 0, badParam (bits p 15 8 == 0) 0x14 8, badParam (bits p 21 16 == 0) 0x14 16])
    (fun d c =>
      let p := dw d 5
      (c.updFn (bits p 6 0) fun x => { x with nextArb := some (bits p 15 8, bits p 21 16) }).adminDone 0 Ad.success)

/-- The free pages of the homed-queue area (R403). -/
def Chip.homePages (c : Chip) : Nat :=
  c.grn.homedMb * 256 - (c.fns.map fun e => match e.2.home with | some h => h.pages | none => 0).sum

/-- R403: the function is homed: its window is blank, its admin rings lie in it, and its association is CLOSED until the
remote host opens it. -/
def Chip.netHome (c : Chip) (d : List Word) : Chip :=
  let f := bits (dw d 5) 6 0
  let k := bits (dw d 5) 12 8
  let home := fun (x : Fun) =>
    let aq :=
      { x.aq with
        sqBase := addr64 (dw d 7) 0#32
        cqBase := addr64 (dw d 8) 0#32
        sqLog := bits (dw d 9) 4 0
        cqLog := bits (dw d 9) 12 8 }
    { x with
      home := some { assoc := k, pages := bits (dw d 6) 12 0 }
      aq := aq }
  (c.updFn f home).updAssoc k fun a => { a with fn := some f, st := .closed, opened := false, openSeq := none }

/-- NET_HOME (R403). -/
def execNetHome (s : State) : Host.Outcome State Fault Refusal :=
  s.live fun c => c.admin 0 0x0F
    (fun d =>
      let f := bits (dw d 5) 6 0
      let a := c.assoc (bits (dw d 5) 12 8)
      let n := bits (dw d 6) 12 0
      let size := n * 4096
      let es := bits (dw d 9) 4 0
      let ec := bits (dw d 9) 12 8
      let fits := fun (w : Word) (e : Nat) => w.toNat % 4096 == 0 && decide (w.toNat + 64 * 2 ^ e ≤ size)
      let bad := f == 0 || !c.fnExists f || c.homed f || (c.fn f).aq.enable || !(c.wqNums f).isEmpty || !(c.cqNums f).isEmpty ||
        decide (32 ≤ (c.fns.filter fun e => e.2.home.isSome).length)
      [badParam bad 0x14 0, badParam (!a.valid || a.fn.isSome) 0x14 8, badParam (n == 0 || 4096 < n) 0x18 0,
       badParam (es < 4 || 16 < es) 0x24 0, badParam (ec < 4 || 16 < ec) 0x24 8,
       badParam (!fits (dw d 7) es) 0x1C 0, badParam (!fits (dw d 8) ec) 0x20 0, lacking (c.tst.netFail || c.homePages < n)])
    (fun d c => (c.netHome d).adminDone 0 Ad.success)

/-- NET_UNHOME (R406). -/
def execNetUnhome (s : State) : Host.Outcome State Fault Refusal :=
  s.live fun c => c.admin 0 0x10
    (fun d => [badParam (!c.homed (bits (dw d 5) 6 0)) 0x14 0])
    (fun d c =>
      let f := bits (dw d 5) 6 0
      ((c.adminBegun 0).fnReset f).unhome f)

/-! ### RESHAPE (R66, R67, R432, R433) -/

/-- R433: kinds 1 to 5 pass through RUNNING and reach DONE at acceptance, with one arrival at source 22; the ports of
a PORTS RESHAPE are then accepted one at a time. (DEDUCED, log 28) -/
def Chip.reshape (c : Chip) (d : List Word) : Chip :=
  match c.opRoom 0 with
  | none => c.adminDone 0 Ad.resource
  | some c =>
    let ports := if rsKind d = 0 then rsPorts d else []
    let (i, c) := (c.adminLater 0).addOp 0 .reshape (admCid d) d ports.length
    let c := c.updOp i fun o => { o with rest := ports }
    if rsKind d ≠ 0 ∧ !((c.op i).any c.reshapeBlocked) then c.reshapeAccept i else c.raise 0 22

/-- RESHAPE (R66). -/
def execReshape (s : State) : Host.Outcome State Fault Refusal :=
  s.live fun c => c.admin 0 0x0D
    (fun d => [match c.reshapeBad d with
      | some (a, b) => badParam true a b
      | none => none])
    (fun d c => c.reshape d)

/-! ### The LONG_ commands and QUERY_OP (R436 to R441) -/

/-- The operation that an issuer names: its own, or any by PF0; PF0's 0xFFFF is the running SCRUB pass (R436). -/
def Chip.opSeen (c : Chip) (f i : Nat) : Option Op :=
  let o := if i = 0xFFFF then (if f = 0 then c.scrubOp else none) else c.op i
  o.filter fun o => (f == 0 || o.fn == f) && !o.dropped

/-- A LONG_ command on the operation its P0 names. -/
def Chip.longCmd (c : Chip) (f op : Nat) (g : Op → List Word → Chip → Chip) : Chip :=
  c.admin f op (fun _ => []) fun d c =>
    match c.opSeen f (bits (dw d 5) 15 0) with
    | none => c.adminDone f Ad.noOp
    | some o =>
      if o.st = .cancelling ∨ o.st = .done then c.adminDone f Ad.badState 0#32 [] o.opid else g o d c

/-- LONG_SUSPEND (R439). -/
def execLongSuspend (f : Fin 128) (s : State) : Host.Outcome State Fault Refusal :=
  s.live fun c => c.longCmd f 0x20 fun o d c =>
    if o.st = .suspended then c.adminDone f Ad.success 0#32 [] o.opid
    else (c.updOp o.opid fun o => { o with suspReq := true, suspWait := o.suspWait ++ [(f.val, admCid d)] }).adminLater f

/-- LONG_RESUME (R439). -/
def execLongResume (f : Fin 128) (s : State) : Host.Outcome State Fault Refusal :=
  s.live fun c => c.longCmd f 0x21 fun o _ c =>
    let c := if o.st = .running then c.endSuspends o.opid Ad.cancelled else c.resumeOp o.opid
    (c.adminDone f Ad.success 0#32 [] o.opid).reshapeEnd o.opid

/-- LONG_CANCEL (R439). -/
def execLongCancel (f : Fin 128) (s : State) : Host.Outcome State Fault Refusal :=
  s.live fun c => c.longCmd f 0x22 fun o _ c =>
    let c := ((c.endSuspends o.opid Ad.cancelled).opState o.opid .cancelling).adminDone f Ad.success 0#32 [] o.opid
    (match c.op o.opid with
      | some o => c.cancelSender o
      | none => c).cancelReshape o.opid

/-- The 32 bytes of an operation record (R437). -/
def Op.bytes (o : Op) : List Byte :=
  wordsBytes [mkWord [(o.opid, 0), (o.cid, 16)],
    mkWord [(o.kind.code, 0), (o.st.code, 4), (b2n o.suspReq, 8), (o.fn, 16), (if o.st = .done then o.outcome else 0, 24)],
    mkWord [(o.mfn.toNat, 0)], BitVec.ofNat 32 o.progress, BitVec.ofNat 32 o.total, 0#32, 0#32, 0#32]

/-- R436, R437: with OPID 0 the records visible to the issuer, oldest first; otherwise one, which goes if it is DONE.
(DEDUCED, log 47) -/
def Chip.queryOp (c : Chip) (f : Nat) (d : List Word) : Chip :=
  let seen := c.ops.recs.filter fun o => (f == 0 || o.fn == f) && !o.dropped
  let i := bits (dw d 5) 15 0
  if i = 0 then
    let l := seen.take (admLen d / 32)
    (c.hostWrite f (admAddr d) (l.flatMap Op.bytes)).adminDone f Ad.success 0#32 [BitVec.ofNat 32 l.length, BitVec.ofNat 32 seen.length]
  else match c.opSeen f i with
    | none => c.adminDone f Ad.noOp
    | some o =>
      let c := (c.hostWrite f (admAddr d) o.bytes).adminDone f Ad.success 0#32 [1#32, BitVec.ofNat 32 seen.length] o.opid
      if o.st = .done then (c.updOps fun x => { x with recs := x.recs.filter fun r => r.opid != o.opid }).jobsStart else c

/-- QUERY_OP (R437). -/
def execQueryOp (f : Fin 128) (s : State) : Host.Outcome State Fault Refusal :=
  s.live fun c => c.admin f 0x23 (fun d => [badParam (admLen d < 32) 0x10 0, c.bufFault f d (admLen d)]) fun d c => c.queryOp f d

end Sys2Proof.Machine
end

