-- ==== Sys2Proof/Machine/Crypto.lean ====
section
/-!
DEFINITION. SHA-256 (FIPS 180-4) and the verification of an ECDSA signature over P-256 (FIPS 186-4), which R548 names.
-/
namespace Sys2Proof.Machine

/-! ### SHA-256 -/

/-- The 64 round constants. -/
def shaK : List Word :=
  [0x428a2f98#32, 0x71374491#32, 0xb5c0fbcf#32, 0xe9b5dba5#32, 0x3956c25b#32, 0x59f111f1#32, 0x923f82a4#32, 0xab1c5ed5#32] ++
  [0xd807aa98#32, 0x12835b01#32, 0x243185be#32, 0x550c7dc3#32, 0x72be5d74#32, 0x80deb1fe#32, 0x9bdc06a7#32, 0xc19bf174#32] ++
  [0xe49b69c1#32, 0xefbe4786#32, 0x0fc19dc6#32, 0x240ca1cc#32, 0x2de92c6f#32, 0x4a7484aa#32, 0x5cb0a9dc#32, 0x76f988da#32] ++
  [0x983e5152#32, 0xa831c66d#32, 0xb00327c8#32, 0xbf597fc7#32, 0xc6e00bf3#32, 0xd5a79147#32, 0x06ca6351#32, 0x14292967#32] ++
  [0x27b70a85#32, 0x2e1b2138#32, 0x4d2c6dfc#32, 0x53380d13#32, 0x650a7354#32, 0x766a0abb#32, 0x81c2c92e#32, 0x92722c85#32] ++
  [0xa2bfe8a1#32, 0xa81a664b#32, 0xc24b8b70#32, 0xc76c51a3#32, 0xd192e819#32, 0xd6990624#32, 0xf40e3585#32, 0x106aa070#32] ++
  [0x19a4c116#32, 0x1e376c08#32, 0x2748774c#32, 0x34b0bcb5#32, 0x391c0cb3#32, 0x4ed8aa4a#32, 0x5b9cca4f#32, 0x682e6ff3#32] ++
  [0x748f82ee#32, 0x78a5636f#32, 0x84c87814#32, 0x8cc70208#32, 0x90befffa#32, 0xa4506ceb#32, 0xbef9a3f7#32, 0xc67178f2#32]

/-- The initial hash value. -/
def shaH : List Word :=
  [0x6a09e667#32, 0xbb67ae85#32, 0x3c6ef372#32, 0xa54ff53a#32, 0x510e527f#32, 0x9b05688c#32, 0x1f83d9ab#32, 0x5be0cd19#32]

/-- The number that a byte string spells, highest byte first. -/
def bytesBig (bs : List Byte) : Nat := bs.foldl (fun a b => 256 * a + b.toNat) 0

/-- The padded message. -/
def shaPad (bs : List Byte) : List Byte :=
  let n := bs.length
  bs ++ [0x80#8] ++ List.replicate ((119 - n % 64) % 64) 0#8 ++ (natBytes 8 (8 * n)).reverse

/-- The message schedule of a block, newest word first: one word more. -/
def shaNext (w : List Word) : List Word :=
  let a := dw w 1
  let b := dw w 14
  let s1 := a.rotateRight 17 ^^^ a.rotateRight 19 ^^^ (a >>> 10)
  let s0 := b.rotateRight 7 ^^^ b.rotateRight 18 ^^^ (b >>> 3)
  (s1 + dw w 6 + s0 + dw w 15) :: w

def shaSchedule (block : List Byte) : List Word :=
  let w := (List.range 16).map fun i => BitVec.ofNat 32 (bytesBig ((block.drop (4 * i)).take 4))
  ((List.range 48).foldl (fun x _ => shaNext x) w.reverse).reverse

/-- One round, with the sum of its constant and its schedule word. -/
def shaRound (h : List Word) (k : Word) : List Word :=
  match h with
  | [a, b, c, d, e, f, g, x] =>
    let t1 := x + (e.rotateRight 6 ^^^ e.rotateRight 11 ^^^ e.rotateRight 25) + ((e &&& f) ^^^ (~~~e &&& g)) + k
    let t2 := (a.rotateRight 2 ^^^ a.rotateRight 13 ^^^ a.rotateRight 22) + ((a &&& b) ^^^ (a &&& c) ^^^ (b &&& c))
    [t1 + t2, a, b, c, d + t1, e, f, g]
  | _ => h

def shaBlock (h : List Word) (block : List Byte) : List Word :=
  let r := (List.zipWith (· + ·) shaK (shaSchedule block)).foldl shaRound h
  List.zipWith (· + ·) h r

/-- The blocks of 64 bytes, one after the other. -/
def shaBlocks : Nat → List Word → List Byte → List Word
  | 0, h, _ => h
  | n + 1, h, bs => shaBlocks n (shaBlock h (bs.take 64)) (bs.drop 64)

/-- SHA-256 as a 256-bit number, its first byte the highest. -/
def sha256 (bs : List Byte) : Nat :=
  let m := shaPad bs
  (shaBlocks (m.length / 64) shaH m).foldl (fun a w => a * 2 ^ 32 + w.toNat) 0

/-! ### P-256 -/

/-- The field prime, the order of the base point, and the coefficient b; the coefficient a is -3. -/
def p256 : Nat := 0xFFFFFFFF00000001000000000000000000000000FFFFFFFFFFFFFFFFFFFFFFFF
def n256 : Nat := 0xFFFFFFFF00000000FFFFFFFFFFFFFFFFBCE6FAADA7179E84F3B9CAC2FC632551
def b256 : Nat := 0x5AC635D8AA3A93E7B3EBBD55769886BC651D06B0CC53B0F63BCE3C3E27D2604B

/-- A point of the curve; none is the point at infinity. -/
abbrev Point := Option (Nat × Nat)

/-- The base point. -/
def g256 : Point :=
  some (0x6B17D1F2E12C4247F8BCE6E563A440F277037D812DEB33A0F4A13945D898C296,
        0x4FE342E2FE1A7F9B8EE7EB4A7C0F9E162BCE33576B315ECECBB6406837BF51F5)

/-- Powers modulo `m`, from the exponent's bits, lowest first. -/
def powMod : Nat → Nat → Nat → Nat → Nat
  | 0, _, _, m => 1 % m
  | k + 1, a, e, m => (if e % 2 = 1 then a else 1) * powMod k (a * a % m) (e / 2) m % m

/-- The inverse modulo a prime of 256 bits. -/
def invMod (a m : Nat) : Nat := powMod 256 (a % m) (m - 2) m

/-- The sum of two points. -/
def pointAdd (a b : Point) : Point :=
  match a, b with
  | none, _ => b
  | _, none => a
  | some (x1, y1), some (x2, y2) =>
    if x1 = x2 ∧ (y1 + y2) % p256 = 0 then none
    else
      let s := if x1 = x2 then (3 * x1 * x1 + p256 - 3) % p256 * invMod (2 * y1) p256 % p256
        else (y2 + p256 - y1) % p256 * invMod (x2 + p256 - x1) p256 % p256
      let x3 := (s * s + 2 * p256 - x1 - x2) % p256
      some (x3, (s * ((x1 + p256 - x3) % p256) + p256 - y1) % p256)

/-- A multiple of a point, from the multiplier's bits, lowest first. -/
def pointMul : Nat → Nat → Point → Point
  | 0, _, _ => none
  | k + 1, e, a =>
    let r := pointMul k (e / 2) (pointAdd a a)
    if e % 2 = 1 then pointAdd a r else r

/-- A public key: coordinates in the field, of a point on the curve. -/
def onCurve (x y : Nat) : Bool :=
  decide (x < p256) && decide (y < p256) && y * y % p256 == (x * x % p256 * x + 3 * (p256 - x) + b256) % p256

/-- ECDSA: the signature (r, s) verifies with the key (x, y) over a message of hash `z`. -/
def ecdsaOk (x y z r s : Nat) : Bool :=
  if !onCurve x y || r == 0 || decide (n256 ≤ r) || s == 0 || decide (n256 ≤ s) then false
  else
    let w := invMod s n256
    match pointAdd (pointMul 256 (z * w % n256) g256) (pointMul 256 (r * w % n256) (some (x, y))) with
    | none => false
    | some (u, _) => u % n256 == r

end Sys2Proof.Machine
end

