-- ==== Sys2Proof/Machine/Faults.lean ====
section
/-!
DEFINITION. Beryl, the fault collector (chapter 15): acceptance, counting, history and the FAULT_N latch.
The clearing of a source and the reaction actions stand in Machine/Reaction.lean.
-/
namespace Sys2Proof.Machine

/-! ### What depends on the statuses -/

/-- The numbers of the sources now SEVERE, and now MINOR. -/
def Chip.severeNums (c : Chip) : List Nat := (c.flt.src.filter fun e => e.2.severe).map Prod.fst
def Chip.minorNums (c : Chip) : List Nat := (c.flt.src.filter fun e => e.2.minor).map Prod.fst

/-- R484: FAULT_N is to be low. -/
def Chip.faultDue (c : Chip) : Bool :=
  c.flt.src.any (fun e => e.2.severe || (e.2.fnminor && e.2.minor)) ||
  c.flt.aonDue || c.pwr.st == .wakeFail || c.pwr.st == .mgmtOnly || c.tst.safe

/-- R535: drive ALERT# low, or release it. -/
def Chip.alert (c : Chip) (low : Bool) : Chip :=
  if c.tth.alertLow = low then c else ({ c with tth := { c.tth with alertLow := low } }).emit (.alertN low)

/-- R484, R535: the FAULT_N latch follows its conditions; its fall drives ALERT# while ALERTEN is 1, and its rise
releases ALERT# when no mailbox value waits. -/
def Chip.judgeFaultN (c : Chip) : Chip :=
  if c.faultDue = c.faultN then c
  else if c.faultDue then
    let c := { c with faultN := true }
    if c.tth.alertEn then c.alert true else c
  else
    let c := { c with faultN := false }
    if c.tth.mbfull then c else c.alert false

/-- R478, R484: shared sources 33 and 34 and FAULT_N follow the statuses. (DEDUCED, log 175) -/
def Chip.judgeFaults (c : Chip) : Chip :=
  let c := c.shInput 33 (!c.severeNums.isEmpty)
  let c := c.shInput 34 (!c.minorNums.isEmpty)
  c.judgeFaultN

/-! ### History (R489, R490, R528) -/

/-- R528: an accepted message is queued on EP3 IN while the port is configured: 64 entries of queue and two buffers of
512 bytes, 32 entries each. A full queue drops it. -/
def Chip.streamPush (c : Chip) (e : HistEntry) : Chip :=
  if !c.lny.configured then c
  else if c.lny.stream.length < 128 then
    { c with lny := { c.lny with stream := c.lny.stream ++ [if c.lny.dropMark then { e with rep := 255 } else e],
                                 dropMark := false } }
  else { c with lny := { c.lny with dropMark := true, streamDrop := satAdd 255 c.lny.streamDrop 1 } }

/-- R489: make a history entry; SEQ goes up by one, the first after power-on being 0. -/
def Chip.record (c : Chip) (src : Nat) (m : FltMsg) (severe : Bool) (count : Nat) : Chip :=
  let seq := if c.hist.valid then (c.hist.seq + 1) % 65536 else 0
  let e : HistEntry := { source := src, kind := m.kind, mfn := c.mfn, severe := severe, addr := m.addr, rep := m.rep,
                         count := count, seq := seq }
  ({ c with hist := { slots := Tab.put c.hist.slots (seq % 32) e, valid := true, seq := seq } }).streamPush e

/-- The four dwords of a history entry (R490). -/
def HistEntry.dwords (e : HistEntry) : List Word :=
  [mkWord [(e.source, 0), (e.kind, 10), (e.mfn.toNat, 16), (b2n e.severe, 30), (1, 31)],
   BitVec.ofNat 32 e.addr, mkWord [(e.addr / 2 ^ 32 % 256, 0), (e.rep, 8), (e.count, 16)], mkWord [(e.seq, 0)]]

/-- R488: a message of a port source is recorded in the FN page of the port's owner, which gets source 21. -/
def Chip.tellOwner (c : Chip) (src : Nat) (kind : Nat) : Chip :=
  if src < 128 then
    let f := c.ownerOf src
    (c.updFn f fun x => { x with fltKind := kind, fltSource := src, fltMfn := c.mfn,
                                 fltCount := satAdd 0xFFFF x.fltCount 1 }).raise f 21
  else c

/-! ### Counting (R475 to R478) -/

/-- R477: a kind is in KINDSEV. -/
def Flt.kindSev (x : Flt) (k : Nat) : Bool := if k < 32 then bit x.kindsev0 k else bit x.kindsev1 (k - 32)

/-- R475: the source after it has accepted a message of `k` events, of a kind that is in KINDSEV or not. -/
def FltSrc.count1 (s : FltSrc) (m : FltMsg) (sev : Bool) : FltSrc :=
  let k := 1 + m.rep
  let s := if !s.win && !s.severe then { s with count := 0, win := true } else s
  let s := { s with count := satAdd 255 s.count k, tot := satAdd 0xFFFFFFFF s.tot k, lastKind := m.kind }
  if !s.severe && (s.n ≤ s.count || sev) then
    { s with severe := true, win := false, react := true, sevKind := m.kind, sevAddr := m.addr }
  else if !s.severe then { s with minor := true } else s

/-- Beryl accepts a message of source `src` (R475, R478, R488, R489). -/
def Chip.accept (c : Chip) (src : Nat) (m : FltMsg) : Chip :=
  let was := (c.fltSrc src).severe
  let c := c.updFltSrc src fun s => s.count1 m (c.flt.kindSev m.kind)
  let c := c.record src m (!was && (c.fltSrc src).severe) (c.fltSrc src).count
  (c.tellOwner src m.kind).judgeFaults

/-- R474: the sources in the always-on island. -/
def aonSources : List Nat := [0x120, 0x130, 0x160]

/-- R474, R484: a source of the always-on island reports. While the fabric island does not run, a report that makes
the source SEVERE goes at once to the FAULT_N latch. (DEDUCED, log 150) -/
def Chip.aonReport (c : Chip) (src kind addr : Nat) : Chip :=
  let c := c.report src kind addr
  if !c.fabricClocked && ((c.fltSrc src).n ≤ (c.fltSrc src).count + 1 || c.flt.kindSev kind) then
    ({ c with flt := { c.flt with aonDue := true } }).judgeFaultN
  else c

/-- R474: the source whose turn it is: the first with a message waiting after the last accepted, in ascending order. -/
def Flt.next (x : Flt) : Option Nat :=
  let w := (x.src.filter fun e => !e.2.queue.isEmpty).map Prod.fst
  match w.find? fun s => x.rr < s with
  | some s => some s
  | none => w.head?

/-- R474: accept the message whose turn it is. -/
def Chip.acceptNext (c : Chip) : Chip :=
  match c.flt.next with
  | none => c
  | some src =>
    match (c.fltSrc src).queue with
    | [] => c
    | m :: r =>
      let c := c.updFltSrc src fun s => { s with queue := r }
      let c := { c with flt := { c.flt with rr := src } }
      let c := c.accept src m
      if c.flt.aonDue && !aonSources.any fun s => !(c.fltSrc s).queue.isEmpty then
        ({ c with flt := { c.flt with aonDue := false } }).judgeFaultN
      else c

/-- FAULT_MESSAGE_ACCEPT (R474, R475): Beryl takes one message a fabric cycle, while the fabric island is clocked. -/
def execFaultMessageAccept (s : State) : Host.Outcome State Fault Refusal :=
  s.run fun c => if c.fabricClocked then c.acceptNext else c

/-- FAULT_WINDOW_EXPIRY (R475): the count returns to 0 and MINOR is left as it is. -/
def execFaultWindowExpiry (src : Fin 1024) (s : State) : Host.Outcome State Fault Refusal :=
  s.run fun c =>
    if (c.fltSrc src).win then c.updFltSrc src fun x => { x with count := 0, win := false } else c

/-! ### The event controller's commands -/

/-- EVT_CLAIM_READ (R386): the read returns the claim value; in the safe state all ones, and nothing is claimed (R501). -/
def execEvtClaimRead (f : Fin 128) (s : State) : Host.Outcome State Fault Refusal :=
  s.run fun c =>
    if c.tst.safe then c.emit (.readData (wordBytes 0xFFFFFFFF#32))
    else (c.claim f none).2.emit (.readData (wordBytes (c.claim f none).1))

/-- EVT_VCLAIM_READ (R386): an entry at or above VECTORS returns 0. -/
def execEvtVclaimRead (f : Fin 128) (v : Fin 64) (s : State) : Host.Outcome State Fault Refusal :=
  s.run fun c =>
    if c.tst.safe then c.emit (.readData (wordBytes 0xFFFFFFFF#32))
    else if v < (c.fn f).vectors then (c.claim f (some v)).2.emit (.readData (wordBytes (c.claim f (some v)).1))
    else c.emit (.readData (wordBytes 0#32))

/-- EVT_COMPLETE_WRITE (R388, R389). -/
def execEvtCompleteWrite (f : Fin 128) (w : Word) (s : State) : Host.Outcome State Fault Refusal :=
  s.live fun c => c.complete f (bits w 7 0)

/-- EVT_SOURCE_CONFIG_WRITE (R378, R382). -/
def execEvtSourceConfigWrite (f : Fin 128) (i : Fin 32) (w : Word) (s : State) : Host.Outcome State Fault Refusal :=
  s.live fun c => c.srcConfig f i w

/-- EVT_SHARED_CFG_WRITE (R379): alone, or with EVT_SHs_ROUTE in one 64-bit write. -/
def execEvtSharedCfgWrite (n : Fin 64) (w : Word) (route : Option Word) (s : State) : Host.Outcome State Fault Refusal :=
  s.live fun c => c.shConfig s.locks.evt n w route

/-- EVT_SHARED_ROUTE_WRITE (R379, R380). -/
def execEvtSharedRouteWrite (n : Fin 64) (w : Word) (s : State) : Host.Outcome State Fault Refusal :=
  s.live fun c => c.shRoute s.locks.evt n w

/-- EVT_VCOAL_WRITE (R383, R396): a VF has the registers of vectors 0 to 15 only. -/
def execEvtVcoalWrite (f : Fin 128) (v : Fin 64) (w : Word) (s : State) : Host.Outcome State Fault Refusal :=
  s.live fun c => if f.val = 0 ∨ v.val < 16 then c.vcoal f v w else c

/-- EVT_GDIS_WRITE (R384): a write of EVT_CTRL. -/
def execEvtGdisWrite (f : Fin 128) (w : Word) (s : State) : Host.Outcome State Fault Refusal :=
  s.live fun c => c.evtCtrl f w

/-- COALESCING_TIMER_EXPIRY (R383). -/
def execCoalescingTimerExpiry (f : Fin 128) (v : Fin 64) (s : State) : Host.Outcome State Fault Refusal :=
  s.run fun c => if (c.vec f v).timer then c.vecJudge f v true else c

end Sys2Proof.Machine
end

