-- ==== Sys2Proof/Machine/Net.lean ====
section
/-!
DEFINITION. The Ethernet links, the associations, sequencing and retransmission, failover, and the MACsec SAs
(chapter 12), but for the frames received, which reach the register map.
-/
namespace Sys2Proof.Machine

/-! ### Associations (R412, R414, R420) -/

/-- The associations of the 32 slots that satisfy `p`. -/
def Chip.assocsWhere (c : Chip) (p : Assoc → Bool) : List Nat := (List.range 32).filter fun k => p (c.assoc k)

/-- R412: frames can still be exchanged: OPEN or STALLED. -/
def Assoc.live (a : Assoc) : Bool := a.st == .opened || a.st == .stalled

/-- R412, R75: association `k` enters a state; where that ends the function's hold on DMA, its work resumes, and
events held as due are judged again (R405). -/
def Chip.assocSt (c : Chip) (k : Nat) (st : AssocSt) : Chip :=
  let c := c.dmaChange fun c => c.updAssoc k fun a => { a with st := st }
  match (c.assoc k).fn with
  | some f => if st = .opened then c.holdsEnd f else c
  | none => c

/-- R412: STALLED reports TIMEOUT. -/
def Chip.assocStall (c : Chip) (k : Nat) : Chip :=
  if (c.assoc k).st = .opened then (c.assocSt k .stalled).report (netSrc (c.assoc k).curPort) Kind.timeout 0 else c

/-- R412: entry to DORMANT. A power-state entry raises and reports nothing (R573). -/
def Chip.assocDormant (c : Chip) (k : Nat) (quiet : Bool) : Chip :=
  if (c.assoc k).live then
    let c := (c.assocSt k .dormant).updAssoc k fun a => { a with retx := false }
    if quiet then c else (c.raise 0 21).report (netSrc (c.assoc k).curPort) Kind.timeout 0
  else c

/-- The window offset of the ring entry that a COMPLETION record's `i`-th entry was written to, and its size. -/
def Chip.recEntry (c : Chip) (f : Nat) (r : CrqRec) (i : Nat) : Option (Nat × Nat) :=
  let n := r.arg + BitVec.ofNat 32 i
  if r.q = 0xFF then
    let q := (c.fn f).aq
    some ((entryAddr q.cqBase q.cqLog n 64).toNat, 64)
  else (c.cq f r.q).map fun q => ((entryAddr q.base q.log2 n 32).toNat, 32)

/-- R421: a CQ entry that reads back poisoned, rebuilt as a spill entry is: DETAIL0 and DETAIL1 are free values.
(DEDUCED, log 135) -/
def rebuildEntry (bs : List Byte) (mfn : Mfn) (k : Nat) : List Byte :=
  let w := bytesWords bs 8
  wordsBytes [mkWord [(bits (dw w 0) 23 0, 0), (St.dataError, 24)], 0#32, mkWord [(mfn.toNat, 0), (1, 20), (1, 21)], dw w 3,
    BitVec.ofNat 32 (Config.freeNat k), BitVec.ofNat 32 (Config.freeNat k / 2 ^ 32), 0#32, dw w 7]

/-- R421: a COMPLETION record about to be sent: entries whose ring words are poisoned are rebuilt, and written back. -/
def Chip.checkRec (c : Chip) (f : Nat) (r : CrqRec) : Chip × CrqRec :=
  if r.rtype ≠ 0x81 ∨ r.q = 0xFF then (c, r)
  else
    (List.range (r.body.length / 32)).foldl (fun (t : Chip × CrqRec) i =>
      match t.1.recEntry f r i, (t.1.fn f).home with
      | some (o, n), some h =>
        if h.poisoned o n then
          let k := t.1.fresh
          let bs := rebuildEntry ((t.2.body.drop (32 * i)).take 32) t.1.mfn k.1
          (k.2.hostWrite f (BitVec.ofNat 64 o) bs, { t.2 with body := t.2.body.take (32 * i) ++ bs ++ t.2.body.drop (32 * i + 32) })
        else t
      | _, _ => t) (c, r)

def Chip.checkRecs (c : Chip) (f : Nat) (rs : List CrqRec) : Chip × List CrqRec :=
  rs.foldl (fun (t : Chip × List CrqRec) r => let u := t.1.checkRec f r; (u.1, t.2 ++ [u.2])) (c, [])

/-- R418: send the frame at index `i` of those unacknowledged again: same SEQ and records, current ACK and WIN. -/
def Chip.resendOne (c : Chip) (k i : Nat) : Chip :=
  match (c.assoc k).unacked[i]? with
  | none => c
  | some (seq, rs) =>
    let t : Chip × List CrqRec := match (c.assoc k).fn with
      | some f => c.checkRecs f rs
      | none => (c, rs)
    let c := t.1.updAssoc k fun a =>
      { a with unacked := a.unacked.set i (seq, t.2), resent := satAdd 0xFFFF a.resent 1 }
    c.sendFrame k .data seq t.2

/-- R418: the oldest unacknowledged frame is sent again, and those after it as the peer's window allows. (DEDUCED, log
136). (DEDUCED, log 136) -/
def Chip.resend (c : Chip) (k : Nat) : Chip :=
  let a := c.assoc k
  c.each (List.range (min a.unacked.length (max 1 a.peerWin))) fun c i => c.resendOne k i

/-- R420: failover of association `k` to the other port is possible: allowed, with that port's link up. -/
def Chip.canFail (c : Chip) (k : Nat) : Bool :=
  (c.assoc k).failover && (c.assoc k).live && (c.eth (1 - (c.assoc k).curPort)).link

/-- R420: failover to the other port. (DEDUCED, log 137) -/
def Chip.failover (c : Chip) (k : Nat) : Chip :=
  let c := c.updAssoc k fun a =>
    { a with curPort := 1 - a.curPort, failovers := satAdd 0xFFFF a.failovers 1, backoff := 1, tries := 0 }
  let c := c.sendAck k
  let c := c.each (List.range (c.assoc k).unacked.length) fun c i => c.resendOne k i
  let c := c.updAssoc k fun a => { a with retx := !a.unacked.isEmpty }
  if (c.assoc k).st = .stalled then c.assocSt k .opened else c

/-- R420, R412: failover where it is possible, else STALLED. -/
def Chip.failOrStall (c : Chip) (k : Nat) : Chip := if c.canFail k then c.failover k else c.assocStall k

/-! ### The link (R401) -/

/-- The Ethernet ports' PCS is clocked and has power (R443, R460, R501, R507, R572). -/
def Chip.netRuns (c : Chip) : Bool :=
  (c.pwr.st == .active || c.pwr.st == .entering || c.pwr.st == .doze) && c.tst.postdone && !c.tst.safe && !c.tst.netFail &&
  !c.net.dead

/-- PCS_LINK_STATUS_CHANGE (R401): the PCS reports link_status OK or FAIL; the down or up timer starts, or ends. -/
def execPcsLinkStatusChange (i : Fin 2) (ok : Bool) (s : State) : Host.Outcome State Fault Refusal :=
  s.live fun c => if c.netRuns ∧ (c.eth i).en then c.updEth i fun p => { p with pcsOk := ok, timer := ok != p.link } else c

/-- LINK_DOWN_TIMER (R401): link_status has been FAIL for 50 µs without a break. -/
def execLinkDownTimer (i : Fin 2) (s : State) : Host.Outcome State Fault Refusal :=
  s.live fun c =>
    let p := c.eth i
    if p.timer && p.link && !p.pcsOk then
      let c := c.updEth i fun p => { p with link := false, timer := false, downs := satAdd 0xFFFF p.downs 1 }
      let c := (c.shInput (35 + i) false).report (netSrc i) Kind.linkDown 0
      c.each (c.assocsWhere fun a => a.live && a.curPort == i.val) fun c k => c.failOrStall k
    else c

/-- LINK_UP_TIMER (R401): link_status has been OK for 10 ms without a break. A STALLED association whose current port's
link is down fails over to this port (R420). -/
def execLinkUpTimer (i : Fin 2) (s : State) : Host.Outcome State Fault Refusal :=
  s.live fun c =>
    let p := c.eth i
    if p.timer && !p.link && p.pcsOk then
      let c := (c.updEth i fun p => { p with link := true, timer := false }).shInput (35 + i) true
      c.each (c.assocsWhere fun a => a.st == .stalled && a.curPort != i.val) fun c k =>
        if !(c.eth (c.assoc k).curPort).link && c.canFail k then c.failover k else c
    else c

/-! ### Acknowledgement (R416, R417) -/

/-- R416, R418: an ACK field. One that frees a frame ends the backoff, and returns a STALLED association to OPEN. -/
def Chip.takeAck (c : Chip) (k : Nat) (ack : Word) : Chip :=
  let a := c.assoc k
  let n := (ack - (a.txSeq - BitVec.ofNat 32 a.unacked.length)).toNat
  if a.unacked.length < n then c.updAssoc k fun a => { a with outOfWin := satAdd 0xFFFF a.outOfWin 1 }
  else if n = 0 then c
  else
    let c := c.updAssoc k fun a =>
      { a with unacked := a.unacked.drop n, backoff := 1, tries := 0, retx := n != a.unacked.length }
    if a.st = .stalled then c.assocSt k .opened else c

/-- The Vetia has a DATA frame to send now (R417, R418). -/
def Assoc.hasData (a : Assoc) : Bool := a.st == .opened && !a.queue.isEmpty && decide (a.unacked.length < a.peerWin)

/-- R417: acknowledge at once, with an ACK frame unless a DATA frame goes. -/
def Chip.ackNow (c : Chip) (k : Nat) : Chip := if (c.assoc k).hasData then c else c.sendAck k

/-- ACK_DELAY_EXPIRY (R417). -/
def execAckDelayExpiry (k : Fin 32) (s : State) : Host.Outcome State Fault Refusal :=
  s.live fun c => if (c.assoc k).live && (c.assoc k).rxUnacked != 0 then c.ackNow k else c

/-! ### Records and DATA frames (R408, R411, R418) -/

/-- MTU of R408 on the association's current port. -/
def Chip.mtu (c : Chip) (k : Nat) : Nat := if (c.eth (c.assoc k).curPort).jumbo then 9000 else 1500

/-- The space a record takes in a frame (R409). -/
def CrqRec.size (r : CrqRec) : Nat := 8 + (r.body.length + 7) / 8 * 8

/-- R408: a waiting record as it goes out. -/
def RecOut.rec_ : RecOut → CrqRec
  | .completion q n bs => { rtype := 0x81, q := q, arg := n, body := bs }
  | .event v => { rtype := 0x82, q := v, arg := 0#32, body := [] }
  | .readRsp st tag bs => { rtype := 0x83, q := st, arg := BitVec.ofNat 32 tag, body := bs }
  | .regRsp st tag v off => { rtype := 0x84, q := st, arg := BitVec.ofNat 32 tag, body := wordBytes v ++ natBytes 4 off }
  | .error reason seq i => { rtype := 0x85, q := reason, arg := seq, body := natBytes 8 i }

/-- R411: a COMPLETION record takes the entry of the next count of its CQ. -/
def CrqRec.join (a b : CrqRec) : Option CrqRec :=
  let e := if a.q = 0xFF then 64 else 32
  if a.rtype = 0x81 ∧ b.rtype = 0x81 ∧ a.q = b.q ∧ b.arg = a.arg + BitVec.ofNat 32 (a.body.length / e) then
    some { a with body := a.body ++ b.body }
  else none

/-- Fill a frame of `room` bytes from the records that wait: the records of the frame, newest first, and the rest. -/
def fillFrame (room : Nat) : List CrqRec → List RecOut → List CrqRec × List RecOut
  | acc, [] => (acc, [])
  | acc, r :: rest =>
    let next : List CrqRec := match acc with
      | a :: older => match a.join r.rec_ with
        | some b => b :: older
        | none => r.rec_ :: acc
      | [] => [r.rec_]
    if (next.map CrqRec.size).sum ≤ room then fillFrame room next rest else (acc, r :: rest)

/-- R418: build and send a DATA frame of association `k`, while the peer's window allows. While the packet number is
exhausted, frames wait (R402). -/
def Chip.dataSend (c : Chip) (k : Nat) : Chip :=
  let a := c.assoc k
  let p := c.eth a.curPort
  let spent : Bool := match p.txInUse with | some (_, s) => decide (s.range ≤ s.pn) | none => false
  if !a.hasData || spent then c
  else match a.fn with
  | none => c
  | some f =>
    let t := fillFrame (c.mtu k - 16) [] a.queue
    let u := c.checkRecs f t.1.reverse
    let c := u.1.updAssoc k fun a =>
      { a with queue := t.2, unacked := a.unacked ++ [(a.txSeq, u.2)], txSeq := a.txSeq + 1#32, retx := true }
    c.sendFrame k .data a.txSeq u.2

/-- DATA_FRAME_SEND (R418). -/
def execDataFrameSend (k : Fin 32) (s : State) : Host.Outcome State Fault Refusal := s.live fun c => c.dataSend k

/-- R423: RETRYMAX in force. -/
def Assoc.retryLimit (a : Assoc) : Nat := max 1 a.retryMax

/-- RETRANSMISSION_TIMEOUT (R418). -/
def execRetransmissionTimeout (k : Fin 32) (s : State) : Host.Outcome State Fault Refusal :=
  s.live fun c =>
    let a := c.assoc k
    if !a.retx || !a.live || a.unacked.isEmpty then c
    else
      let c := c.updAssoc k fun a =>
        { a with expiries := satAdd 0xFFFF a.expiries 1, tries := a.tries + 1, backoff := min 8 (2 * a.backoff) }
      if a.retryLimit ≤ a.tries + 1 then
        if c.canFail k then c.failover k
        else ((c.resend k).assocStall k).updAssoc k fun a => { a with backoff := 8 }
      else c.resend k

/-- ASSOCTMO_EXPIRY (R412). -/
def execAssoctmoExpiry (k : Fin 32) (s : State) : Host.Outcome State Fault Refusal :=
  s.live fun c => if (c.assoc k).st = .stalled then c.assocDormant k false else c

/-! ### MACsec SAs (R402, R422) -/

def EthPort.selTx (p : EthPort) : Bool := bit p.sasel 31
def EthPort.selAn (p : EthPort) : Nat := bits p.sasel 30 29
def EthPort.selRx (p : EthPort) : Nat := 4 * bits p.sasel 28 24 + p.selAn
/-- The selected SA, if it has been installed. -/
def EthPort.selSa (p : EthPort) : Option Sa := if p.selTx then Tab.find p.txSa p.selAn else Tab.find p.rxSa p.selRx

/-- A write of SASEL: the word count restarts. -/
def Chip.saSelect (c : Chip) (i : Nat) (w : Word) : Chip :=
  c.updEth i fun p => { p with sasel := w &&& 0xFFC0FFFF#32, sadata := [] }

/-- R422: the SA of the words written: SUITE, words, next PN (32 bits wide without XPN), replay window. -/
def EthPort.loaded (p : EthPort) : Sa :=
  let suite := bits p.sasel 23 22
  let pn := (dw p.sadata 14).toNat + 2 ^ 32 * (dw p.sadata 15).toNat
  { suite := suite
    words := (List.range 16).map fun k => dw p.sadata k
    pn := if suite < 2 then pn % 2 ^ 32 else pn
    replay := bits p.sasel 15 0 }

/-- (DEDUCED, log 132) -/
def Chip.saInstall (c : Chip) (i : Nat) : Chip :=
  c.updEth i fun p =>
    if p.selTx then { p with txSa := Tab.put p.txSa p.selAn p.loaded } else { p with rxSa := Tab.put p.rxSa p.selRx p.loaded }

/-- R402: the frames that waited for a fresh PN go out, with their current ACK and WIN. -/
def Chip.releaseHeld (c : Chip) (i : Nat) : Chip :=
  let l := (c.eth i).held
  (c.updEth i fun p => { p with held := [] }).each l fun c e =>
    let a := c.assoc e.1
    if e.1 < 32 then c.putFrame i e.1 { e.2 with ack := a.rxSeq, win := if e.2.kind = .reset then e.2.win else a.window }
    else c.putFrame i e.1 e.2

/-- R422: ENABLE of the selected SA; for transmit, enabling one AN disables the others. (DEDUCED, log 130) -/
def Chip.saEnable (c : Chip) (i : Nat) (b : Bool) : Chip :=
  let p := c.eth i
  match p.selSa with
  | none => c
  | some _ =>
    if p.selTx then
      let set := fun (e : Nat × Sa) =>
        if e.1 = p.selAn then (e.1, { e.2 with enabled := b }) else (e.1, if b then { e.2 with enabled := false } else e.2)
      let c := c.updEth i fun p => { p with txSa := p.txSa.map set, pnWarned := false }
      if b then c.releaseHeld i else c
    else c.updEth i fun p => { p with rxSa := p.rxSa.map fun e => if e.1 = p.selRx then (e.1, { e.2 with enabled := b }) else e }

/-- SA_INSTALL (R422): a write of SACTL with INSTALL 1. -/
def execSaInstall (i : Fin 2) (s : State) : Host.Outcome State Fault Refusal :=
  s.live fun c => if c.regsLive then c.saInstall i else c

/-- SA_ENABLE (R422): a write of SACTL's ENABLE. -/
def execSaEnable (i : Fin 2) (b : Bool) (s : State) : Host.Outcome State Fault Refusal :=
  s.live fun c => if c.regsLive then c.saEnable i b else c

/-- A write of SADATA: the next of the 16 words; a seventeenth has no place. (DESIGN CHOICE, log 131) -/
def Chip.saData (c : Chip) (i : Nat) (w : Word) : Chip :=
  c.updEth i fun p => if p.sadata.length < 16 then { p with sadata := p.sadata ++ [w] } else p

/-- SADATA_WRITE (R422). -/
def execSadataWrite (i : Fin 2) (w : Word) (s : State) : Host.Outcome State Fault Refusal :=
  s.live fun c => if c.regsLive then c.saData i w else c

end Sys2Proof.Machine
end

