-- ==== Sys2Proof/Machine/Takeover.lean ====
section
/-!
DEFINITION. Unplanned takeovers of port engines by the spare (R227 to R229, R574 to R577), the end of an in-service test
with its record (R509, R516), and the safe state (R500, R501).
-/
namespace Sys2Proof.Machine

/-! ### The record and the end of an in-service test (R509, R516) -/

/-- KIND of R516. -/
def testKind : OpKind → Nat
  | .engine => 1
  | .lane => 2
  | .dramRegion => 3
  | .monitor => 4
  | _ => 0

/-- The target of a SELFTEST command: P0[15:8], or the DRAM region. -/
def testTarget (o : Op) : Nat := if o.kind = .dramRegion then bits (dw o.cmd 6) 5 0 else bits (dw o.cmd 5) 15 8

/-- STEPS and TOTAL of R516: a MONITOR test counts references of 64 conversions each. -/
def testSteps (k : OpKind) (n : Nat) : Nat := if k = .monitor then n / 64 else n

/-- The 64-byte record. The operation keeps the MFN of acceptance and then the dwords from 0x0C that were measured. -/
def Chip.testRecord (c : Chip) (o : Op) (result step code : Nat) : List Byte :=
  wordsBytes ([mkWord [(testKind o.kind, 0), (result, 4), (testTarget o, 8), (o.opid, 16)],
    mkWord [((dw o.record 0).toNat, 0), (c.mfn.toNat, 16)],
    mkWord [(testSteps o.kind o.progress, 0), (testSteps o.kind o.total, 8), (step, 16), (code, 24)]] ++
    (List.range 13).map fun i => dw o.record (i + 1))

/-- The fault source of the element under test (R472, R509). -/
def testSource (o : Op) : Nat :=
  match o.kind with
  | .engine => if testTarget o < 128 then testTarget o else 0x090 + testTarget o % 16
  | .lane => 0x0B0 + testTarget o
  | .monitor => 0x080 + testTarget o
  | _ => 0x0E0

/-- A test ends with a result (0 pass, 1 fail, 2 cancelled), its failing step and FAILCODE: the record is written, the
operation ends, shared source 40 pulses, and a fault found is reported with the step in ADDR. One whose owner was reset
leaves no record (R442). -/
def Chip.testEnd (c : Chip) (o : Op) (result step code : Nat) : Chip :=
  let c := if o.dropped then c else c.hostWrite 0 (addr64 (dw o.cmd 2) (dw o.cmd 3)) (c.testRecord o result step code)
  let c := c.opDone o.opid (if result = 0 then Ad.success else if result = 1 then Ad.testFail else Ad.cancelled)
  let c := if result = 1 then c.report (testSource o) Kind.selftestFail step else c
  c.shPulse 40

/-! ### Unplanned takeovers (R227 to R229, R515, R574, R577) -/

/-- R201, R229: the port cannot be carried on. -/
def Chip.lostPort (c : Chip) (p : Nat) : Chip :=
  (c.updPort p fun x => { x with takeover := false, loaded := false, swap := none }).isolate p

/-- R228: what was on the wire and has no journal entry counts as one transaction error. -/
def Chip.cutWire (c : Chip) (p : Nat) : Chip :=
  match (c.port p).sc.txn with
  | none => c
  | some t =>
    if t.kind = .lpm then c.lpmAnswer p 0 false
    else c.txnError p t (t.kind == .startSplit || t.kind == .completeSplit)

/-- R577: an ENGINE test whose port is on the spare ends CANCELLED, and its port goes back to its own engine.
(DEDUCED, log 157) -/
def Chip.testYields (c : Chip) (q : Nat) : Chip :=
  match c.engineTest q with
  | some o =>
    if o.rest = [q] then
      (c.testEnd { o with record := o.record.take 1 } 2 0 0).planSwap q false
    else c
  | none => c

/-- The port that the cluster's spare serves or is about to serve, other than `p`. -/
def Chip.spareServes (c : Chip) (p : Nat) : Option Nat :=
  ((List.range 8).map fun i => 8 * (p / 8) + i).find? fun q =>
    q != p && ((c.port q).spare || (c.port q).takeover || (c.port q).swap == some true)

/-- An unplanned takeover of port `p` by the cluster's spare. `own`: it is asked for the failure of the engine that
serves the port, which may be the spare itself; the escalation of R480 concerns the port's own engine only. (DEDUCED,
log 156) -/
def Chip.takeOver (c : Chip) (p : Nat) (own : Bool) : Chip :=
  let x := c.port p
  if x.takeover then (if own && x.spare then c.lostPort p else c)
  else if x.spare then
    if own then
      let c := match c.engineTest p with
        | some o => if o.rest = [p] then c.testEnd { o with record := o.record.take 1 } 2 0 0 else c
        | none => c
      (c.cutWire p).lostPort p
    else c
  else
    let c := (c.updPort p fun x => { x with ownFailed := true, swap := none }).cutWire p
    if (c.clu (p / 8)).spareFailed then c.lostPort p
    else
      let c := match c.engineTest (0x80 + p / 8) with
        | some o => c.testEnd { o with record := o.record.take 1 } 2 0 0
        | none => c
      match c.spareServes p with
      | none => c.updPort p fun x => { x with takeover := true, spare := true }
      | some q =>
        if (c.engineTest q).any fun o => o.rest == [q] then
          (c.testYields q).updPort p fun x => { x with takeover := true }
        else c.lostPort p

/-- The port's engine runs: its cluster has power and the port is in service. -/
def Chip.engineRuns (c : Chip) (p : Nat) : Bool := c.cluRuns (p / 8) && !c.outOfService p

/-- ENGINE_STATE_ERROR (R227). -/
def execEngineStateError (p : Fin 128) (s : State) : Host.Outcome State Fault Refusal :=
  s.live fun c => if c.engineRuns p then (c.report p Kind.uncorrectable 0).takeOver p true else c

/-- CHECKPOINT_TIMEOUT (R227). -/
def execCheckpointTimeout (p : Fin 128) (s : State) : Host.Outcome State Fault Refusal :=
  s.live fun c => if c.engineRuns p then (c.report p Kind.timeout 0).takeOver p true else c

/-- SPARE_LOAD_DONE (R228 step 3): the spare has loaded the checkpoint, the journal and the plans; `ok`: the checkpoint's
code checks. The spare starts at the port's next SOF instant, or at once in a state that has none (R574). It cannot load
while another port is still on it (R577). -/
def execSpareLoadDone (p : Fin 128) (ok : Bool) (s : State) : Host.Outcome State Fault Refusal :=
  s.live fun c =>
    if !(c.port p).takeover || (c.spareServes p).isSome || !c.engineRuns p then c
    else if !ok then (c.report p Kind.uncorrectable 0).lostPort p
    else
      let c := c.updPort p fun x => { x with spare := true, loaded := true }
      if (c.port p).st = .enabled then c
      else
        (c.updPort p fun x => { x with takeover := false, loaded := false, failovers := satAdd 255 x.failovers 1, ckptMfn := c.mfn }).portEvent
          p Ev.failover

/-! ### The safe state (R500, R501, R515) -/

/-- The in-service tests end, with no record and no completion. -/
def Op.testEnd (m : Mfn) (o : Op) : Op :=
  if testKind o.kind = 0 ∨ o.st = .done then o
  else { o with st := .done, suspReq := false, suspWait := [], outcome := Ad.cancelled, mfn := m }

def Chip.testsEnd (c : Chip) : Chip := c.updOps fun x => { x with recs := x.recs.map (Op.testEnd c.mfn) }

/-- Enter the safe state for a CAUSE of R500, with the fault source and kind of the cause where there is one; only the
first cause is recorded. A failed host island, or a cause before stage 4 of self-test has ended, holds the link.
(DEDUCED, log 158) -/
def Chip.enterSafe (c : Chip) (cause : Nat) (source kind : Nat := 0) (hostBad : Bool := false) : Chip :=
  if c.tst.safe then c
  else
    let held := hostBad || (!c.tst.postdone && decide (1 ≤ c.tst.stage ∧ c.tst.stage ≤ 4))
    let c := { c with tst := { c.tst with
      safe := true
      cause := cause
      source := source
      kind := kind
      safeMfn := c.mfn
      linkHeld := held } }
    let c := if held then { c with pci := { c.pci with link := .down } }
      else (c.logAer 0 .uncorrectableInternal).emit .errFatal
    let c := c.each [0, 1] fun c i => (c.updEth i fun p => { p with link := false, pcsOk := false, timer := false }).shInput (35 + i) false
    let c := c.each (List.range 128) fun c p => c.updSc p fun x => { x with txn := none }
    let c := c.testsEnd
    let st : PwrState := if c.pwr.st == .entering || c.pwr.st == .exiting then .active else c.pwr.st
    let c := { c with pwr := { c.pwr with
      st := st
      step := 0
      window := false
      who := none } }
    c.judgeFaultN

/-- LOCKSTEP_RESET_TIMEOUT (R193 step 3): the reset of both copies was not done. -/
def execLockstepResetTimeout (s : State) : Host.Outcome State Fault Refusal :=
  s.live fun c =>
    if c.sch.recovering && decide (c.sch.step < 4) then
      (c.report 0x0A0 Kind.uncorrectable 0).enterSafe 4 0x0A0 Kind.uncorrectable
    else c

end Sys2Proof.Machine
end

