-- ==== Sys2Proof/Machine/LnyOps.lean ====
section
/-!
DEFINITION. The service port's command logic (R523, R525, R526): taking a command packet and its data, and answering.
-/
namespace Sys2Proof.Machine

def Chip.updLny (c : Chip) (g : Lny → Lny) : Chip := { c with lny := g c.lny }

/-- Bytes that a bulk endpoint's buffer holds: 512 at HS, 64 at FS (R521). -/
def Lny.mps (x : Lny) : Nat := if x.speed = 3 then 512 else 64

/-- A response packet (R525). -/
def lnyPacket (op st tag len : Nat) (o0 o1 : Word) : List Byte :=
  wordsBytes [mkWord [(op, 0), (st, 8), (tag, 16)], mkWord [(len, 0)], o0, o1]

/-- A response with its data is queued; without VBUS it is discarded (R529). INVALID_OPCODE and INVALID_PARAM are
counted. (DEDUCED, log 202) -/
def Lny.answer (x : Lny) (op st tag : Nat) (o0 o1 : Word) (data : List Byte) : Lny :=
  let x := { x with lastOp := op, badCmd := if st = 1 ∨ st = 2 then satAdd 255 x.badCmd 1 else x.badCmd }
  if !x.vbus then x
  else { x with
    in2 := if data.isEmpty then x.in2 else x.in2 ++ [data]
    in1 := x.in1 ++ [lnyPacket op st tag data.length o0 o1] }

/-- R526: the LENGTH that a command must carry is wrong. (DEDUCED, log 204) -/
def lnyLenBad (op len : Nat) (arg0 : Word) : Bool :=
  if op = 0x0A then calLen arg0.toNat != some len
  else if op = 0x0B then len == 0 || decide (4194304 < len)
  else len != 0

/-- R525, R526: a command packet is taken: begun, or refused at once, its OUT data then discarded. -/
def Lny.takePacket (x : Lny) (p : List Byte) : Lny :=
  let w := bytesWords p 4
  let op := bits (dw w 0) 7 0
  let tag := bits (dw w 0) 31 16
  let len := bits (dw w 1) 25 0
  if p.length ≠ 16 then x.answer op Ad.invalidParam tag 0#32 0#32 []
  else if bits (dw w 0) 15 8 ≠ 0 ∨ bits (dw w 1) 31 26 ≠ 0 then
    { x.answer op Ad.invalidParam tag 0#32 0#32 [] with discard := x.discard + len }
  else if op = 0 ∨ 0x0C < op then { x.answer op Ad.invalidOpcode tag 0#32 0#32 [] with discard := x.discard + len }
  else if lnyLenBad op len (dw w 2) then { x.answer op Ad.invalidParam tag 0#32 0#32 [] with discard := x.discard + len }
  else { x with cmd := some { opcode := op, tag := tag, len := len, arg0 := dw w 2, arg1 := dw w 3 } }

/-- The command logic takes bytes of EP2 OUT: those to be discarded first, then what the command still wants. -/
def Lny.gather (x : Lny) : Lny :=
  x.out2.foldl (fun (x : Lny) p =>
    let k := min x.discard p.length
    let rest := p.drop k
    let x := { x with discard := x.discard - k, out2 := x.out2.drop 1 }
    match x.cmd with
    | some m =>
      if m.data.length < m.len then { x with cmd := some { m with data := (m.data ++ rest).take m.len } }
      else if rest.isEmpty then x else { x with out2 := x.out2 ++ [rest] }
    | none => if rest.isEmpty then x else { x with out2 := x.out2 ++ [rest] }) x

/-- The command logic goes on: a waiting packet is taken while no command is carried out, and the data is gathered. -/
def Lny.go : Nat → Lny → Lny
  | 0, x => x.gather
  | k + 1, x =>
    match x.cmd, x.out1 with
    | none, p :: r => Lny.go k ({ x with out1 := r }.takePacket p)
    | _, _ => x.gather

def Chip.lnyGo (c : Chip) : Chip := c.updLny (Lny.go 4)

/-- R525: the command that is carried out ends with a status: its response is queued, and the next packet is taken. -/
def Chip.lnyDone (c : Chip) (st : Nat) (o0 o1 : Word := 0#32) (data : List Byte := []) : Chip :=
  match c.lny.cmd with
  | none => c
  | some m => (c.updLny fun x => { x.answer m.opcode st m.tag o0 o1 data with cmd := none }).lnyGo

/-- The command of opcode `op` that is being carried out, its data complete, and not begun yet. -/
def Chip.lnyReady (c : Chip) (op : Nat) : Option LnyCmd :=
  match c.lny.cmd with
  | some m => if m.opcode = op ∧ ¬ m.begun ∧ m.len ≤ m.data.length then some m else none
  | none => none

/-- The command of opcode `op` waits for its end. -/
def Chip.lnyWaits (c : Chip) (op : Nat) : Bool := c.lny.cmd.any fun m => m.begun && m.opcode == op

/-- The command has begun and waits for its end. -/
def Chip.lnyBegun (c : Chip) : Chip := c.updLny fun x => { x with cmd := x.cmd.map fun m => { m with begun := true } }

/-- R524, R501, R464: the fabric island runs as far as the service port needs it. -/
def Chip.lnyFabric (c : Chip) : Bool := c.fabricRuns && !c.tst.fabricBad

/-- R524: the pull-up is connected. -/
def Chip.lnyConnected (c : Chip) : Bool := c.lny.vbus && c.lny.en && c.lnyFabric

/-- The port is disconnected from the bus: its address, configuration and buffers go. A command that runs goes on (R529). -/
def Lny.unplug (x : Lny) : Lny :=
  { x with
    configured := false, speed := 0, suspended := false, address := 0, halted := [], testMode := 0
    out1 := [], out2 := [], out4 := [], in1 := [], in2 := [], in4 := [], tog := [], stream := [], discard := 0 }

/-- R524: judge the pull-up after a change: a port that is no longer connected is disconnected. -/
def Chip.lnyJudge (c : Chip) : Chip := if c.lnyConnected then c else c.updLny Lny.unplug

end Sys2Proof.Machine
end

