-- ==== Sys2Proof/Machine/PowerOps.lean ====
section
/-!
DEFINITION. Cleat's entries (chapter 14): what POWER_STATE checks and starts (R443 to R449, R569), the steps of an entry
and of a cluster sleep, judged at each happening that can end a wait of theirs, the abort (R450), and the wakes (R454).
-/
namespace Sys2Proof.Machine

def Chip.updPwr (c : Chip) (g : Pwr → Pwr) : Chip := { c with pwr := g c.pwr }

/-- The codes of POWER_STATE (R447). -/
def PwrState.ofCode : Nat → PwrState
  | 1 => .doze
  | 2 => .nap
  | _ => .deep

/-! ### The answer to a power command (R449, R526, R532) -/

/-- A bitmap dword of ports. -/
def portMap (l : List Nat) (k : Nat) : Word := mapWord l k

/-- The command that `who` gave ends. OUT0 to OUT6 are those of R449; the service port gets OUT0 and OUT6, the Tether the
status. -/
def Chip.powerAnswer (c : Chip) (who : PwrWho) (status cancelled : Nat) (ports held : List Nat) (reason : Nat) : Chip :=
  match who with
  | .admin =>
    if (c.adminWaits 0 0x0E).isSome then
      c.adminDone 0 status 0#32 ([BitVec.ofNat 32 cancelled] ++ (List.range 4).map (portMap ports) ++ [mapWord held 0, BitVec.ofNat 32 reason])
    else c
  | .tether => if c.tth.lastCmd = 0x10 ∧ c.tth.lastStat = 0xFF then { c with tth := { c.tth with lastStat := status } } else c
  | .lanyard => if c.lnyWaits 0x05 then c.lnyDone status (BitVec.ofNat 32 cancelled) (BitVec.ofNat 32 reason) else c

/-- The device entry's command ends, if it has not. -/
def Chip.powerDone (c : Chip) (status reason : Nat) : Chip :=
  match c.pwr.who with
  | none => c
  | some w => (c.updPwr fun x => { x with who := none }).powerAnswer w status c.pwr.cancelled c.pwr.auto c.pwr.notHeld reason

/-! ### What is in progress (R448, R568, R570, R571) -/

/-- A descriptor or a service's transfer is in progress on endpoint context `h`; a suspended job's is not. -/
def Chip.epBusy (c : Chip) (e : Ep) : Bool :=
  (match e.wq with
   | some (f, n) => (match c.wq f n with | some q => q.work.any fun x => x.started && x.result.isNone | none => false)
   | none => false) ||
  (match e.svc with | s :: _ => s.x.started && !c.jobHeld s | [] => false)

/-- Something is in progress on the ports that satisfy `pr`. -/
def Chip.busyOn (c : Chip) (pr : Nat → Bool) : Bool :=
  c.eps.any fun e => (match c.epPort e.1 with | some p => pr p | none => false) && c.epBusy e.2

/-- A service's transfer that belongs to a STREAM_JOB. -/
def SvcXfer.isJob (s : SvcXfer) : Bool := match s.who with | .inst _ tag => tag % 64 == Strm.jobTag | _ => false

/-- R448, R568: the 1 ms has passed: what is in progress on the ports ends with POWER_CANCELLED, after the transaction on
the wire. Polls are dropped later without a message (R566), and jobs end at their safe points (R570). -/
def Chip.cancelOn (c : Chip) (pr : Nat → Bool) : Chip :=
  c.each ((List.range 128).filter pr) fun c p => c.each (c.epsOf p) fun c h =>
    let c := match (c.ep h).bind Ep.wq with
      | some (f, n) => c.endWq f n St.powerCancelled true
      | none => c
    match c.ep h with
    | some e => match e.svc with
      | s :: _ =>
        if !s.x.started || s.isPoll || s.isJob || c.jobHeld s then c
        else if c.onWire h then c.updChan h fun x => { x with cause := some St.powerCancelled }
        else c.svcEnd h St.powerCancelled
      | [] => c
    | none => c

/-- A long operation that sends to a device on one of the ports. -/
def Chip.opOn (c : Chip) (pr : Nat → Bool) (o : Op) : Bool :=
  (o.kind == .streamJob || o.kind == .download) && (match c.opPort o with | some p => pr p | none => false)

/-- R570, R571: the RUNNING jobs and downloads on the ports are asked to suspend; one at a safe point does so at once. -/
def Chip.suspendJobs (c : Chip) (pr : Nat → Bool) : Chip :=
  c.each (c.ops.recs.filter fun o => c.opOn pr o && o.st == .running) fun c o =>
    let c := c.updOp o.opid fun o => { o with byPower := !o.suspReq, suspReq := true }
    if if o.kind = .download then o.busy else c.opOnWire o then c else c.safePoint o.opid

/-- An entry is undone: the jobs it asked to suspend go on, those suspended once their port is ENABLED. -/
def Chip.unsuspendJobs (c : Chip) (pr : Nat → Bool) : Chip :=
  c.each (c.ops.recs.filter fun o => c.opOn pr o && o.byPower) fun c o =>
    if o.st = .running then c.updOp o.opid fun o => { o with byPower := false, suspReq := !o.suspWait.isEmpty }
    else match c.opPort o with
      | some p => if (c.port p).st = .enabled ∧ ¬ (c.port p).tokHold then c.resumeOp o.opid else c
      | none => c

/-- R447 step 3: the ports in ENABLED or L1 are suspended and recorded. (DEDUCED, log 155) -/
def Chip.suspendPorts (c : Chip) (pr : Nat → Bool) : Chip :=
  c.each ((List.range 128).filter fun p => pr p && !c.outOfService p) fun c p =>
    let go : Bool := match (c.port p).st with
      | .enabled => (c.port p).waiting.isNone
      | .l1 | .l1Resuming => !(c.port p).thenSuspend
      | _ => false
    if !go then c
    else
      let c := c.updPwr fun x => { x with auto := (List.range 128).filter fun q => q == p || x.auto.contains q }
      if (c.port p).st = .enabled then c.portAsk p .suspend else c.updPort p fun x => { x with thenSuspend := true }

/-- The ports still to reach SUSPENDED in step 3. -/
def Chip.stillAwake (c : Chip) (pr : Nat → Bool) : Bool :=
  (List.range 128).any fun p => pr p && (match (c.port p).st with | .enabled | .l1 | .l1Resuming => true | _ => false)

/-! ### Wakes (R454) -/

/-- R454: the table: the wake sources, by their bits of PWR_WAKESRC, that have an effect in a state. -/
def wakeIn (st : PwrState) : List Nat :=
  match st with
  | .doze => [0, 1, 3, 6, 7, 8]
  | .nap => [0, 1, 2, 3, 4, 5]
  | .deep => [0, 1, 2, 3, 4]
  | _ => []

/-- The shared sources that can wake: GPIO0 to GPIO15 and the service port's VBUS. -/
def isWakeSrc (s : Nat) : Bool := (16 ≤ s && s < 32) || s == 38

/-- A shared source with WAKE and ENABLE whose level sense is asserted. -/
def Chip.sharedLevel (c : Chip) : Bool :=
  (List.range 64).any fun s => isWakeSrc s && (c.sh s).wake && (c.sh s).src.enable && (c.sh s).sense.isLevel &&
    (c.sh s).sense.asserted (c.sh s).src.input

/-- The level wakes now asserted that have an effect in the state entered or in force. (DEDUCED, log 160) -/
def Chip.levelWakes (c : Chip) (st : PwrState) : List Nat :=
  (wakeIn st).filter fun b => c.pwr.levels.contains b || (b == 2 && c.sharedLevel)

/-- Keep a level wake. -/
def Pwr.keep (x : Pwr) (b : Nat) : Pwr := { x with levels := if x.levels.contains b then x.levels else x.levels ++ [b] }

/-! ### The abort (R450) -/

/-- The clusters that run: awake and with power. -/
def Chip.awakeClus (c : Chip) : List Nat :=
  (List.range 16).filter fun k => !(c.clu k).asleep && !(c.tstClu k).cluFail && (c.clu k).slStep == 0

/-- The clusters send RUN frames again, with the EN and ILIM that were held (R240). -/
def Chip.runFrames (c : Chip) (ks : List Nat) : Chip :=
  c.each ks fun c k => c.updClu k fun x => { x with holding := false, stopped := false, held := false }

/-- An entry is aborted (1 WAKE, 2 HOLD) or abandoned (3 DEEPWAIT). -/
def Chip.abortEntry (c : Chip) (reason : Nat) : Chip :=
  let told := c.pwr.who
  let held := c.pwr.notHeld
  let c := c.updPwr fun x => { x with
    st := .active
    step := 0
    target := .active
    lastRes := reason + 1
    aborts := satAdd 0xFFFF x.aborts 1
    window := false
    hostGated := false
    hostOn := false
    sigLostG := []
    sigLostI := []
    levels := x.levels.filter fun b => b == 3
    who := none }
  let c := c.runFrames c.awakeClus
  let c := match told with
    | some w => c.powerAnswer w Ad.badState c.pwr.cancelled c.pwr.auto held reason
    | none => c
  let c := c.autoResume
  let c := (c.unsuspendJobs fun _ => true).enumResume
  if reason = 3 then (c.report 0x120 Kind.timeout 0).raise 0 21 else c

/-! ### The steps of a device entry (R447) -/

/-- R573: step 4 of a NAP or DEEP entry: what falls due is sent, each association is closed towards its peer, and it
becomes DORMANT. -/
def Chip.netRest (c : Chip) : Chip :=
  c.each (c.assocsWhere Assoc.live) fun c k =>
    let c := c.each (List.range (c.assoc k).queue.length) fun c _ => c.dataSend k
    (c.sendFrame k .close (c.assoc k).txSeq []).assocDormant k true

/-- The target powers islands down: NAP or DEEP. -/
def Pwr.gates (x : Pwr) : Bool := x.target == .nap || x.target == .deep

/-- R447: the waits of an entry that are over: the steps go on until one has to wait. A level wake that is asserted before
the closing window aborts it. -/
def Chip.entryRun : Nat → Chip → Chip
  | 0, c => c
  | n + 1, c =>
    if c.pwr.st ≠ .entering ∨ c.pwr.step = 9 then c
    else if !(c.levelWakes c.pwr.target).isEmpty then c.abortEntry 1
    else
      let go := fun (c : Chip) (s : Nat) => Chip.entryRun n (c.updPwr fun x => { x with step := s })
      match c.pwr.step with
      | 2 => if c.busyOn fun _ => true then c else go c 3
      | 3 =>
        let c := c.suspendPorts fun p => !(c.clu (p / 8)).asleep
        if c.stillAwake fun p => !(c.clu (p / 8)).asleep then c else go c 4
      | 4 => if c.pwr.gates then go (c.netRest.each c.awakeClus fun c k => c.updClu k fun x => { x with holding := true, held := false }) 5
        else go c 6
      | 5 =>
        let c := c.each c.awakeClus fun c k => c.updClu k fun x => { x with stopped := x.stopped || x.held }
        if c.awakeClus.all fun k => (c.clu k).stopped then go c 6 else c
      | 6 =>
        let byTether := c.pwr.who == some .tether
        let c := c.powerDone Ad.success 0
        if !c.pwr.gates then go c 8
        else if c.pwr.target = .nap ∧ byTether ∧ c.pci.link = .down then go (c.updPwr fun x => { x with hostGated := true }) 8
        else go c 7
      | 7 =>
        if c.pwr.target = .nap then
          (if c.pci.link = .l12 then go (c.updPwr fun x => { x with hostGated := true }) 8 else c)
        else if c.pci.link = .l23 ∨ c.pci.perst then go c 8
        else c
      | _ => c

/-- (DEDUCED, log 148) -/
def Chip.entryJudge (c : Chip) : Chip := c.entryRun 10

/-- R447: an entry is accepted. -/
def Chip.enterState (c : Chip) (who : PwrWho) (target : PwrState) : Chip :=
  let c := c.updPwr fun x => { x with
    st := .entering
    step := 2
    target := target
    who := some who
    cancelled := 0
    notHeld := []
    woken := []
    window := false
    sigLostG := []
    sigLostI := []
    auto := x.auto.filter fun p => (c.clu (p / 8)).asleep
    levels := x.levels.filter fun b => b == 3 }
  (c.suspendJobs fun _ => true).entryJudge

/-! ### Cluster sleep and wake (R467) -/

/-- The ports of cluster `k`. -/
def inClu (k p : Nat) : Bool := p / 8 == k

/-- The ports of cluster `k` that an entry has recorded. -/
def Chip.cluAuto (c : Chip) (k : Nat) : List Nat := c.pwr.auto.filter (inClu k)

/-- The command for cluster `k` ends, if it has not. -/
def Chip.cluDone (c : Chip) (k status reason : Nat) (held : List Nat := []) : Chip :=
  match (c.clu k).slWho with
  | none => c
  | some w => (c.updClu k fun x => { x with slWho := none }).powerAnswer w status (c.clu k).slCancelled (c.cluAuto k) held reason

/-- A cluster sleep is undone: HOLD was not confirmed, or an armed event of its ports came. (DEDUCED, log 162) -/
def Chip.cluAbort (c : Chip) (k reason : Nat) : Chip :=
  let c := (c.updClu k fun x => { x with slStep := 0 }).runFrames [k]
  let c := c.cluDone k Ad.badState reason (if reason = 2 then [k] else [])
  c.autoResume.unsuspendJobs (inClu k)

/-- The steps of a cluster sleep whose waits are over. -/
def Chip.cluRun : Nat → Chip → Nat → Chip
  | 0, c, _ => c
  | n + 1, c, k =>
    let go := fun (c : Chip) (s : Nat) => Chip.cluRun n (c.updClu k fun x => { x with slStep := s }) k
    match (c.clu k).slStep with
    | 1 => if c.busyOn (inClu k) then c else go c 2
    | 2 =>
      let c := c.suspendPorts (inClu k)
      if c.stillAwake (inClu k) then c else go (c.updClu k fun x => { x with holding := true, held := false }) 3
    | 3 => if (c.clu k).held then go ((c.updClu k fun x => { x with stopped := true }).cluDone k Ad.success 0) 4 else c
    | _ => c

def Chip.cluJudge (c : Chip) (k : Nat) : Chip := Chip.cluRun 6 c k

/-- Judge the entry and the cluster sleeps that run. -/
def Chip.sleepJudge (c : Chip) : Chip := c.entryJudge.each (List.range 16) fun c k => c.cluJudge k

/-- R467: the cluster starts to wake: its PLL is started. (DEDUCED, log 164) -/
def Chip.cluWake (c : Chip) (k : Nat) : Chip :=
  (c.updClu k fun x => { x with slStep := 6 }).updPwr fun x => { x with pllAgain := x.pllAgain.filter (· ≠ k) }

/-- R467: a cluster sleep is accepted. -/
def Chip.cluSleep (c : Chip) (who : PwrWho) (k : Nat) : Chip :=
  let c := c.updClu k fun x => { x with slStep := 1, slWho := some who, slCancelled := 0, slWake := false }
  (c.suspendJobs (inClu k)).cluJudge k

/-! ### POWER_STATE (R447, R467, R569) -/

/-- R569: an in-service test or a measurement that is RUNNING or SUSPENDED, on what `pr` says. -/
def Chip.testing (c : Chip) (pr : Op → Bool) : Bool :=
  c.ops.recs.any fun o => (testKind o.kind != 0 || o.kind == .calMeasure) && (o.st == .running || o.st == .suspended) && pr o

/-- The cluster that an ENGINE or MONITOR test or a measurement works on. -/
def Op.cluster (o : Op) : Option Nat :=
  match o.kind with
  | .engine => some (if testTarget o < 128 then testTarget o / 8 else testTarget o % 16)
  | .monitor => some (testTarget o)
  | .calMeasure => some (bits (dw o.cmd 5) 3 0)
  | _ => none

/-- The command completes BAD_STATE at acceptance and changes nothing. (DEDUCED, log 161) -/
def Chip.powerRefused (c : Chip) (state k : Nat) : Bool :=
  c.pwr.st != .active || c.tst.safe ||
  (if state ≤ 3 then
    (c.testing fun _ => true) || (c.ops.recs.any fun o => o.kind == .reshape && rsKind o.cmd == 0 && o.st == .running) ||
      (List.range 16).any fun j => (c.clu j).slStep != 0
   else if state = 4 then
    (c.clu k).asleep || (c.clu k).slStep != 0 || (c.tstClu k).cluFail || (c.testing fun o => o.cluster == some k) ||
      (List.range 128).any fun p => inClu k p && (c.own p).moving
   else (c.clu k).slStep != 0 && decide ((c.clu k).slStep < 6))

/-- Start a power command that is not refused. -/
def Chip.powerStart (c : Chip) (who : PwrWho) (state k : Nat) : Chip :=
  if state ≤ 3 then c.enterState who (PwrState.ofCode state)
  else if state = 4 then c.cluSleep who k
  else if !(c.clu k).asleep && (c.clu k).slStep = 0 then c.powerAnswer who Ad.success 0 [] [] 0
  else
    let c := c.updClu k fun x => { x with slWho := some who, slCancelled := 0 }
    if (c.clu k).slStep = 0 then c.cluWake k else c

/-- POWER_STATE (R447). -/
def execPowerState (s : State) : Host.Outcome State Fault Refusal :=
  s.live fun c => c.admin 0 0x0E
    (fun d =>
      let st := bits (dw d 5) 2 0
      [badParam (st == 0 || 5 < st) 0x14 0, badState (c.powerRefused st (bits (dw d 5) 11 8))])
    (fun d c => (c.adminBegun 0).powerStart .admin (bits (dw d 5) 2 0) (bits (dw d 5) 11 8))

end Sys2Proof.Machine
end

