-- ==== Sys2Proof/Machine/Power.lean ====
section
/-!
DEFINITION. Cleat's commands up to the sleep state (chapter 14): the ends of the entry's waits, the closing window, the
gating, and the wakes. The exit stands in Machine/PowerExit.lean.
-/
namespace Sys2Proof.Machine

/-! ### The start of an exit (R457, R458, R459) -/

/-- Set bits of PWR_WAKESRC. -/
def Pwr.woke (x : Pwr) (bs : List Nat) : Pwr := { x with wakeSrc := bs.foldl (fun a b => a ||| 2 ^ b) x.wakeSrc }

/-- The clusters whose PLL the exit starts: those not asleep on their own. -/
def Chip.exitClus (c : Chip) : List Nat := (List.range 16).filter fun k => !(c.clu k).asleep && !(c.tstClu k).cluFail

/-- R459 step 3: the PLLs are started. -/
def Chip.pllStart (c : Chip) : Chip :=
  c.updPwr fun x => { x with step := 3, pllTries := 0, corePll := false, pllAgain := [], pllWait := c.exitClus }

/-- R459 step 1: the first regulator is awaited. -/
def Pwr.regStart (x : Pwr) : Pwr := { x with step := 1, reg := 0, regWait := false, pgLow := [] }

/-- R458, R459: the wakes `bs` are decided in NAP or DEEP. `port`: the lowest port whose event is among them. -/
def Chip.startExit (c : Chip) (bs : List Nat) (port : Option Nat) : Chip :=
  let deep := c.pwr.st == .deep
  let alone := deep && !bs.contains 4
  let due := alone && c.pwr.wakeOut && (c.pci.perst || c.pci.link == .l23)
  let c := { c with pci := { c.pci with holdLink := c.pci.holdLink || (alone && c.pci.link != LinkSt.l0) } }
  let c := c.updPwr fun x => { x.woke bs with
    st := .exiting
    regTries := 0
    retries := 0
    dramTries := 0
    dramLost := false
    wakeDue := due
    wakePort := port }
  if deep then c.updPwr Pwr.regStart else c.pllStart

/-! ### Wakes (R450, R453, R454, R458) -/

/-- The wake `b` of PWR_WAKESRC is decided; of edge type or of level type; by a root port, with K or not. (DEDUCED,
log 149) -/
def Chip.wakeOn (c : Chip) (b : Nat) (edge : Bool) (port : Option Nat := none) (k : Bool := false) : Chip :=
  let note := fun (c : Chip) => match port with
    | some p => if k then c.updPwr fun x => { x with woken := x.woken ++ [p] } else c
    | none => c
  match c.pwr.st with
  | .entering =>
    if !(wakeIn c.pwr.target).contains b then c
    else if !c.pwr.window then c.abortEntry 1
    else if edge then c
    else (note c).updPwr fun x => { x.keep b with
      wakePort := match port with
        | some p => if x.levels.contains 1 then x.wakePort.map fun q => min p q else some p
        | none => x.wakePort }
  | .doze =>
    if !(wakeIn .doze).contains b then c
    else
      let c := (note c).dozeExit [b]
      c.updPwr fun x => { x with wakePort := port }
  | .nap => if (wakeIn .nap).contains b then (note c).startExit [b] port else c
  | .deep => if (wakeIn .deep).contains b then (note c).startExit [b] port else c
  | .exiting => if (wakeIn .nap).contains b then (note c).updPwr fun x => x.woke [b] else c
  | _ => c

/-- PORT_WAKE_EVENT (R454, R455, R467, R468): connect, disconnect or K (`k`) on an armed port. -/
def execPortWakeEvent (p : Fin 128) (k : Bool) (s : State) : Host.Outcome State Fault Refusal :=
  s.live fun c =>
    if !c.pwr.armed.contains p then c
    else
      let c := c.wakeOn 1 false (some p) k
      let j := p.val / 8
      let x := c.clu j
      let sleeper := x.asleep || x.slStep == 4
      let c := if sleeper && k && !c.pwr.woken.contains p then c.updPwr fun y => { y with woken := y.woken ++ [p.val] } else c
      if decide (1 ≤ x.slStep) && decide (x.slStep ≤ 3) then c.cluAbort j 1
      else if x.slStep = 4 then c.updClu j fun y => { y with slWake := true }
      else if !x.asleep || x.slStep != 0 then c
      else if c.pwr.st = .active then c.cluWake j
      else c.updClu j fun y => { y with slWake := true }

/-- WAKE_TIMER_ZERO (R456): the timer stays at 0, a level wake until it is written. -/
def execWakeTimerZero (s : State) : Host.Outcome State Fault Refusal :=
  s.live fun c =>
    if c.pwr.wakeTmr = 0#32 then c
    else (c.updPwr fun x => { (x.keep 3).woke [3] with wakeTmr := 0#32 }).wakeOn 3 false

/-- PWR_WAKETMR_WRITE (R456). -/
def execPwrWaketmrWrite (w : Word) (s : State) : Host.Outcome State Fault Refusal :=
  s.live fun c => c.updPwr fun x => { x with wakeTmr := w, levels := x.levels.filter (· ≠ 3) }

/-- PWR_EXIT_WRITE (R454, R460). -/
def execPwrExitWrite (s : State) : Host.Outcome State Fault Refusal :=
  s.live fun c => c.dozeWake 7

/-- The input of a shared source that can wake takes a value: GPIO0 to GPIO15, and VBUS (R373, R376, R453, R454). In the
closing window a change under an edge sense is lost. -/
def Chip.wakeInput (c : Chip) (n : Nat) (level : Bool) : Chip :=
  let x := c.sh n
  let arms := isWakeSrc n && x.wake && x.src.enable
  let hit := if x.sense.isLevel then x.sense.asserted level else x.sense.arrives x.src.input level
  let c :=
    if !c.fabricClocked then c.latch n level
    else if arms && c.pwr.window && !x.sense.isLevel then c.updSh n fun y => { y with src := { y.src with input := level } }
    else c.shInput n level
  if arms && hit then
    if c.pwr.st == .entering && x.sense.isLevel then c.entryJudge else c.wakeOn 2 (!x.sense.isLevel)
  else c

/-- GPIO_INPUT_CHANGE (R376): GPIO `n`'s filtered value changes, while the fabric island is clocked. -/
def execGpioInputChange (n : Fin 16) (level : Bool) (s : State) : Host.Outcome State Fault Refusal :=
  s.live fun c => if c.fabricClocked then c.wakeInput (16 + n) level else c

/-- AON_LATCH_SET (R376): a watched source changes while the fabric island is off. -/
def execAonLatchSet (n : Fin 64) (level : Bool) (s : State) : Host.Outcome State Fault Refusal :=
  s.live fun c => if !c.fabricClocked && isLatched n then c.wakeInput n level else c

/-! ### PERST#, CLKREQ# and the link (R72, R451, R452, R457) -/

/-- PERST# is no conventional reset: from the acceptance of a NAP or DEEP entry until the exit is complete. -/
def Chip.perstHolds (c : Chip) : Bool :=
  match c.pwr.st with
  | .entering => c.pwr.gates
  | .nap | .deep | .exiting | .mgmtOnly => true
  | _ => false

/-- WAKE# is released. -/
def Chip.wakeRelease (c : Chip) : Chip :=
  let c := c.updPwr fun x => { x with wakeDue := false }
  if c.pwr.wakeN then (c.updPwr fun x => { x with wakeN := false }).emit (.wakeN false) else c

/-- PERST_ASSERT (R72, R452, R469): a conventional reset, or a hold of every function's DMA. -/
def execPerstAssert (s : State) : Host.Outcome State Fault Refusal :=
  s.live fun c =>
    if c.pwr.st = .wakeFail ∨ c.tst.linkHeld then c
    else if c.perstHolds then
      (({ c with pci := { c.pci with perst := true, holdPerst := true } }).updPwr fun x =>
        { x with levels := x.levels.filter (· ≠ 4) }).entryJudge
    else
      let c := c.conventional
      { c with pci := { c.pci with perst := true, link := .down } }

/-- PERST_DEASSERT (R452, R454, R457). -/
def execPerstDeassert (s : State) : Host.Outcome State Fault Refusal :=
  s.live fun c =>
    if !c.pci.perst then c
    else ((c.dmaChange fun c => { c with pci := { c.pci with perst := false, holdPerst := false } }).wakeRelease).wakeOn 4 false

/-- CLKREQ_ASSERT (R454): the host leaves L1.2. -/
def execClkreqAssert (s : State) : Host.Outcome State Fault Refusal :=
  s.live fun c => c.wakeOn 5 false

/-- PCIE_LINK_STATE_CHANGE (R75, R447 step 7, R451, R457, R498). -/
def execPcieLinkStateChange (l : LinkSt) (s : State) : Host.Outcome State Fault Refusal :=
  s.live fun c =>
    if c.tst.linkHeld || (!c.tst.postdone && decide (c.tst.stage ≤ 4)) then c
    else
      let c := c.dmaChange fun c => { c with pci := { c.pci with link := l, holdLink := c.pci.holdLink && l != LinkSt.l0 } }
      let c := if l = .l0 then c.wakeRelease else c
      let c := if c.pwr.st = .nap ∧ c.pwr.hostOn ∧ l = .l12 then c.updPwr fun x => { x with hostOn := false, hostGated := true } else c
      c.entryJudge

/-- WAKE_OUT_TIMEOUT (R457): 1 s after WAKE# was asserted. -/
def execWakeOutTimeout (s : State) : Host.Outcome State Fault Refusal :=
  s.run Chip.wakeRelease

/-! ### The waits of an entry (R447, R448, R467) -/

/-- ENTRY_DRAIN_TIMEOUT (R448, R467): 1 ms after the acceptance of the device's entry, or of a cluster's sleep. What has
ended by now counts as ended (R34, R578). -/
def execEntryDrainTimeout (k : Option (Fin 16)) (s : State) : Host.Outcome State Fault Refusal :=
  s.live fun c =>
    let c := c.sleepJudge
    let due : Bool := match k with
      | none => c.pwr.st == .entering && c.pwr.step == 2
      | some k => (c.clu k).slStep == 1
    let pr : Nat → Bool := match k with
      | none => fun _ => true
      | some k => inClu k
    if !due then c
    else
      let c := c.cancelOn pr
      match k with
      | none => (c.updPwr fun x => { x with step := 3 }).entryJudge
      | some k => (c.updClu k fun x => { x with slStep := 2 }).cluJudge k

/-- HOLD_TIMEOUT (R240, R447 step 5, R450, R467): 100 µs of HOLD frames without a return frame that confirms. -/
def execHoldTimeout (k : Fin 16) (s : State) : Host.Outcome State Fault Refusal :=
  s.live fun c =>
    let c := c.sleepJudge
    if (c.clu k).stopped then c
    else if (c.clu k).slStep = 3 then c.cluAbort k 2
    else if c.pwr.st = .entering ∧ c.pwr.step = 5 ∧ (c.clu k).holding then
      (c.updPwr fun x => { x with notHeld := c.awakeClus.filter fun j => !(c.clu j).stopped }).abortEntry 2
    else c

/-- PPL_RETURN_FRAME (R239): the 22 bits of slots 24 to 45, as received. -/
def execPplReturnFrame (k : Fin 16) (w : BitVec 22) (s : State) : Host.Outcome State Fault Refusal :=
  s.live fun c =>
    if !c.cluRuns k || (c.clu k).stopped then c
    else match pplReturn w with
      | some (rt, oc, health) => (c.pplValid k rt oc health).sleepJudge
      | none => c.pplInvalid k

/-- NAPWAIT_EXPIRY (R451): NAP is entered with the host island clock-gated. -/
def execNapwaitExpiry (s : State) : Host.Outcome State Fault Refusal :=
  s.live fun c =>
    let c := c.entryJudge
    if c.pwr.st = .entering ∧ c.pwr.step = 7 ∧ c.pwr.target = .nap then c.updPwr fun x => { x with hostOn := true, step := 8 } else c

/-- DEEPWAIT_EXPIRY (R447 step 7, R450). -/
def execDeepwaitExpiry (s : State) : Host.Outcome State Fault Refusal :=
  s.live fun c =>
    let c := c.entryJudge
    if c.pwr.st = .entering ∧ c.pwr.step = 7 ∧ c.pwr.target = .deep then c.abortEntry 3 else c

/-- The number of an island in the lists of Cleat. -/
def islNum (cls k : Nat) : Nat := 256 * cls + k

/-- SIGNATURE_TIMEOUT (R447 step 8): a signature is not done within 200 µs; the group or island is treated as lost at
exit. (DEDUCED, log 152) -/
def execSignatureTimeout (g : SigOf) (s : State) : Host.Outcome State Fault Refusal :=
  s.live fun c =>
    let entry := c.pwr.st == .entering && c.pwr.step == 8 && c.pwr.gates
    match g with
    | .group n =>
      if entry && n.val != 0 then
        (c.updPwr fun x => { x with sigLostG := x.sigLostG ++ [n.val] }).aonReport 0x130 Kind.readyTimeout (0x0E0 + n)
      else c
    | .island cls n =>
      let own := match cls.val with
        | 0 => if n.val < 128 then n.val / 8 else n.val - 128
        | _ => n.val % 16
      if entry || (cls.val < 2 && (c.clu own).slStep == 4) then
        (c.updPwr fun x => { x with sigLostI := x.sigLostI ++ [islNum cls n] }).aonReport 0x130 Kind.readyTimeout cls
      else c

/-- SIGNATURES_DONE (R447 step 8, R453, R467): the DRAM is in self-refresh and the signatures are computed: the
closing window starts. For a cluster, its islands and its PLL are gated. A calibration write that runs in the
always-on island is waited for. (DEDUCED, log 151) -/
def execSignaturesDone (k : Option (Fin 16)) (s : State) : Host.Outcome State Fault Refusal :=
  s.live fun c =>
    match k with
    | none =>
      let c := c.entryJudge
      if c.pwr.st = .entering ∧ c.pwr.step = 8 ∧ ¬ (c.pwr.gates ∧ c.cal.busy.isSome) then
        c.updPwr fun x => { x with step := 9, window := true }
      else c
    | some k =>
      if (c.clu k).slStep = 4 then
        let again := (c.clu k).slWake
        let c := c.updClu k fun x => { x with asleep := true, slStep := 0, locked := false, slWake := false }
        let c := c.updPwr fun x => { x with clusleep := x.clusleep ||| 2 ^ k.val }
        if again then c.cluWake k else c
      else c

/-- R572: an association keeps the network island ungated in DOZE. -/
def Chip.netAwake (c : Chip) : Bool := (List.range 32).any fun a => !(c.assoc a).unacked.isEmpty || (c.assoc a).rxUnacked != 0

/-- CLOSING_WINDOW_END (R447 step 10, R453, R457, R573): the islands are gated, and STATE becomes the target state. A level
wake still asserted then starts the exit. -/
def execClosingWindowEnd (s : State) : Host.Outcome State Fault Refusal :=
  s.live fun c =>
    if c.pwr.st ≠ .entering ∨ ¬ c.pwr.window then c
    else
      let t := c.pwr.target
      let bs := c.levelWakes t
      let c := c.updPwr fun x => { x with
        st := t
        step := 0
        target := .active
        lastRes := 1
        entries := satAdd 0xFFFF x.entries 1
        window := false
        ungated := []
        reg3Off := t == .deep && x.armed.isEmpty
        levels := x.levels.filter fun b => b == 3 }
      let c : Chip :=
        if t = .doze then { c with net := { c.net with gated := !c.netAwake } }
        else (c.each [0, 1] fun c i => c.updEth i fun p => { p with link := false, pcsOk := false, timer := false }).lnyJudge
      if bs.isEmpty then c
      else if t = .doze then
        let port := if bs.contains 1 then c.pwr.wakePort else none
        (c.dozeExit bs).updPwr fun x => { x with wakePort := port }
      else c.startExit bs (if bs.contains 1 then c.pwr.wakePort else none)

/-- DOZE_ISLAND_IDLE (R460, R572): an island ungated in DOZE for an access is gated again. -/
def execDozeIslandIdle (cls : Fin 9) (s : State) : Host.Outcome State Fault Refusal :=
  s.live fun c =>
    if c.pwr.st ≠ .doze then c
    else if cls.val = 8 then { c with net := { c.net with gated := !c.netAwake } }
    else c.updPwr fun x => { x with ungated := x.ungated.filter (· ≠ cls.val) }

end Sys2Proof.Machine
end

