-- ==== Sys2Proof/Machine/PowerExit.lean ====
section
/-!
DEFINITION. The exit from NAP and DEEP, the wake of a cluster, and their failure branches (R459 to R467).
-/
namespace Sys2Proof.Machine

/-! ### What is lost (R395, R461, R465) -/

/-- R73, R406: every homed function is unhomed without a CLOSE frame, and reset. (DEDUCED, log 147) -/
def Chip.netLost (c : Chip) : Chip :=
  let c := c.each ((List.range 128).filter c.homed) fun c f =>
    let c := match (c.fn f).home with
      | some h => c.updAssoc h.assoc fun a => { a with st := .closed }
      | none => c
    (c.unhome f).fnReset f
  let c := { c with net := { c.net with assocs := [] } }
  c.each [0, 1] fun c i => c.updEth i fun p => { p with txSa := [], rxSa := [], sadata := [], pnWarned := false, held := [] }

/-- R195, R461: every device on a port is detached, and the port's tree is enumerated again. -/
def Chip.reenum (c : Chip) (p : Nat) : Chip :=
  if (c.devsOf p).isEmpty then c else (c.detachTree p 6).happen p 0 (.enum p 7 0)

/-- R326: a flow of 128 or above becomes LOST. -/
def Chip.flowsLost (c : Chip) (pr : Flow → Bool) : Chip :=
  c.each ((c.dsp.flows.filter fun (e : Nat × Flow) => 128 ≤ e.1 && pr e.2).map Prod.fst) Chip.loseFlow

/-- R461: an SRAM bank group, 0x0E0 + `g`, is lost. -/
def Chip.groupLost (c : Chip) (g : Nat) : Chip :=
  match g with
  | 1 => c.each ((List.range 128).filter fun f => c.fnExists f &&
      ((c.fn f).aq.enable || !(c.wqNums f).isEmpty || !(c.cqNums f).isEmpty)) Chip.fnReset
  | 2 | 3 => c.each (List.range 128) Chip.reenum
  | 5 => { c with eps := c.eps.map fun (e : Nat × Ep) => (e.1, { e.2.withDefaults with cells := [], waiting := false, paceOn := false }),
                  grn := { c.grn with waiters := [] } }
  | 6 => c.flowsLost fun _ => true
  | 7 | 8 | 9 | 10 => c.flowsLost fun x => match x.ctxLane with
      | some l => l / 8 + 7 == g
      | none => false
  | 11 => c.each c.fnNums fun c f => (c.updFn f fun x => { x with msix := [] }).raise f 21
  | 12 => c.netLost
  | 13 =>
    let clear := fun (s : FltSrc) => { s with count := 0, win := false, react := false, tot := 0 }
    { c with flt := { c.flt with
      src := c.flt.src.foldl (fun (t : Tab FltSrc) (e : Nat × FltSrc) => Tab.set FltSrc.dflt t e.1 (clear e.2)) []
      dropped := 0 } }
  | 15 => c.imageReread
  | _ => c

/-- R461: the cluster island is lost: every device on its ports is detached with reason POWER, and the power of its ports is
enabled again in switch order (R245). -/
def Chip.cluLost (c : Chip) (k : Nat) : Chip :=
  c.each ((List.range 8).map fun i => 8 * k + i) fun c p =>
    let c := (c.offNow p 3).updPw p fun y => { y with want := false, en := false, awaiting := false, removing := false, retryDue := false }
    let x := c.port p
    if x.pw.pwrOff || x.st == .isolated || x.st == .test || c.outOfService p then c
    else c.updPw p fun y => { y with enableDue := some false }

/-- R395: the event controller's state is lost. -/
def Chip.evtLost (c : Chip) : Chip :=
  let c := c.each (List.range 128) fun c f => c.updEvt f fun _ => { rlost := true }
  let c := { c with evsh := {} }
  c.each (List.range 128) fun c f => c.raise f 21

/-- R461: the other blocks of the fabric island take their reset values; LOCK bits and calibration values are kept.
(DEDUCED, log 153) -/
def Chip.fabricLost (c : Chip) : Chip :=
  let c := { c with
    flt := { c.flt with
      src := c.flt.src.foldl (fun (t : Tab FltSrc) (e : Nat × FltSrc) => Tab.set FltSrc.dflt t e.1 { FltSrc.dflt e.1 with queue := e.2.queue }) []
      kindsev0 := ({} : Flt).kindsev0
      kindsev1 := 0#32
      cfgerr := false
      sel := 0 }
    grn := { c.grn with sramScrub := true, dramScrub := true, sramSec := 10, dramHrs := 4, cfgerr := false, sel := 0, ctlDir := false }
    lny := { c.lny with fsOnly := false, wren := true, en := true }
    cal := { c.cal with lastType := 0, lastStat := 0 } }
  c.raise 0 21

/-- R461: an island's registers are lost, by the bit of PWR_RETLOST1 and its index. A port engine lost alone is restored from
its cluster's checkpoint, the scheduler's contexts from Garnet. -/
def Chip.islandLost (c : Chip) (cls k : Nat) : Chip :=
  match cls with
  | 1 => c.cluLost k
  | 3 => c.flowsLost fun _ => true
  | 4 => c.evtLost
  | 5 => c.fabricLost
  | 7 => c.conventional
  | 8 => (c.each [0, 1] fun c i => c.updEth i fun p => { mac := p.mac }).netLost
  | _ => c

/-- R461: the retention results are applied: each loss is reported, its bit set, and its effect taken. (DEDUCED, log
165). (DEDUCED, log 165) -/
def Chip.applyLosses (c : Chip) (gs is : List Nat) : Chip :=
  let c := c.updPwr fun x => { x with
    retLost0 := gs.foldl (fun a g => a ||| 2 ^ g) x.retLost0
    retLost1 := is.foldl (fun a i => a ||| 2 ^ (i / 256)) x.retLost1 }
  let c := c.each gs fun c g => (c.report 0x130 Kind.retentionLost (0x0E0 + g)).groupLost g
  c.each is fun c i => (c.report 0x130 Kind.retentionLost (i / 256)).islandLost (i / 256) (i % 256)

/-- R465: the DRAM has been initialised afresh. -/
def Chip.dramGone (c : Chip) : Chip :=
  let c := c.each c.fnNums Chip.fnReset
  let c := c.netLost
  let c := c.each (c.insts.map Prod.fst) fun c h => (c.restartInst h 1).updInst h fun i => { i with msgs := [] }
  c.imageReread

/-! ### The end of the exit (R459 steps 6 to 8) -/

/-- A cluster's counter relocks at the next edge, its monitor restarts, each filter with its first median, and it sends RUN
frames (R240, R242, R446). -/
def Chip.cluUp (c : Chip) (k : Nat) : Chip :=
  let c := (c.updClu k fun x => { x with locked := false, samples := [], filtOn := false, overRun := 0 }).runFrames [k]
  c.each ((List.range 8).map fun i => 8 * k + i) fun c p => c.updPw p fun y => { y with samples := [], filtOn := false }

/-- R532: a Tether doorbell that has waited for the fabric island arrives. -/
def Chip.doorbellArrives (c : Chip) : Chip :=
  if c.tth.dbWaits then ({ c with tth := { c.tth with dbWaits := false } }).shPulse 37 else c

/-- The exit is complete. The times that the registers then show are free values. -/
def Chip.exitDone (c : Chip) : Chip :=
  let v := c.free
  let gs := c.pwr.sigLostG
  let is := c.pwr.sigLostI
  let fresh := c.pwr.dramLost
  let c := ({ c with free := v + 2 }).updPwr fun x => { x with
    st := .active
    step := 0
    hostOn := false
    hostGated := false
    reg3Off := false
    sigLostG := []
    sigLostI := []
    dramLost := false
    slept := Config.freeNat v % 2 ^ 32
    dur := Config.freeNat (v + 1) % 2 ^ 24
    levels := x.levels.filter fun b => b == 3 }
  let c := c.applyLosses gs is
  let c := if fresh then c.dramGone else c
  let c := c.releaseLatches
  let c := c.doorbellArrives
  let c := c.each c.awakeClus Chip.cluUp
  let c := (c.pollsDue fun _ => true).allHoldsEnd
  let c := c.autoResume.enumResume
  let c := c.each ((List.range 16).filter fun k => (c.clu k).slWake && (c.clu k).asleep) fun c k =>
    (c.updClu k fun x => { x with slWake := false }).cluWake k
  c.lnyJudge

/-- R464: the device wakes in the management-only condition. (DEDUCED, log 64) -/
def Chip.mgmtOnly (c : Chip) (step : Nat) : Chip :=
  let c := (c.updPwr fun x => { x with st := .mgmtOnly, step := 0, failStep := step }).aonReport 0x120 Kind.readyTimeout 0
  c.releaseLatches.doorbellArrives.judgeFaultN.lnyJudge

/-- R459: the order of the islands; the host island is left out while it is only clock-gated. -/
def Chip.exitIslands (c : Chip) : List Nat :=
  let ks := c.exitClus
  [islNum 5 0] ++ (if c.pwr.hostOn then [] else [islNum 7 0]) ++ [islNum 2 0, islNum 3 0] ++
  (if c.tst.netFail then [] else [islNum 8 0]) ++ ks.map (islNum 1) ++
  ((List.range 128).filter fun p => ks.contains (p / 8) && !c.outOfService p && !(c.port p).ownFailed).map (islNum 0) ++
  (ks.filter fun k => !(c.clu k).spareFailed).map fun k => islNum 0 (128 + k)

/-- The next step of the exit starts when the one before it is over. During self-test's stage 2 there is none after step 3
(R496). -/
def Chip.exitGo (c : Chip) : Chip :=
  if c.pwr.st ≠ .exiting then c
  else match c.pwr.step with
    | 3 =>
      if !c.tst.postdone then
        (if c.pwr.corePll then ({ c with tst := { c.tst with stage := 3 } }).updPwr fun x => { x with st := .active, step := 0, pllWait := [] } else c)
      else if c.pwr.corePll && c.pwr.pllWait.isEmpty then c.updPwr fun x => { x with step := 4, dramTries := 0 } else c
    | 5 => if c.pwr.islWait.isEmpty then c.exitDone else c
    | _ => c

/-! ### Cluster wake (R467) -/

/-- The islands of cluster `k` in a list of islands. -/
def isOfClu (k i : Nat) : Bool :=
  (i / 256 == 1 && i % 256 == k) || (i / 256 == 0 && (if i % 256 < 128 then i % 256 / 8 == k else i % 256 == 128 + k))

/-- The cluster fails to come up, and stays asleep. -/
def Chip.cluStays (c : Chip) (k : Nat) : Chip :=
  let c := c.updClu k fun x => { x with asleep := true, slStep := 0 }
  let c := c.updPwr fun x => { x with
    clusleep := x.clusleep ||| 2 ^ k
    pllWait := x.pllWait.filter (· ≠ k)
    islWait := x.islWait.filter fun i => !isOfClu k i }
  (c.report (cluSrc k) Kind.readyTimeout 0).cluDone k Ad.deviceError 0

/-- The cluster is up when all its islands are. -/
def Chip.cluRisen (c : Chip) (k : Nat) : Chip :=
  if (c.clu k).slStep ≠ 7 ∨ c.pwr.islWait.any (isOfClu k) then c
  else
    let mine := c.pwr.sigLostI.filter (isOfClu k)
    let c := c.updClu k fun x => { x with asleep := false, slStep := 0 }
    let c := c.updPwr fun x => { x with
      clusleep := x.clusleep - (if x.clusleep.testBit k then 2 ^ k else 0)
      sigLostI := x.sigLostI.filter fun i => !isOfClu k i }
    let c := (c.cluUp k).applyLosses [] mine
    let c := c.pollsDue fun q => match q.bind with
      | .ep h => (c.epPort h).any (inClu k)
      | _ => false
    (c.cluDone k Ad.success 0).autoResume

/-! ### Regulators (R459 step 1, R462, R463, R468) -/

/-- REGULATOR_POWER_GOOD: the next regulator is enabled, or step 2 starts. -/
def execRegulatorPowerGood (r : Fin 4) (s : State) : Host.Outcome State Fault Refusal :=
  s.live fun c =>
    let c := c.updPwr fun x => { x with pgLow := x.pgLow.filter (· ≠ r.val) }
    let x := c.pwr
    if x.st ≠ .exiting ∨ x.step ≠ 1 ∨ x.regWait ∨ x.reg ≠ r.val then c
    else if r.val < 2 ∨ (r.val = 2 ∧ x.reg3Off) then c.updPwr fun x => { x with reg := r.val + 1 }
    else
      let c := c.updPwr fun x => { x with step := 2 }
      if c.pwr.wakeDue then (c.updPwr fun x => { x with wakeDue := false, wakeN := true }).emit (.wakeN true) else c

/-- R462: a regulator's PG is missing: every REG_EN drops, and step 1 is made again 10 ms later, at most 3 times.
(DEDUCED, log 159) -/
def Chip.regFail (c : Chip) (r : Nat) : Chip :=
  let c := (c.aonReport 0x120 Kind.readyTimeout r).updPwr fun x => { x with regTries := x.regTries + 1, failStep := 1 }
  let c := { c with flt := { c.flt with aonDue := true } }
  if 4 ≤ c.pwr.regTries then (c.updPwr fun x => { x with st := .wakeFail, step := 0 }).judgeFaultN.lnyJudge
  else (c.updPwr fun x => { x with regWait := true, retries := satAdd 15 x.retries 1 }).judgeFaultN

/-- REGULATOR_TIMEOUT (R462): 5 ms from its own REG_EN. -/
def execRegulatorTimeout (r : Fin 4) (s : State) : Host.Outcome State Fault Refusal :=
  s.live fun c =>
    if c.pwr.st = .exiting ∧ c.pwr.step = 1 ∧ ¬ c.pwr.regWait ∧ c.pwr.reg = r.val then c.regFail r else c

/-- REGULATOR_RETRY (R462). -/
def execRegulatorRetry (s : State) : Host.Outcome State Fault Refusal :=
  s.live fun c => if c.pwr.st = .exiting ∧ c.pwr.step = 1 ∧ c.pwr.regWait then c.updPwr Pwr.regStart else c

/-- PG_FALL (R468): in ACTIVE and DOZE UNDERVOLT is reported; during step 1 of an exit it is a missing PG. -/
def execPgFall (r : Fin 4) (s : State) : Host.Outcome State Fault Refusal :=
  s.live fun c =>
    let c := c.updPwr fun x => { x with pgLow := x.pgLow.filter (· ≠ r.val) ++ [r.val] }
    if c.pwr.st = .active ∨ c.pwr.st = .doze then c.aonReport 0x120 Kind.undervolt r
    else if c.pwr.st = .exiting ∧ c.pwr.step = 1 ∧ ¬ c.pwr.regWait ∧ r.val < c.pwr.reg then c.regFail r
    else c

/-! ### Oscillator and PLLs (R459 steps 2 and 3, R464) -/

/-- OSC_OK. -/
def execOscOk (s : State) : Host.Outcome State Fault Refusal :=
  s.live fun c => if c.pwr.st = .exiting ∧ c.pwr.step = 2 then c.pllStart else c

/-- OSC_TIMEOUT. -/
def execOscTimeout (s : State) : Host.Outcome State Fault Refusal :=
  s.live fun c => if c.pwr.st = .exiting ∧ c.pwr.step = 2 then c.mgmtOnly 2 else c

/-- R467: a cluster's PLL has locked: its islands are powered. -/
def Chip.cluPower (c : Chip) (k : Nat) : Chip :=
  let engines := ((List.range 8).map fun i => 8 * k + i).filter fun p => !c.outOfService p && !(c.port p).ownFailed
  let more := [islNum 1 k] ++ engines.map (islNum 0) ++ (if (c.clu k).spareFailed then [] else [islNum 0 (128 + k)])
  (c.updClu k fun x => { x with slStep := 7 }).updPwr fun x => { x with
    islWait := x.islWait ++ more
    islAgain := x.islAgain.filter fun i => !isOfClu k i }

/-- PLL_LOCK: the core PLL, or a cluster's. -/
def execPllLock (k : Option (Fin 16)) (s : State) : Host.Outcome State Fault Refusal :=
  s.live fun c =>
    let exiting := c.pwr.st == .exiting && c.pwr.step == 3
    match k with
    | none => if exiting then (c.updPwr fun x => { x with corePll := true }).exitGo else c
    | some k =>
      if exiting && c.pwr.pllWait.contains k.val then (c.updPwr fun x => { x with pllWait := x.pllWait.filter (· ≠ k.val) }).exitGo
      else if (c.clu k).slStep = 6 then c.cluPower k
      else c

/-- PLL_LOCK_TIMEOUT: 200 µs; each PLL is tried twice. -/
def execPllLockTimeout (k : Option (Fin 16)) (s : State) : Host.Outcome State Fault Refusal :=
  s.live fun c =>
    let exiting := c.pwr.st == .exiting && c.pwr.step == 3
    match k with
    | none =>
      if !exiting || c.pwr.corePll then c
      else if c.pwr.pllTries = 0 then c.updPwr fun x => { x with pllTries := 1, retries := satAdd 15 x.retries 1 }
      else c.mgmtOnly 3
    | some k =>
      let waits := (exiting && c.pwr.pllWait.contains k.val) || (c.clu k).slStep == 6
      if !waits then c
      else if c.pwr.pllAgain.contains k.val then (c.cluStays k).exitGo
      else c.updPwr fun x => { x with
        pllAgain := x.pllAgain ++ [k.val]
        retries := if exiting then satAdd 15 x.retries 1 else x.retries }

/-! ### The DRAM (R459 step 4, R460, R465) -/

/-- R593: the DRAM that VDD_DRAM has left is handled as one that was initialised afresh (R465). -/
def Chip.dramCheck (c : Chip) : Chip :=
  if c.aon.dramFell && ((c.pwr.st == .exiting && c.pwr.step == 4) || c.pwr.dramWait) then
    (({ c with aon := { c.aon with dramFell := false } }).report 0x0E0 Kind.readyTimeout 0).updPwr fun x => { x with dramLost := true }
  else c

/-- DRAM_RDY; `lost`: the DRAM island's retention check does not match. -/
def execDramRdy (lost : Bool) (s : State) : Host.Outcome State Fault Refusal :=
  s.live fun c =>
    let c := c.dramCheck
    if c.pwr.st = .exiting ∧ c.pwr.step = 4 then
      let l := c.exitIslands
      (c.updPwr fun x => { x with
        step := 5
        sigLostI := if lost && !x.sigLostI.contains (islNum 6 0) then x.sigLostI ++ [islNum 6 0] else x.sigLostI
        islWait := l
        islAgain := [] }).exitGo
    else if c.pwr.dramWait then
      let fresh := c.pwr.dramLost
      let c := c.updPwr fun x => { x with dramWait := false, dramLost := false, dramTries := 0 }
      if fresh then c.dramGone else c
    else c

/-- DRAM_RDY_TIMEOUT (R465): once more; then the DRAM is initialised afresh; a DRAM that fails that is a failure of the main
path. -/
def execDramRdyTimeout (s : State) : Host.Outcome State Fault Refusal :=
  s.live fun c =>
    let exiting := c.pwr.st == .exiting && c.pwr.step == 4
    if !exiting && !c.pwr.dramWait then c
    else
      let n := c.pwr.dramTries + 1
      let c := c.updPwr fun x => { x with dramTries := n }
      if n = 1 then (if exiting then c.updPwr fun x => { x with retries := satAdd 15 x.retries 1 } else c)
      else if n = 2 then
        let c := (c.report 0x0E0 Kind.readyTimeout 0).updPwr fun x => { x with dramLost := true }
        if exiting then c.updPwr fun x => { x with failStep := 4 } else c
      else c.enterSafe 6

/-! ### The islands (R459 step 5, R466, R467) -/

/-- An island is awaited: one of the first 4 of an exit, or one of a cluster's wake. -/
def Chip.islAwaited (c : Chip) (i : Nat) : Bool :=
  if c.pwr.st == .exiting then c.pwr.step == 5 && (c.pwr.islWait.take 4).contains i else c.pwr.islWait.contains i

/-- An island leaves the list, and what waited for the last one goes on. -/
def Chip.islOver (c : Chip) (i : Nat) : Chip :=
  let c := c.updPwr fun x => { x with islWait := x.islWait.filter (· ≠ i) }
  if c.pwr.st = .exiting then c.exitGo
  else c.each ((List.range 16).filter fun k => isOfClu k i) fun c k => c.cluRisen k

/-- ISL_RDY: island `k` of a class is up and its retention check has run: `lost` are the register sets of the island, by the
bits of PWR_RETLOST1, and `groups` the SRAM groups used by it, that do not match. -/
def execIslRdy (cls : Fin 9) (k : Fin 144) (lost : List (Fin 9)) (groups : List (Fin 16)) (s : State) : Host.Outcome State Fault Refusal :=
  s.live fun c =>
    let i := islNum cls k
    if !c.islAwaited i then c
    else
      let sets := (lost.map Fin.val).filter fun x => x == cls.val || (cls.val == 5 && x == 4)
      let gs := if c.pwr.st = .exiting then (groups.map Fin.val).filter fun g => g != 0 else []
      let c := if cls.val = 8 then { c with net := { c.net with dead := false } } else c
      (c.updPwr fun x => { x with
        sigLostI := (x.sigLostI ++ sets.map fun j => islNum j k).eraseDups
        sigLostG := (x.sigLostG ++ gs).eraseDups }).islOver i

/-- R466, R575: the port of an engine whose island fails; a failed spare's port goes back to its own engine. -/
def Chip.engineLost (c : Chip) (k : Nat) : Chip :=
  if k < 128 then c.takeOver k false
  else
    let j := k - 128
    let c := c.updClu j fun x => { x with spareFailed := true }
    match ((List.range 8).map fun i => 8 * j + i).find? fun p => (c.port p).spare with
    | none => c
    | some p =>
      if (c.port p).ownFailed then c.lostPort p
      else c.updPort p fun x => { x with spare := false, takeover := false, loaded := false, swap := none }

/-- ISL_RDY_TIMEOUT (R466): 50 µs; once more; then by the island's class. -/
def execIslRdyTimeout (cls : Fin 9) (k : Fin 144) (s : State) : Host.Outcome State Fault Refusal :=
  s.live fun c =>
    let i := islNum cls k
    let exiting := c.pwr.st == .exiting
    if !c.islAwaited i then c
    else if !c.pwr.islAgain.contains i then
      c.updPwr fun x => { x with islAgain := x.islAgain ++ [i], retries := if exiting then satAdd 15 x.retries 1 else x.retries }
    else
      let c := c.aonReport 0x120 Kind.readyTimeout cls
      let c := if exiting then c.updPwr fun x => { x with failStep := 5 } else c
      match cls.val with
      | 0 => (c.engineLost k).islOver i
      | 1 => (c.cluStays k).exitGo
      | 8 => ({ c with net := { c.net with dead := true } }).islOver i
      | 7 => c.enterSafe 5 0x120 Kind.readyTimeout true
      | _ => c.enterSafe 5 0x120 Kind.readyTimeout

/-! ### The retry command (R463, R464) -/

/-- The Tether's or the service port's retry: the status it ends with, and the exit begun again. (DEDUCED, log 154) -/
def Chip.powerRetry (c : Chip) : Nat × Chip :=
  match c.pwr.st with
  | .wakeFail => (Ad.success, (c.updPwr fun x => { x.regStart with st := .exiting, regTries := 0, retries := 0 }).judgeFaultN)
  | .mgmtOnly => (Ad.success, (c.updPwr fun x => { x with st := .exiting, step := 2, retries := 0 }).judgeFaultN.lnyJudge)
  | _ => (Ad.badState, c)

end Sys2Proof.Machine
end

