-- ==== Sys2Proof/Machine/Reaction.lean ====
section
/-!
DEFINITION. Beryl's reactions (R479 to R481), the clearing of a source and its cause (R485, R486), and its settings (R480,
R494).
-/
namespace Sys2Proof.Machine

/-! ### Causes and clearing (R485, R486) -/

/-- R614: the junction temperature is above the warning threshold less its hysteresis of 5 °C. -/
def Chip.warm (c : Chip) : Bool := decide (4 * ((c.aon.warnTh : Int) - 5) < c.aon.temp.toInt)

/-- R486: the kind raised while the cause of source `s` is present; the cause that the safe state is counts only for a source
whose SEVERE is cleared. -/
def Chip.cause (c : Chip) (s : Nat) : Option Nat :=
  let when_ := fun (b : Bool) (k : Nat) => if b then some k else none
  if s < 0x80 then when_ ((c.port s).st == .isolated) Kind.range
  else if s < 0x90 then when_ ((c.clu (s - 0x80)).lost && !(c.clu (s - 0x80)).byReset) Kind.linkDown
  else if s < 0xA0 then when_ (c.clu (s - 0x90)).spareFailed Kind.selftestFail
  else if 0xB0 ≤ s ∧ s < 0xD0 then when_ (c.tst.laneFail.contains (s - 0xB0)) Kind.selftestFail
  else if s = 0x110 ∨ s = 0x111 then when_ ((c.eth (s - 0x110)).en && !(c.eth (s - 0x110)).link) Kind.linkDown
  else if s = 0x120 then when_ (!c.pwr.pgLow.isEmpty) Kind.undervolt
  else if s = 0x180 then when_ c.warm Kind.thermalWarn
  else none

/-- A source after SEVERE, or MINOR, has been cleared. -/
def FltSrc.clear (x : FltSrc) (sev minor : Bool) : FltSrc :=
  let x := if sev && x.severe then { x with severe := false, react := false, escalated := false, count := 0, win := false } else x
  if minor then { x with minor := false } else x

/-- R485, R486: SEVERE, MINOR or both of source `s` are cleared, and its cause is judged in the same cycle; an event
that the cause raises counts from 0, in a window of its own. (DEDUCED, log 168). (DEDUCED, log 234) -/
def Chip.clearSrc (c : Chip) (s : Nat) (sev minor : Bool) : Chip :=
  let x := c.fltSrc s
  let done := (sev && x.severe) || (minor && x.minor)
  let held := c.tst.safe && sev && x.severe
  let c := c.updFltSrc s fun x => x.clear sev minor
  if !done then c
  else match (match c.cause s with | some k => some k | none => if held then some x.sevKind else none) with
    | some k => (c.updFltSrc s fun x => { x with count := 0, win := false }).accept s { kind := k, addr := 0 }
    | none => c.judgeFaults

/-- R485: CLEARALL: every source, in one fabric cycle. -/
def Chip.clearAll (c : Chip) : Chip :=
  (c.each (c.flt.src.map Prod.fst) fun c s => c.clearSrc s true true).judgeFaults

/-- A write of a source's settings or status that has no effect (R493). -/
def Chip.fltCfgerr (c : Chip) : Chip := { c with flt := { c.flt with cfgerr := true } }

/-- A write of FLT_SRCSTAT. -/
def Chip.srcStat (c : Chip) (w : Word) : Chip :=
  if FltSrc.listed c.flt.sel then c.clearSrc c.flt.sel (bit w 31) (bit w 30) else c.fltCfgerr

/-- FAULT_SOURCE_CLEAR (R485): a write of FLT_SRCSTAT for the selected source. -/
def execFaultSourceClear (w : Word) (s : State) : Host.Outcome State Fault Refusal :=
  s.live fun c => if c.fabricRuns then c.srcStat w else c

/-- CLEARALL (R485). -/
def execClearall (s : State) : Host.Outcome State Fault Refusal :=
  s.live fun c => if c.fabricRuns then c.clearAll else c

/-! ### Actions (R480, R481) -/

/-- R480: the sources on which an action may be set. -/
def actionAllowed (s a : Nat) : Bool :=
  let port := decide (s < 0x80)
  let cluster := decide (0x80 ≤ s) && decide (s < 0x90)
  let spare := decide (0x90 ≤ s) && decide (s < 0xA0)
  let lane := decide (0xB0 ≤ s) && decide (s < 0xD0)
  match a with
  | 0 | 5 => true
  | 1 => port
  | 2 => port || spare || lane
  | 3 => port || s == 0x100
  | 4 => port || cluster || spare
  | _ => false

/-- A write of FLT_SRCACT. -/
def Chip.srcAct (c : Chip) (locked : Bool) (w : Word) : Chip :=
  if locked then c
  else if FltSrc.listed c.flt.sel && actionAllowed c.flt.sel (bits w 31 29) then
    let g := fun (x : FltSrc) => { x with action := bits w 31 29, fnminor := bit w 28, t := min (max (bits w 19 0) 10) 1000000 }
    (c.updFltSrc c.flt.sel g).judgeFaults
  else c.fltCfgerr

/-- A write of FLT_SRCCFG. -/
def Chip.srcCfg (c : Chip) (locked : Bool) (w : Word) : Chip :=
  if locked then c
  else if FltSrc.listed c.flt.sel then
    c.updFltSrc c.flt.sel fun x => { x with n := max 1 (bits w 31 24), w := min (max (bits w 23 0) 1) 16000000 }
  else c.fltCfgerr

/-- FAULT_ACTION_WRITE (R480, R494): a write of FLT_SRCACT for the selected source. -/
def execFaultActionWrite (w : Word) (s : State) : Host.Outcome State Fault Refusal :=
  s.live fun c => if c.fabricRuns then c.srcAct s.locks.flt w else c

/-- R480: a lane is taken offline as failed. (DEDUCED, log 173) -/
def Chip.laneFailed (c : Chip) (l : Nat) : Chip :=
  let c := c.failLane l
  { c with tst := { c.tst with laneFail := (List.range 32).filter fun j => j == l || c.tst.laneFail.contains j } }

/-- R480: the spare engine of cluster `k` is marked failed, and a port it serves goes back to its own engine.
(DEDUCED, log 69) -/
def Chip.failSpare (c : Chip) (k : Nat) : Chip :=
  let c := c.updClu k fun x => { x with spareFailed := true }
  match ((List.range 8).map fun i => 8 * k + i).find? fun p => (c.port p).spare with
  | none => c
  | some p => if (c.port p).ownFailed then c.isolate p else c.planSwap p false

/-- R481: one port of a cluster that is reset. A port whose own engine is marked failed stays on the spare. -/
def Chip.resetPort (c : Chip) (p : Nat) : Chip :=
  let was := (c.port p).pw.want || (c.port p).pw.poweredAtLoss
  let c := (c.detachTree p 0x03).removePower p 1
  let c := (c.updSc p PortSch.quiet).updPort p fun x =>
    { x.bare with waiting := none, takeover := false, loaded := false, swap := none, spare := x.spare && x.ownFailed }
  let c : Chip := match (c.port p).st with
    | .off | .isolated | .test => c
    | _ => (c.setPort p .off).happen p 0 (.enum p 0 0)
  c.updPw p fun y => { y with
    poweredAtLoss := was && !y.pwrOff, healthy := false, median := 0, filt := 0, samples := [], filtOn := false, highRun := 0 }

/-- R481: a CLUSTER_RESET: step 6 is that of a restored link (R239). (DEDUCED, log 77; DEDUCED, log 170) -/
def Chip.clusterReset (c : Chip) (k : Nat) : Chip :=
  let c := c.each ((List.range 8).map fun i => 8 * k + i) fun c p => if c.outOfService p then c else c.resetPort p
  c.updClu k fun x => { x with
    locked := false
    linkUp := false
    lost := true
    byReset := !x.lost || x.byReset
    good := 0
    health := 0
    oc := 0
    median := 0
    filt := 0
    samples := []
    filtOn := false
    overRun := 0
    shedding := false }

/-- R480: the action of source `s`. (DEDUCED, log 169) -/
def Chip.react (c : Chip) (s a : Nat) : Chip :=
  match a with
  | 1 => c.isolate s
  | 2 =>
    if s < 0x80 then (if c.outOfService s then c else c.takeOver s false)
    else if s < 0xA0 then c.failSpare (s - 0x90)
    else if (c.lane (s - 0xB0)).present then c.laneFailed (s - 0xB0) else c
  | 3 =>
    if s < 0x80 then c.fnReset (c.ownerOf s)
    else
      let f := (c.fltSrc s).sevAddr % 128
      if c.fnExists f then c.fnReset f else c
  | 4 => c.clusterReset (if s < 0x80 then s / 8 else s % 16)
  | 5 => c.enterSafe 2 s (c.fltSrc s).sevKind
  | _ => c

/-- REACTION_TIMER_EXPIRY (R479): the source escalates. The ESCALATED record is not counted. -/
def execReactionTimerExpiry (src : Fin 1024) (s : State) : Host.Outcome State Fault Refusal :=
  s.run fun c =>
    let x := c.fltSrc src
    if !x.react || !x.severe then c
    else
      let c := c.react src x.action
      let c := c.updFltSrc src fun x => { x with react := false, escalated := true }
      let c := c.record src { kind := Kind.escalated, addr := x.action } false (c.fltSrc src).count
      (c.tellOwner src Kind.escalated).judgeFaults

end Sys2Proof.Machine
end

