-- ==== Sys2Proof/Machine/SelfTest.lean ====
section
/-!
DEFINITION. In-service tests (R509 to R516), CAL_MEASURE (R430), PERIPH_DOWNLOAD (R434), and the safe points and ends of long
operations (R438, R440).
-/
namespace Sys2Proof.Machine

/-! ### SELFTEST (R509 to R513) -/

/-- KIND of P0. -/
def stKind (d : List Word) : Nat := bits (dw d 5) 3 0
/-- P0[15:8]. -/
def stTarget (d : List Word) : Nat := bits (dw d 5) 15 8

/-- The operation that a KIND starts. -/
def stOp (k : Nat) : OpKind :=
  match k with
  | 1 => .engine
  | 2 => .lane
  | 3 => .dramRegion
  | _ => .monitor

/-- R510: the target is the port's own engine, or a spare. -/
def engineTarget (t : Nat) : Bool := t < 128 || (0x80 ≤ t && t < 0x90)

/-- The cluster of an ENGINE target. -/
def engineClu (t : Nat) : Nat := if t < 128 then t / 8 else t % 16

/-- Check 4: the target lies in its range. -/
def stTargetBad (d : List Word) : Bool :=
  match stKind d with
  | 1 => !engineTarget (stTarget d)
  | 2 => 32 ≤ stTarget d
  | 4 => 16 ≤ stTarget d
  | _ => false

/-- An ENGINE or MONITOR test runs in cluster `k`. -/
def Chip.cluTesting (c : Chip) (k : Nat) : Bool :=
  c.ops.recs.any fun o => (o.kind == .engine || o.kind == .monitor) && o.st != .done && o.cluster == some k

/-- The operations of a kind that are not DONE. -/
def Chip.opsOf (c : Chip) (k : OpKind) : List Op := c.ops.recs.filter fun o => o.kind == k && o.st != .done

/-- The ENGINE target serves its port, so that step 1 swaps it to the spare. -/
def Chip.engineServes (c : Chip) (t : Nat) : Bool := t < 128 && !(c.port t).spare

/-- R509, R510: the test is refused with BAD_STATE. (DEDUCED, log 171) -/
def Chip.testRefused (c : Chip) (d : List Word) : Bool :=
  let t := stTarget d
  c.pwr.st != .active ||
  (match stKind d with
   | 1 =>
     let k := engineClu t
     c.cluTesting k || !c.cluRuns k || (t < 128 && c.outOfService t) ||
     (if t < 128 then c.engineServes t && c.spareTaken t
      else (List.range 8).any fun i => let x := c.port (8 * k + i); x.spare || x.takeover || x.swap == some true)
   | 2 =>
     decide (4 ≤ (c.opsOf .lane).length) || ((c.opsOf .lane).any fun o => testTarget o == t) || (c.lane t).disabled ||
     decide (((List.range 32).filter fun l => l != t && (c.lane l).candidate).length < 2)
   | 3 => !(c.opsOf .dramRegion).isEmpty || c.tst.relocBad
   | _ => c.cluTesting t || !c.cluRuns t || (c.tstClu t).monFail)

/-- TOTAL: steps, blocks, or conversions. (DEDUCED, log 49) -/
def Chip.testTotal (c : Chip) (d : List Word) : Nat :=
  match stKind d with
  | 1 => if 128 ≤ stTarget d then 2 else if c.engineServes (stTarget d) then 5 else 3
  | 2 => 2
  | 3 => 64
  | _ => 192

/-- An accepted test starts. -/
def Chip.testStart (c : Chip) (d : List Word) : Chip :=
  match c.opRoom 0 with
  | none => c.adminDone 0 Ad.resource
  | some c =>
    let t := stTarget d
    let swaps := stKind d == 1 && c.engineServes t
    let (i, c) := (c.adminLater 0).newOp 0 (stOp (stKind d)) (admCid d) d (c.testTotal d)
    let c := c.updOp i fun o => { o with record := [BitVec.ofNat 32 c.mfn.toNat], rest := if swaps then [t] else [] }
    let c := if swaps then c.planSwap t true else c
    if stKind d = 2 then (if (c.lane t).off = 0 then c.laneOffline t false else c).testTask t else c

/-- SELFTEST (R509). -/
def execSelftest (s : State) : Host.Outcome State Fault Refusal :=
  s.live fun c => c.admin 0 0x11
    (fun d => [badParam (admLen d < 64) 0x10 0, badParam (stKind d == 0 || 4 < stKind d) 0x14 0, badParam (stTargetBad d) 0x14 8,
      badState (c.testRefused d)])
    (fun d c => c.testStart d)

/-! ### The record and the results (R513, R516) -/

/-- The fields of the record from 0x0C on that a kind writes. -/
def recMask (k : OpKind) : List Nat :=
  let all := 0xFFFFFFFF
  match k with
  | .engine => [all, all, all, all, all]
  | .lane => [all, 0, all, all, all]
  | .dramRegion => [all, all, all, all, all, 0xFF, 0, all, all]
  | _ => [all, 0x3FFF3FFF, 0x3FFF3FFF, 0x3FFF3FFF, 0x3FFF3FFF, 0x3FFF3FFF, 0x3FFF3FFF]

def recFields (k : OpKind) (found : List Word) : List Word :=
  (List.range 13).map fun i => dw found i &&& BitVec.ofNat 32 ((recMask k).getD i 0)

/-- R513: the three references' expected codes. -/
def refCodes : List Nat := [2048, 8192, 14336]

/-- R513: the first reference that fails, with its FAILCODE: its mean is more than 24 codes off, or its spread is
above 32. (DEDUCED, log 172) -/
def monFault (r : List Word) : Option (Nat × Nat) :=
  (List.range 3).findSome? fun j =>
    let w := dw r (1 + 2 * j)
    let e := refCodes.getD j 0
    let m := bits w 13 0
    if m + 24 < e ∨ e + 24 < m then some (j + 1, 5) else if 32 < bits w 29 16 then some (j + 1, 6) else none

/-- R510 to R512: the step and FAILCODE that can be given as the finding of a test. -/
def stepOk (o : Op) (f : Nat × Nat) : Bool :=
  match o.kind with
  | .engine => (f == (2, 1) || f == (3, 2) || (f == (4, 3) && testTarget o < 128))
  | .lane => f == (1, 1) || f == (2, 2)
  | .dramRegion => 1 ≤ f.1 && f.1 ≤ 64 && f.2 == 4
  | _ => false

/-- R510 to R513: what a test's finding does to the element under test. -/
def Chip.testEffect (c : Chip) (o : Op) (pass : Bool) (r : List Word) : Chip :=
  let t := testTarget o
  match o.kind with
  | .engine =>
    if t < 128 then c.updPort t fun x => { x with ownFailed := !pass }
    else c.updClu (t % 16) fun x => { x with spareFailed := !pass }
  | .lane =>
    let c := c.updLane t fun x => { x with present := pass, off := if pass then 0 else 2 }
    { c with tst := { c.tst with laneFail := (List.range 32).filter fun j => if j = t then !pass else c.tst.laneFail.contains j } }
  | .dramRegion =>
    let pool := 4 * t < c.grn.poolMb
    let c := { c with tst := { c.tst with
      dramRep := satAdd 0xFFFF c.tst.dramRep (bits (dw r 1) 15 0)
      dramUnrep := satAdd 0xFFFF c.tst.dramUnrep (bits (dw r 1) 31 16)
      relocBad := c.tst.relocBad || (!pass && !pool) } }
    if !pass && pool then c.updGrn fun g => { g with retired := satAdd 0xFFFF g.retired (dw r 2).toNat } else c
  | .monitor =>
    if pass then c else { c with tst := { c.tst with clu := Tab.upd (fun _ => {}) c.tst.clu t fun x => { x with monSuspect := true } } }
  | _ => c

/-- The test's own swap still holds its port on the spare. -/
def Chip.testSwapped (c : Chip) (o : Op) : Bool :=
  match o.rest with
  | [p] => (c.port p).spare
  | _ => false

/-- R440: the ending steps of a cancelled test: the port goes back, the lane comes online, unless a step has failed it. -/
def Chip.testCancelled (c : Chip) (o : Op) : Chip :=
  let t := testTarget o
  let c := match o.kind, o.rest with
    | .engine, [p] => if (c.port p).ownFailed then c else if (c.port p).spare then c.planSwap p false else c.updPort p fun x => { x with swap := none }
    | .lane, _ => if c.tst.laneFail.contains t then c else c.updLane t fun x => { x with off := 0 }
    | _, _ => c
  if c.testSwapped o && !(c.port t).ownFailed then c
  else c.testEnd { o with record := o.record.take 1 ++ recFields o.kind (o.record.drop 1) } 2 0 0

/-- A test that is RUNNING ends: with a finding, or with its last unit done. A port that the test swapped goes back first. -/
def Chip.testDone (c : Chip) (o : Op) (fail : Option (Nat × Nat)) (found : List Word) : Chip :=
  let r := recFields o.kind found
  let o := { o with record := o.record.take 1 ++ r }
  let last := decide (o.total ≤ o.progress + 1)
  let finding := if o.kind = .monitor then (if last then monFault r else none) else fail.filter (stepOk o)
  match finding with
  | some (step, code) => (c.testEffect o false r).testEnd { o with progress := if last && o.kind == .monitor then o.total else o.progress } 1 step code
  | none =>
    if !last || fail.isSome then c
    else if c.testSwapped o then c.planSwap (testTarget o) false
    else
      let o := { o with progress := o.total }
      ((c.updOp o.opid fun x => { x with progress := o.total }).testEffect o true r).testEnd o 0 0 0

/-! ### CAL_MEASURE (R430) -/

/-- The channels measured. -/
def cmChannels (d : List Word) : List Nat := (List.range 9).filter fun n => (bits (dw d 5) 24 16).testBit n
def cmSamples (d : List Word) : Nat := bits (dw d 6) 15 0

/-- CAL_MEASURE (R430). -/
def execCalMeasure (s : State) : Host.Outcome State Fault Refusal :=
  s.live fun c => c.admin 0 0x13
    (fun d => [badParam (admLen d < 72) 0x10 0, badParam (cmSamples d < 16 || 4096 < cmSamples d) 0x18 0,
      badState (!c.cluRuns (bits (dw d 5) 3 0))])
    (fun d c => match c.opRoom 0 with
      | none => c.adminDone 0 Ad.resource
      | some c => ((c.adminLater 0).newOp 0 .calMeasure (admCid d) d (cmSamples d * (cmChannels d).length)).2.measureTask)

/-- The 72 bytes: GAIN and OFFSET as measured and the sample count, by channel. -/
def cmRecord (d : List Word) (found : List Word) : List Byte :=
  wordsBytes ((List.range 9).flatMap fun n =>
    if (cmChannels d).contains n then [dw found n, BitVec.ofNat 32 (cmSamples d)] else [0#32, 0#32])

/-- The measurement ends; a cancelled one writes nothing. -/
def Chip.cmDone (c : Chip) (o : Op) (found : List Word) : Chip :=
  if o.st = .cancelling then c.opDone o.opid Ad.cancelled
  else if o.st ≠ .running ∨ o.progress + 1 < o.total then c
  else
    let c := c.hostWrite 0 (addr64 (dw o.cmd 2) (dw o.cmd 3)) (cmRecord o.cmd found)
    (c.updOp o.opid fun x => { x with progress := o.total }).opDone o.opid Ad.success

/-! ### PERIPH_DOWNLOAD (R434) -/

/-- R434: the endpoint context may be named. -/
def Chip.dlEpBad (c : Chip) (d : List Word) : Bool :=
  match c.ep (dlEp d) with
  | none => true
  | some e => e.gone || (if dlControl d then !e.dflt else !(e.dflt || (e.type == .bulk && !e.isIn))) || e.inst.isSome ||
      (!dlControl d && e.dflt)

/-- Check 4: CHUNK. -/
def Chip.dlChunkBad (c : Chip) (d : List Word) : Bool :=
  let k := dlChunk d
  if dlControl d then k == 0 || decide (4096 < k)
  else k == 0 || decide (65024 < k) || k % max 1 (match c.ep (dlEp d) with | some e => e.mps | none => 1) != 0

/-- The endpoint has a descriptor in progress. -/
def Chip.dlInUse (c : Chip) (h : Nat) : Bool := (match c.ep h with | some e => c.epBusy e | none => false) || c.loading h

/-- PERIPH_DOWNLOAD (R434): `payload`: what the buffer holds. -/
def execPeriphDownload (f : Fin 128) (payload : List Byte) (s : State) : Host.Outcome State Fault Refusal :=
  s.live fun c => c.admin f 0x12
    (fun d => [denied (c.epOwner (dlEp d) != some f.val), badParam (dlLen d == 0) 0x10 0, c.bufFault f d (dlLen d),
      badParam (c.dlEpBad d) 0x14 0, badParam (c.dlChunkBad d) 0x18 0,
      badParam (dlControl d && (bit (dw d 7) 7 || bits (dw d 7) 6 5 == 0 || bits (dw d 7) 6 5 == 3)) 0x1C 0,
      badState (c.dlInUse (dlEp d))])
    (fun d c => match c.opRoom f with
      | none => c.adminDone f Ad.resource
      | some c =>
        let (i, c) := (c.adminLater f).newOp f .download (admCid d) d (dlTotal d)
        let bs := (c.hostReadData f (admAddr d) (dlLen d) payload).take (dlLen d)
        let c := (c.hostReadReq f (admAddr d) (dlLen d)).updOp i fun o => { o with payload := bs }
        c.dlSend i)

/-- PERIPH_DOWNLOAD_DELAY_EXPIRY (R434): the operation `i` sends its next chunk. A SUSPENDED one sends it once resumed. -/
def execPeriphDownloadDelayExpiry (i : Fin 65536) (s : State) : Host.Outcome State Fault Refusal :=
  s.live fun c =>
    match c.op i with
    | none => c
    | some o =>
      if o.kind ≠ .download ∨ ¬ o.delay then c
      else
        let c := c.updOp i fun o => { o with delay := false }
        if o.st = .running then c.dlSend i else c

/-! ### Safe points and ends (R438, R440, R441) -/

/-- R510, R512: the units of a test that a safe point ends; a safe point before the swap ends none. The last unit ends with
the operation. -/
def Chip.testUnit (c : Chip) (o : Op) : Chip :=
  let step := fun (c : Chip) => if o.progress + 1 < o.total then c.updOp o.opid fun x => { x with progress := x.progress + 1 } else c
  match o.kind, o.rest with
  | .engine, [p] =>
    if o.progress = 0 ∧ ¬ (c.port p).spare then
      (if (c.port p).swap.isNone && !c.spareTaken p && !o.suspReq then c.planSwap p true else c)
    else
      let c := step c
      if o.progress = 3 then c.planSwap p false else c
  | .dramRegion, _ =>
    if testTarget o = 63 ∨ o.phase = 2 then step (c.updOp o.opid fun x => { x with phase := 0 })
    else c.updOp o.opid fun x => { x with phase := x.phase + 1 }
  | _, _ => step c

/-- LONG_OP_SAFE_POINT (R438, R440): operation `i` reaches a safe point. -/
def execLongOpSafePoint (i : Fin 65536) (s : State) : Host.Outcome State Fault Refusal :=
  s.live fun c =>
    match c.op i with
    | none => c
    | some o =>
      if o.st ≠ .running then c
      else match o.kind with
        | .engine | .lane | .dramRegion | .monitor =>
          let c := (c.testUnit o).safePoint i
          match c.op i, o.rest with
          | some x, [p] =>
            if x.st = .suspended ∧ o.progress = 0 ∧ ¬ (c.port p).spare then c.updPort p fun y => { y with swap := none } else c
          | _, _ => c
        | .calMeasure =>
          (if o.progress + 1 < o.total then (c.updOp i fun x => { x with progress := x.progress + 1 }).measureTask else c).safePoint i
        | .scrub => c.safePoint i
        | .reshape => if c.inMove o then c else c.safePoint i
        | .streamJob => if c.opOnWire o then c else c.safePoint i
        | .download => if c.opOnWire o || (o.byPower && o.busy) then c else c.safePoint i

/-- LONG_OP_DONE (R438, R440): operation `i` has done its last unit or its ending steps, or an error ends it: `fail`
is the step and FAILCODE that a test has found, `found` what it or a measurement has measured. What falls due while
PF0's DMA is held comes later (R75). (DEDUCED, log 50) -/
def execLongOpDone (i : Fin 65536) (fail : Option (Nat × Nat)) (found : List Word) (s : State) : Host.Outcome State Fault Refusal :=
  s.live fun c =>
    match c.op i with
    | none => c
    | some o =>
      if o.st = .done then c
      else match o.kind with
        | .engine | .lane | .dramRegion | .monitor =>
          if c.dmaHeld 0 then c
          else if o.st = .cancelling then c.testCancelled o
          else if o.st = .running then c.testDone o fail found
          else c
        | .calMeasure => if c.dmaHeld 0 then c else c.cmDone o found
        | .scrub => c.scrubDone o
        | .reshape => c.reshapeEnd i
        | .download => c.dlDone i
        | .streamJob => c

end Sys2Proof.Machine
end

