-- ==== Sys2Proof/Machine/Image.lean ====
section
/-!
DEFINITION. Configuration images: their check (R546 to R548), the values they set (R275, R550, R553), staging and applying
(R551, R552), the boot read and the reread (R544, R550, R554).
-/
namespace Sys2Proof.Machine

/-! ### Checking an image (R546 to R548) -/

/-- The four dwords of section `j`'s entry. -/
def imgEntry (bs : List Byte) (j : Nat) : List Word := bytesWords (bs.drop (64 + 16 * j)) 4
def imgNsect (bs : List Byte) : Nat := bits (wordAt bs 4) 15 8
/-- The 8 dwords of section `j`'s body. -/
def imgBody (bs : List Byte) (j : Nat) : List Word := bytesWords (bs.drop (dw (imgEntry bs j) 1).toNat) 8
/-- TYPE and SCOPE of section `j`. -/
def imgType (bs : List Byte) (j : Nat) : Nat := bits (dw (imgEntry bs j) 0) 7 0
def imgScope (bs : List Byte) (j : Nat) : Nat := bits (dw (imgEntry bs j) 0) 15 8

/-- Check 0x01 FORMAT. -/
def imgFormat (bs : List Byte) : Bool :=
  wordAt bs 0 == 0x4D495643#32 && bits (wordAt bs 4) 7 0 == 1 && 1 ≤ imgNsect bs && imgNsect bs ≤ 16 &&
  ((List.range 13).all fun i => wordAt bs (0x0C + 4 * i) == 0#32) &&
  (List.range (imgNsect bs)).all fun j => bits (dw (imgEntry bs j) 0) 31 16 == 0 && dw (imgEntry bs j) 3 == 0#32

/-- Check 0x02 LENGTH: against the `n` bytes read or staged. -/
def imgLength (bs : List Byte) : Bool :=
  let n := (wordAt bs 8).toNat
  240 ≤ n && n ≤ 4194304 && n == bs.length

/-- R547: a DEVICE body, and a SERVICE body. -/
def deviceOk (w : List Word) : Bool :=
  bits (dw w 0) 31 16 == 0 && bits (dw w 1) 31 8 == 0 && bits (dw w 3) 31 16 == 0 && bits (dw w 5) 31 16 == 0 &&
  dw w 6 == 0#32 && dw w 7 == 0#32

def serviceOk (w : List Word) : Bool :=
  let rxIdle := bits (dw w 0) 7 0
  let chunk := bits (dw w 0) 28 16
  let hbiv := bits (dw w 1) 12 0
  1 ≤ rxIdle && 64 ≤ chunk && chunk ≤ 4096 && bits (dw w 0) 15 8 == 0 && bits (dw w 0) 31 29 == 0 &&
  8 ≤ hbiv && hbiv ≤ 4096 && 1 ≤ bits (dw w 1) 19 16 && bits (dw w 1) 15 13 == 0 && bits (dw w 1) 31 21 == 0 &&
  bits (dw w 2) 31 3 == 0 && (List.range 5).all fun i => dw w (3 + i) == 0#32

/-- One section, by itself. -/
def sectionOk (bs : List Byte) (j : Nat) : Bool :=
  let o := (dw (imgEntry bs j) 1).toNat
  dw (imgEntry bs j) 2 == 32#32 && 64 + 16 * imgNsect bs ≤ o && o + 32 ≤ bs.length - 128 &&
  (match imgType bs j with
   | 1 => imgScope bs j == 0xFF && deviceOk (imgBody bs j)
   | 2 => (imgScope bs j < 128 || imgScope bs j == 0xFF) && serviceOk (imgBody bs j)
   | _ => false)

/-- Check 0x03 SECTION: no two sections of one type and scope. -/
def imgSections (bs : List Byte) : Bool :=
  let js := List.range (imgNsect bs)
  let ids := js.map fun j => (imgType bs j, imgScope bs j)
  js.all (sectionOk bs) && ids.eraseDups.length == ids.length

/-- Check 0x04 KEY, against the key hash when it is programmed. -/
def imgKey (hash : Option (List Word)) (bs : List Byte) : Bool :=
  match hash with
  | none => true
  | some h => sha256 ((bs.drop (bs.length - 128)).take 64) == bytesBig (wordsBytes h)

/-- Check 0x05 SIGNATURE. -/
def imgSignature (bs : List Byte) : Bool :=
  let part := fun (i : Nat) => bytesBig ((bs.drop (bs.length - 128 + 32 * i)).take 32)
  ecdsaOk (part 0) (part 1) (sha256 (bs.take (bs.length - 64))) (part 2) (part 3)

/-- The image that valid bytes hold. -/
def imgParse (bs : List Byte) : Image :=
  let js := List.range (imgNsect bs)
  { ver := bits (wordAt bs 4) 31 16
    digest := sha256 bs
    device := (js.find? fun j => imgType bs j == 1).map (imgBody bs)
    services := (js.filter fun j => imgType bs j == 2).map fun j => (imgScope bs j, (imgBody bs j).take 3) }

/-- R548: the detail code of the first check that fails, or 0 and the image. (DEDUCED, log 179) -/
def imageCheck (hash : Option (List Word)) (bs : List Byte) : Nat × Option Image :=
  if !imgFormat bs then (1, none)
  else if !imgLength bs then (2, none)
  else if !imgSections bs then (3, none)
  else if !imgKey hash bs then (4, none)
  else if !imgSignature bs then (5, none)
  else (0, some (imgParse bs))

/-! ### The values of the DEVICE section (R275, R550, R553) -/

/-- The DEVICE values without an image: Subsystem ID 0, S 16, H 8, both addresses 0. (DEDUCED, log 180) -/
def deviceDflt : List Word := [0#32, mkWord [(2, 0), (1, 4)], 0#32, 0#32, 0#32, 0#32, 0#32, 0#32]

/-- A main-path stage of self-test has failed: the safe state, with CAUSE 1 (R496, R500). (DEDUCED, log 189) -/
def Chip.postFail (c : Chip) : Chip :=
  ({ c with tst := { c.tst with failStage := c.tst.stage } }).enterSafe 1

/-- R505: the pool has fallen below 192 MiB. -/
def Chip.poolJudge (c : Chip) : Chip := if c.grn.total < 196608 then c.postFail else c

/-- R275: the values that the device starts with. -/
def Chip.bootSettings (c : Chip) : Chip :=
  let d := (c.boot.devPend.or (c.boot.running.bind Image.device)).getD deviceDflt
  let sp := 8 * bits (dw d 1) 3 0
  let hm := 8 * bits (dw d 1) 7 4
  let ok := (sp == 8 || sp == 16 || sp == 24) && (hm == 0 || hm == 8 || hm == 16) && decide (sp + hm ≤ 32)
  let c := if ok then c else c.report 0x150 Kind.range 0
  let (sp, hm) := if ok then (sp, hm) else (16, 8)
  let c := c.updGrn fun g => { g with spillMb := sp, homedMb := hm, poolMb := 228 - sp - hm }
  let c := { c with boot := { c.boot with subsys := bits (dw d 0) 15 0 } }
  let c := c.updFn 0 fun x => { x with cells := c.grn.total }
  let mac := fun (i : Nat) => (dw d (2 + 2 * i)).toNat + 2 ^ 32 * bits (dw d (3 + 2 * i)) 15 0
  let c := c.each [0, 1] fun c i => c.updEth i fun p => { p with mac := mac i }
  c.poolJudge

/-! ### The flash (R544, R545, R550, R554) -/

/-- R545: the directory's magic. -/
def flashDir (flash : List Byte) : Bool := wordAt flash 0 == 0x52494443#32

/-- The image of directory entry `k`: what the flash holds there, within its first 16 MiB. -/
def flashImage (flash : List Byte) (k : Nat) : List Byte :=
  ((flash.take 16777216).drop (wordAt flash (4 + 8 * k)).toNat).take (wordAt flash (8 + 8 * k)).toNat

/-- R550: an image is in force for every function. -/
def Chip.bootTake (c : Chip) (k : Nat) (x : Image) : Chip :=
  ({ c with boot := { c.boot with slot := k, running := some x, read := true } }).bootSettings

/-- R550: no valid image, or no directory. -/
def Chip.bootNone (c : Chip) : Chip :=
  (({ c with boot := { c.boot with noImage := true, read := true } }).report 0x150 Kind.selftestFail 0).bootSettings

/-- R550: the loader has read the directory and the images. -/
def Chip.bootRead (c : Chip) (hash : Option (List Word)) (flash : List Byte) (quad : Bool) : Chip :=
  let c := { c with boot := { c.boot with quad := quad } }
  if !flashDir flash then c.bootNone
  else match imageCheck hash (flashImage flash 0) with
    | (_, some x) => c.bootTake 0 x
    | (e, none) =>
      let c := c.report 0x150 (if e ≤ 3 then Kind.protocol else Kind.accessViolation) e
      if wordAt flash 0x10 = 0#32 then c.bootNone
      else
        let c := { c with boot := { c.boot with entry := 1 } }
        match (imageCheck hash (flashImage flash 1)).2 with
        | some x => c.bootTake 1 x
        | none => c.bootNone

/-- R554: the flash image has been read again; it is taken only when its digest is that of the image in force. -/
def Chip.reread (c : Chip) (flash : List Byte) : Chip :=
  let c := { c with boot := { c.boot with rereading := false } }
  if c.boot.running.any fun x => x.digest == sha256 (flashImage flash c.boot.slot) then c
  else ({ c with boot := { c.boot with lost := true, cacheLost := true } }).report 0x150 Kind.uncorrectable 0

/-- BOOT_IMAGE_READ_DONE (R550, R554): `flash`: what the flash holds from its address 0; `quad`: it was read with 1-1-4.
At boot the read runs beside stages 7 to 9. -/
def execBootImageReadDone (flash : List Byte) (quad : Bool) (s : State) : Host.Outcome State Fault Refusal :=
  s.live fun c =>
    if c.boot.rereading then c.reread flash
    else if c.tst.postdone || c.boot.read || decide (c.tst.stage < 7) then c
    else c.bootRead s.otp.keyHash flash quad

/-! ### IMAGE_STAGE and IMAGE_APPLY (R551, R552) -/

/-- R551: a stage is refused with BAD_STATE. (DEDUCED, log 181) -/
def Chip.stageRefused (c : Chip) : Bool := !c.boot.inForce.isEmpty || c.boot.staging.isSome

/-- R551: the copy into the staging slot starts. -/
def Chip.stageStart (c : Chip) (who : MaintWho) (hash : Option (List Word)) (bs : List Byte) : Chip :=
  let (e, x) := imageCheck hash bs
  { c with boot := { c.boot with staged := none, staging := some (who, e, x) } }

/-- IMAGE_STAGE (R551): `payload`: what the buffer holds. -/
def execImageStage (payload : List Byte) (s : State) : Host.Outcome State Fault Refusal :=
  s.live fun c => c.admin 0 0x15
    (fun d => [badParam (admLen d == 0 || decide (4194304 < admLen d)) 0x10 0, badState c.stageRefused])
    (fun d c =>
      let bs := (c.hostReadData 0 (admAddr d) (admLen d) payload).take (admLen d)
      ((c.hostReadReq 0 (admAddr d) (admLen d)).adminBegun 0).stageStart .admin s.otp.keyHash bs)

/-- A command of the admin queue of PF0, or of the service port, ends. -/
def Chip.maintDone (c : Chip) (who : MaintWho) (aop lop status : Nat) (detail : Word := 0#32) : Chip :=
  match who with
  | .admin => if (c.adminWaits 0 aop).isSome then c.adminDone 0 status detail else c
  | .lanyard => if c.lnyWaits lop then c.lnyDone status detail else c

/-- IMAGE_STAGE_DONE (R551). -/
def execImageStageDone (s : State) : Host.Outcome State Fault Refusal :=
  s.live fun c =>
    match c.boot.staging with
    | none => c
    | some (who, e, x) =>
      let c := { c with boot := { c.boot with staged := x, staging := none } }
      if x.isSome then c.maintDone who 0x15 0x0B Ad.success else c.maintDone who 0x15 0x0B Ad.image (BitVec.ofNat 32 e)

/-- R552: the function named does not exist. -/
def Chip.applyBad (c : Chip) (f : Nat) : Bool := f != 0xFF && (128 ≤ f || !c.fnExists f)
/-- R551, R552: an apply is refused with BAD_STATE. -/
def Chip.applyRefused (c : Chip) : Bool := c.boot.staged.isNone || c.boot.staging.isSome

/-- R552, R553: the staged image is put in force for a function, or for all. -/
def Chip.imageApply (c : Chip) (f : Nat) : Chip :=
  if f ≠ 0xFF then
    { c with boot := { c.boot with inForce := (List.range 128).filter fun g => g == f || c.boot.inForce.contains g } }
  else
    { c with boot := { c.boot with
      running := c.boot.staged
      staged := none
      inForce := []
      live := true
      lost := false
      rereading := false
      devPend := (c.boot.staged.bind Image.device).or c.boot.devPend } }

/-- IMAGE_APPLY (R552). -/
def execImageApply (s : State) : Host.Outcome State Fault Refusal :=
  s.live fun c => c.admin 0 0x16
    (fun d => [badParam (c.applyBad (bits (dw d 5) 7 0)) 0x14 0, badState c.applyRefused])
    (fun d c => (c.imageApply (bits (dw d 5) 7 0)).adminDone 0 Ad.success)

end Sys2Proof.Machine
end

