-- ==== Sys2Proof/Machine/Calibration.lean ====
section
/-!
DEFINITION. Writes of the calibration store (R539 to R541) and the three burns of fuses (R504, R549, R595).
-/
namespace Sys2Proof.Machine

/-! ### Calibration writes (R539 to R541) -/

/-- R539: a write is refused with BAD_STATE. -/
def Chip.calRefused (c : Chip) (l : Locks) : Bool := l.cal || c.cal.busy.isSome

/-- R540: the slot takes no further write. -/
def Chip.calWorn (c : Chip) (t : Nat) : Bool := decide (1000 ≤ (c.calSlot t).writes)

/-- A legal write starts: its slot is erased. -/
def Chip.calStart (c : Chip) (who : MaintWho) (t : Nat) (body : List Byte) : Chip :=
  let c := c.updCal t fun x => { x with bad := true }
  { c with cal := { c.cal with busy := some (who, t, body) } }

/-- CAL_WRITE (R539): `payload`: what the buffer holds. The DETAIL of an illegal body is a free value. (DESIGN CHOICE,
log 183) -/
def execCalWrite (payload : List Byte) (s : State) : Host.Outcome State Fault Refusal :=
  s.live fun c =>
    let (v, c) := c.fresh
    let ty := fun (d : List Word) => bits (dw d 5) 7 0
    let body := fun (c : Chip) (d : List Word) => (c.hostReadData 0 (admAddr d) (admLen d) payload).take (admLen d)
    c.admin 0 0x14
      (fun d => [badParam (calLen (ty d)).isNone 0x14 0, badParam (calLen (ty d) != some (admLen d)) 0x10 0,
        if calBodyOk (ty d) (body c d) then none else some (Ad.invalidParam, BitVec.ofNat 32 (Config.freeNat v)),
        lacking (c.calWorn (ty d)), badState (c.calRefused s.locks)])
      (fun d c => ((c.hostReadReq 0 (admAddr d) (admLen d)).adminBegun 0).calStart .admin (ty d) (body c d))

/-- R539, R541: the write ends; `ok`: the read-back matches. (DEDUCED, log 182) -/
def Chip.calDone (c : Chip) (who : MaintWho) (t : Nat) (body : List Byte) (ok : Bool) : Chip :=
  let st := if ok then Ad.success else Ad.testFail
  let c := c.updCal t fun x => { x with
    body := if ok then some body else x.body
    writes := x.writes + 1
    bad := !ok
    neutral := !ok }
  let c := { c with cal := { c.cal with busy := none, lastType := t, lastStat := st } }
  let c := if ok then c.shPulse 39 else c.report 0x140 Kind.uncorrectable 0
  c.maintDone who 0x14 0x0A st

/-- CAL_WRITE_DONE (R539). -/
def execCalWriteDone (ok : Bool) (s : State) : Host.Outcome State Fault Refusal :=
  s.run fun c =>
    match c.cal.busy with
    | none => c
    | some (who, t, body) => c.calDone who t body ok

/-! ### The burns (R504, R549, R595) -/

/-- Burns are started while the device is ACTIVE. (DEDUCED, log 185) -/
def Chip.burnable (c : Chip) : Bool := c.pwr.st == .active

/-- R504: the soft repairs not yet fused. -/
def Tst.unburnt (t : Tst) : Nat := t.sramSoft - t.sramBurnt

/-- R504, R517: a write of TST_FUSECTL. -/
def Chip.fuseCtl (c : Chip) (l : Locks) (o : Otp) (w : Word) : Chip :=
  if l.tst ∨ bits w 31 24 ≠ 0xA5 ∨ ¬ bit w 0 ∨ c.tst.fuseBusy ∨ ¬ c.burnable then c
  else if 256 < o.used + c.tst.unburnt then { c with tst := { c.tst with fuseErr := true } }
  else { c with tst := { c.tst with fuseBusy := true } }

/-- FUSE_BURN (R504). -/
def execFuseBurn (w : Word) (s : State) : Host.Outcome State Fault Refusal :=
  s.live fun c => c.fuseCtl s.locks s.otp w

/-- FUSE_BURN_DONE (R504). -/
def execFuseBurnDone (s : State) : Host.Outcome State Fault Refusal :=
  if s.chip.dead ∨ ¬ s.chip.tst.fuseBusy then .next s
  else .next { s with
    otp := { s.otp with used := s.otp.used + s.chip.tst.unburnt }
    chip := { s.chip with tst := { s.chip.tst with fuseBusy := false, sramBurnt := s.chip.tst.sramSoft } } }

/-- R549, R555: a write of GBL_KEYCTL. (DEDUCED, log 186; DEDUCED, log 187) -/
def Chip.keyCtl (c : Chip) (o : Otp) (w : Word) : Chip :=
  let c := { c with boot := { c.boot with keyErr := c.boot.keyErr && !bit w 1 } }
  if !bit w 0 then c
  else if bits w 31 24 ≠ 0xC3 ∨ c.boot.keyBusy ∨ o.keyHash.isSome ∨ ¬ c.burnable then
    { c with boot := { c.boot with keyErr := true } }
  else { c with boot := { c.boot with
    keyBusy := true
    keyBurn := (List.range 8).map (Tab.get (fun _ => 0#32) c.boot.keyStage) } }

/-- KEY_HASH_PROG (R549). -/
def execKeyHashProg (w : Word) (s : State) : Host.Outcome State Fault Refusal :=
  s.live fun c => c.keyCtl s.otp w

/-- KEY_HASH_BURN_DONE (R549): the hash written is the part's for good; words that hold one already keep it (R504). -/
def execKeyHashBurnDone (s : State) : Host.Outcome State Fault Refusal :=
  if s.chip.dead ∨ ¬ s.chip.boot.keyBusy then .next s
  else .next { s with
    otp := { s.otp with keyHash := s.otp.keyHash.or (some s.chip.boot.keyBurn) }
    chip := { s.chip with boot := { s.chip.boot with keyBusy := false, keyBurn := [] } } }

/-- R595, R596: a write of GBL_DBG. -/
def Chip.dbgCtl (c : Chip) (o : Otp) (w : Word) : Chip :=
  let c := { c with aon := { c.aon with dbgErr := c.aon.dbgErr && !bit w 3 } }
  if !bit w 0 then c
  else if bits w 31 24 ≠ 0x96 ∨ c.aon.dbgBusy ∨ o.dbgLock ∨ ¬ c.burnable then { c with aon := { c.aon with dbgErr := true } }
  else { c with aon := { c.aon with dbgBusy := true } }

/-- DEBUG_LOCK_BURN (R595). -/
def execDebugLockBurn (w : Word) (s : State) : Host.Outcome State Fault Refusal :=
  s.live fun c => c.dbgCtl s.otp w

/-- DEBUG_LOCK_BURN_DONE (R595): the TAP is forced into Test-Logic-Reset, with IDCODE. -/
def execDebugLockBurnDone (s : State) : Host.Outcome State Fault Refusal :=
  if s.chip.dead ∨ ¬ s.chip.aon.dbgBusy then .next s
  else .next { s with
    otp := { s.otp with dbgLock := true }
    jtag := {}
    chip := { s.chip with aon := { s.chip.aon with dbgBusy := false } } }

end Sys2Proof.Machine
end

