-- ==== Sys2Proof/Machine/Post.lean ====
section
/-!
DEFINITION. Device reset (R72, R502, R591, R593, R611, R612), power-on self-test (R495 to R508), and the temperature sensors
(R614).
-/
namespace Sys2Proof.Machine

/-! ### Device reset -/

/-- What survives RESET_N: the history mirror (R489), the calibration store, the retained DEVICE values (R553), the
count of self-tests since power-on (R517), the strap samples (R591), the levels of the balls, the temperature, and the
model's own record. (DEDUCED, log 184; DEDUCED, log 192) -/
def Chip.deviceReset (c : Chip) : Chip :=
  let d : Chip :=
    { out := c.out
      free := c.free
      hist := c.hist
      cal := { slots := c.cal.slots }
      boot := { devPend := c.boot.devPend }
      tst := { count := c.tst.count }
      tth := { strap := c.tth.strap }
      lny := { vbus := c.lny.vbus }
      pci := { perst := c.pci.perst }
      aon := { temp := c.aon.temp, testen := c.aon.testen } }
  if c.lny.vbus then d.updSh 38 fun x => { x with src := { x.src with input := true } } else d

/-- A device reset: everything but the fuses and the test access port (R17, R72). (DEDUCED, log 193) -/
def State.deviceReset (s : State) : State := { s with chip := s.chip.deviceReset, locks := {} }

/-- R612: a low pulse of between 2 and 10 always-on cycles either gives a device reset or has no effect. -/
def Chip.resetTaken (c : Chip) (n : Nat) : Bool := decide (10 ≤ n) || (decide (2 ≤ n) && Config.freeNat c.free % 2 == 1)

/-- RESET_N_ASSERT (R612): RESET_N has been low for `n` always-on cycles. -/
def execResetNAssert (n : Fin 65536) (s : State) : Host.Outcome State Fault Refusal :=
  if s.chip.aon.off ∨ n.val < 2 then .next s
  else
    let taken := s.chip.resetTaken n
    let s := { s with chip := s.chip.fresh.2 }
    if taken then
      let r := s.deviceReset
      .next { r with chip := { r.chip with aon := { r.chip.aon with resetN := true } } }
    else .next s

/-- RESET_N_RELEASE (R495, R497, R611): self-test starts, unless the straps hold the part in the factory test mode. -/
def execResetNRelease (s : State) : Host.Outcome State Fault Refusal :=
  .next { s with chip := if s.chip.aon.off then s.chip else { s.chip with aon := { s.chip.aon with resetN := false } } }

/-- POWER_ON (R591, R593, R611): VDD_AON has risen with RESET_N low. (DESIGN CHOICE, log 8) -/
def execPowerOn (strap : Fin 8) (testen : Bool) (s : State) : Host.Outcome State Fault Refusal :=
  let c := s.chip
  .next { s with
    locks := {}
    jtag := {}
    chip :=
      { out := c.out
        free := c.free
        cal := { slots := c.cal.slots }
        tth := { strap := strap.val }
        lny := { vbus := c.lny.vbus }
        pci := { perst := c.pci.perst }
        aon := { testen := testen, resetN := true } } }

/-- SUPPLY_FALL (R593). -/
def execSupplyFall (r : Rail) (s : State) : Host.Outcome State Fault Refusal :=
  match r with
  | .dram => .next { s with chip := { s.chip with aon := { s.chip.aon with dramFell := true } } }
  | _ =>
    let c := s.chip
    .next { s with
      locks := {}
      jtag := if r = .aon then {} else s.jtag
      chip :=
        { out := c.out
          free := c.free
          cal := { slots := c.cal.slots }
          lny := { vbus := c.lny.vbus }
          pci := { perst := c.pci.perst }
          aon := { off := true, resetN := c.aon.resetN } } }

/-! ### The stages (R496, R503 to R507) -/

def Chip.updTst (c : Chip) (g : Tst → Tst) : Chip := { c with tst := g c.tst }
def Chip.updTstClu (c : Chip) (k : Nat) (g : TstClu → TstClu) : Chip :=
  c.updTst fun t => { t with clu := Tab.upd (fun _ => {}) t.clu k g }

/-- The next stage starts. -/
def Chip.postNext (c : Chip) : Chip := if c.tst.safe then c else c.updTst fun t => { t with stage := t.stage + 1 }

/-- R541: stage 1 checks each slot of the calibration store. -/
def Chip.calCheck (c : Chip) (found : List Nat) : Chip :=
  let types := 0x01 :: (List.range 32).map (· + 0x10)
  c.each (types.filter fun t => found.contains t || (c.calSlot t).bad) fun c t =>
    (c.updCal t fun x => { x with bad := true, neutral := true }).report 0x140 Kind.uncorrectable 0

/-- R507: lanes are disabled; each is reported from its own source. -/
def Chip.laneOut (c : Chip) (ls : List Nat) : Chip :=
  c.each ls fun c l =>
    let c := (c.updLane l fun x => { x with present := false, disabled := true, off := 2 }).updTst fun t => { t with
      laneFail := (List.range 32).filter fun j => j == l || t.laneFail.contains j }
    c.report (0x0B0 + l) Kind.selftestFail 0

/-- R508: ports are out of service. -/
def Chip.portsOut (c : Chip) (ps : List Nat) : Chip :=
  c.updTst fun t => { t with portBad := (List.range 128).filter fun p => ps.contains p || t.portBad.contains p }

/-- Stage 2: the branches of R462 and R464. -/
def Chip.postPower (c : Chip) (f : PowerFound) : Chip :=
  match f with
  | .good => c.postNext
  | .regulator r => c.each (List.range 4) fun c _ => c.regFail r
  | .oscillator => c.mgmtOnly 2
  | .pll => (c.updPwr fun x => { x with retries := satAdd 15 x.retries 1 }).mgmtOnly 3

/-- R506: cluster `k`. The ports out of service report nothing (R508). -/
def Chip.postClu (c : Chip) (f : PostFound) (k : Nat) : Chip :=
  let all := (List.range 8).map fun i => 8 * k + i
  if (f.clusters.map Fin.val).contains k then
    ((c.updTstClu k fun x => { x with cluFail := true }).portsOut all).report (0x080 + k) Kind.selftestFail 0
  else
    let es := all.filter fun p => (f.engines.map Fin.val).contains p
    let ph := all.filter fun p => (f.phys.map Fin.val).contains p
    let bad := (f.spares.map Fin.val).contains k
    let c := if bad then (c.updClu k fun x => { x with spareFailed := true }).report (0x090 + k) Kind.selftestFail 0 else c
    let c := c.each es fun c p => c.updPort p fun x => { x with ownFailed := true }
    let c := match es, bad with
      | p :: rest, false =>
        ((c.updPort p fun x => { x with spare := true }).updTstClu k fun x => { x with spareUsed := true, sparePos := p % 8 }).portsOut rest
      | _, _ => c.portsOut es
    let c := (c.updTstClu k fun x => { x with phyFail := ph.foldl (fun a p => a + 2 ^ (p % 8)) 0 }).portsOut ph
    let c := if (f.monitors.map Fin.val).contains k then
        ((c.updTstClu k fun x => { x with monFail := true }).portsOut all).report (0x080 + k) Kind.selftestFail 0
      else c
    c.each (es.filter fun p => !c.outOfService p) fun c p => c.report p Kind.selftestFail 0

/-- R499: the device has fewer resources than the maximum figures. -/
def Chip.isDegraded (c : Chip) : Bool :=
  ((List.range 16).any fun k => !c.spareFree k) || c.lanesPresent.length < 32 || !c.tst.portBad.isEmpty || c.grn.retired != 0 ||
  c.tst.netFail

/-- R499: the end of stage 10. -/
def Chip.postEnd (c : Chip) (o : Otp) (ms : Nat) : Chip :=
  let c := c.updTst fun t => { t with
    sramFused := o.used
    degraded := c.isDegraded
    postdone := true
    stage := 0
    count := satAdd 0xFFFF t.count 1
    ms := ms }
  (c.shPulse 40).each ((List.range 128).filter fun p => !c.outOfService p) fun c p => c.updPw p fun y => { y with enableDue := some false }

/-- The stage in progress ends with what it has found. (DEDUCED, log 190) -/
def Chip.postStage (c : Chip) (o : Otp) (f : PostFound) : Chip :=
  match c.tst.stage with
  | 1 => if f.ok then (c.calCheck (f.calBad.map Fin.val)).postNext else c.postFail
  | 2 => c.postPower f.power
  | 3 =>
    if !f.ok then (c.updTst fun t => { t with fabricBad := f.fabric }).postFail
    else ((c.updTst fun t => { t with sramSoft := f.soft, sramBurnt := 0 }).laneOut (f.lanes.map Fin.val)).postNext
  | 4 | 5 => if f.ok then c.postNext else c.postFail
  | 6 =>
    if !f.ok then c.postFail
    else
      let c := (c.updTst fun t => { t with dramRep := f.rowsRep, dramUnrep := f.rowsBad, relocBad := f.reloc }).updGrn fun g => { g with retired := f.cells }
      let c := { c with aon := { c.aon with dramFell := false } }
      let c := c.poolJudge.postNext
      if c.tst.safe then c else c.emit (.flashRead 0)
  | 7 =>
    let c := c.laneOut (f.lanes.map Fin.val)
    if c.lanesPresent.isEmpty then c.enterSafe 7 else c.postNext
  | 8 =>
    let c := if f.network then
        ((c.updTst fun t => { t with netFail := true }).report 0x110 Kind.selftestFail 0).report 0x111 Kind.selftestFail 0
      else c
    c.postNext
  | 9 => (c.each (List.range 16) fun c k => c.postClu f k).postNext
  | 10 => if c.boot.read then c.postEnd o f.ms else c
  | _ => c

/-- POST_STAGE_DONE (R496). -/
def execPostStageDone (found : PostFound) (s : State) : Host.Outcome State Fault Refusal :=
  s.live fun c => if c.tst.postdone || c.pwr.st != .active then c else c.postStage s.otp found

/-! ### The temperature sensors (R614) -/

/-- THERMAL_SAMPLE (R482, R614): the highest reading, in 0.25 °C steps. Shared source 32 is judged while the fabric
island is clocked. (DEDUCED, log 176) -/
def execThermalSample (t : BitVec 11) (s : State) : Host.Outcome State Fault Refusal :=
  s.run fun c =>
    let was := c.aon.temp
    let warn := (4 * (c.aon.warnTh : Int))
    let c := { c with aon := { c.aon with temp := t } }
    let hot := (c.sh 32).src.input
    let c := if !c.fabricClocked then c
      else if !hot && decide (warn ≤ t.toInt) then (c.shInput 32 true).report 0x180 Kind.thermalWarn 0
      else if hot && decide (t.toInt ≤ warn - 20) then c.shInput 32 false
      else c
    if 460 ≤ t.toInt ∧ (c.aon.crit = false ∨ was.toInt < 460) then
      (({ c with aon := { c.aon with crit := true } }).report 0x180 Kind.thermalCrit 0).enterSafe 3 0x180 Kind.thermalCrit
    else c

end Sys2Proof.Machine
end

