-- ==== Sys2Proof/Machine/Jtag.lean ====
section
/-!
DEFINITION. The test access port (R590, R594, R595).
-/
namespace Sys2Proof.Machine

/-- The TAP controller's next state (IEEE 1149.1), by TMS. -/
def Tap.next (t : Tap) (tms : Bool) : Tap :=
  match t, tms with
  | .reset, true => .reset
  | .reset, false => .idle
  | .idle, true => .selDr
  | .idle, false => .idle
  | .selDr, true => .selIr
  | .selDr, false => .capDr
  | .capDr, true => .ex1Dr
  | .capDr, false => .shDr
  | .shDr, true => .ex1Dr
  | .shDr, false => .shDr
  | .ex1Dr, true => .updDr
  | .ex1Dr, false => .pauDr
  | .pauDr, true => .ex2Dr
  | .pauDr, false => .pauDr
  | .ex2Dr, true => .updDr
  | .ex2Dr, false => .shDr
  | .updDr, true => .selDr
  | .updDr, false => .idle
  | .selIr, true => .reset
  | .selIr, false => .capIr
  | .capIr, true => .ex1Ir
  | .capIr, false => .shIr
  | .shIr, true => .ex1Ir
  | .shIr, false => .shIr
  | .ex1Ir, true => .updIr
  | .ex1Ir, false => .pauIr
  | .pauIr, true => .ex2Ir
  | .pauIr, false => .pauIr
  | .ex2Ir, true => .updIr
  | .ex2Ir, false => .shIr
  | .updIr, true => .selDr
  | .updIr, false => .idle

/-- R594: what an instruction selects. -/
inductive TapInstr where
  | idcode | boundary | clamp | highz | debug | bypass
  deriving DecidableEq, Repr

/-- R594: the instructions, unlocked or locked. -/
def tapInstr (locked : Bool) (code : Nat) : TapInstr :=
  if code = 0x01 then .idcode
  else if locked then .bypass
  else if code = 0x02 ∨ code = 0x03 then .boundary
  else if code = 0x04 then .clamp
  else if code = 0x05 then .highz
  else if 0x80 ≤ code ∧ code ≤ 0xFE then .debug
  else .bypass

/-- R594: EXTEST, CLAMP and HIGHZ take the covered pads from the device. (DESIGN CHOICE, log 216) -/
def takesPads (locked : Bool) (code : Nat) : Bool := !locked && decide (3 ≤ code) && decide (code ≤ 5)

/-- R594: the IDCODE register. -/
def idcode : Nat := 0x20128001

/-- A rising edge of TCK: what the present state captures or shifts, and the next state. -/
def Jtag.rise (j : Jtag) (locked tms tdi : Bool) : Jtag :=
  let i := tapInstr locked j.ir
  let j := match j.tap with
    | .capIr => { j with irSh := 4 * Config.irCapture.toNat + 1 }
    | .shIr => { j with irSh := j.irSh / 2 + 128 * b2n tdi }
    | .capDr => { j with drSh := if i = TapInstr.idcode then idcode else 0 }
    | .shDr => { j with drSh := if i = TapInstr.idcode then j.drSh / 2 + 2 ^ 31 * b2n tdi else b2n tdi }
    | _ => j
  let t := j.tap.next tms
  if t = .reset then { j with tap := t, ir := 1, taken := false } else { j with tap := t }

/-- A falling edge of TCK: TDO follows the shift register, and is high impedance outside the shift states; Update-IR
puts the instruction in force. `free`: what the boundary register, whose cells the spec leaves to the BSDL file,
sends. (DESIGN CHOICE, log 215) -/
def Jtag.fall (j : Jtag) (locked free : Bool) : Jtag :=
  match j.tap with
  | .shIr => { j with tdo := some (j.irSh % 2 == 1) }
  | .shDr => { j with tdo := some (if tapInstr locked j.ir = .boundary then free else j.drSh % 2 == 1) }
  | .updIr => { j with tdo := none, ir := j.irSh, taken := takesPads locked j.irSh }
  | _ => { j with tdo := none }

/-- R594: the edge is a scan of the debug data register. (DESIGN CHOICE, log 217) -/
def Jtag.debugScan (j : Jtag) (locked rising : Bool) : Bool :=
  rising && tapInstr locked j.ir == .debug && (j.tap == .capDr || j.tap == .shDr)

/-- TCK_EDGE (R590, R594, R595): an edge of TCK, with TMS, TDI and TRST_N. The scan of the data register of a debug
instruction, of which the spec says only that Haldist's repair tooling uses it, is refused. (DEDUCED, log 214) -/
def execTckEdge (rising tms tdi trstN : Bool) (s : State) : Host.Outcome State Fault Refusal :=
  if s.chip.aon.off then .next s
  else if !trstN then .next { s with jtag := {} }
  else if s.jtag.debugScan s.otp.dbgLock rising then .refused .debugAccess
  else if rising then .next { s with jtag := s.jtag.rise s.otp.dbgLock tms tdi }
  else
    let v := s.chip.fresh
    .next { s with jtag := s.jtag.fall s.otp.dbgLock (Config.freeNat v.1 % 2 == 1), chip := v.2 }

end Sys2Proof.Machine
end

