-- ==== Sys2Proof/Machine/Registers.lean ====
section
/-!
DEFINITION. What every register reads as (R43 to R45, R60 to R65, R122, R126, R127, R197, R198, R231, R268, R269, R301 to
R303, R328 to R330, R371, R396 to R398, R422, R423, R470, R488, R493, R494, R517, R518, R555 to R558, R596, R615). An offset
that no table lists is reserved and reads 0 (R38); so do reserved bits (R18).
-/
namespace Sys2Proof.Machine

/-- An offset within an array of `n` groups of `stride` bytes from `base`: the group, and the offset within it. -/
def arr (o base stride n : Nat) : Option (Nat × Nat) :=
  if base ≤ o ∧ o < base + stride * n then some ((o - base) / stride, (o - base) % stride) else none

/-- Dword `k` of the bitmap of the numbers below `n` that satisfy `p`. -/
def bitMap (n : Nat) (p : Nat → Bool) (k : Nat) : Word := mapWord ((List.range n).filter p) k

/-! ### A function's page (R39) -/

/-- STATE of a source (R397). -/
def SrcState.code : SrcState → Nat
  | .idle => 0
  | .pending => 1
  | .active => 2
  | .activePending => 3

/-- The vectors whose EVT_VCLAIMv and EVT_VCOALv a function has (R396). -/
def evtVecs (f : Nat) : Nat := if f = 0 then 64 else 16

/-- A status register of a source, less its own bit 12 (R397, R398). -/
def Src.statBits (s : Src) : List (Nat × Nat) := [(b2n s.input, 13), (s.st.code, 8), (s.arrivals, 0)]

/-- The private event bank (R396, R397). A claim register reads the claim value, which the read then takes (R386).
(DESIGN CHOICE, log 229) -/
def Chip.evtVal (c : Chip) (f o : Nat) : Word :=
  let b := (c.fn f).evt
  match o with
  | 0x1000 => mkWord [(b2n b.gdis, 31), (b2n b.rlost, 30), (b2n b.cfgerr, 29)]
  | 0x1004 => (c.claim f none).1
  | 0x100C => mkWord [(b.stray, 0)]
  | 0x1010 => bitMap 32 (fun i => (c.src f i).st.isPending) 0
  | 0x1014 => bitMap 32 (fun i => (c.src f i).st.isActive) 0
  | 0x1018 => bitMap 64 (fun i => (c.sh i).target == f && (c.sh i).src.st.isPending) 0
  | 0x101C => bitMap 64 (fun i => (c.sh i).target == f && (c.sh i).src.st.isPending) 1
  | _ =>
    match arr o 0x1100 4 (evtVecs f), arr o 0x1200 4 (evtVecs f), arr o 0x1400 8 32 with
    | some (v, _), _, _ => if v < (c.fn f).vectors then (c.claim f (some v)).1 else 0#32
    | _, some (v, _), _ => mkWord [((c.vec f v).time, 16), ((c.vec f v).c, 8), ((c.vec f v).count, 0)]
    | _, _, some (i, 0) => mkWord [(b2n (c.src f i).enable, 31), (if isLevelSrc i then 0 else 2, 16), ((c.src f i).prio, 8),
        ((c.src f i).vector, 0)]
    | _, _, some (i, _) => mkWord (c.src f i).statBits
    | _, _, _ => 0#32

/-- MODE of a WQ (R126). -/
def WqMode.code : WqMode → Nat
  | .poll => 0
  | .doorbell => 1
  | .push => 2

/-- The registers of WQ `n` (R126, R97). -/
def Chip.wqVal (c : Chip) (f n r : Nat) : Word :=
  match c.wq f n, r with
  | some q, 0x0 => mkWord [(1, 31), (b2n q.stopped, 30), (b2n ((c.cq f q.cq).any Cq.held), 29), (q.mode.code, 26), (q.log2, 21),
      (q.err, 16), (min 3 q.work.length, 4), (q.cq, 0)]
  | some q, 0x4 => if q.mode = .poll then q.ccount else q.pobs
  | some q, 0x8 => q.ccount
  | some q, _ => mkWord [(c.dbign f n, 16), (q.missed, 0)]
  | none, 0xC => mkWord [(c.dbign f n, 16)]
  | none, _ => 0#32

/-- The registers of CQ `n` (R127). -/
def Chip.cqVal (c : Chip) (f n r : Nat) : Word :=
  match c.cq f n, r with
  | some q, 0x0 => mkWord [(1, 31), (b2n q.held, 30), (b2n (!q.spill.isEmpty), 29), (b2n q.badcons, 28), (q.log2, 21),
      (q.spill.length, 0)]
  | some q, 0x4 => q.pcount
  | some q, 0x8 => q.ccount
  | some q, _ => mkWord [(q.peak, 16), (q.spillSize, 0)]
  | none, _ => 0#32

/-- The FN page of function `f` (R60 to R64, R122, R126, R127, R488). -/
def Chip.fnVal (c : Chip) (f o : Nat) : Word :=
  let x := c.fn f
  let q := x.aq
  match o with
  | 0x0000 => c.fnId f
  | 0x0004 => mkWord [(b2n x.nosnoop, 0)]
  | 0x0008 => mkWord [(x.lost, 16), (b2n (c.dmaHeld f), 3), (b2n x.resetDone, 2), (b2n x.ownchg, 1), (b2n x.reshaped, 0)]
  | 0x000C => x.allocWord
  | 0x0010 => x.quotaWord
  | 0x0100 => q.sqBase.extractLsb' 0 32
  | 0x0104 => q.sqBase.extractLsb' 32 32
  | 0x0108 => q.cqBase.extractLsb' 0 32
  | 0x010C => q.cqBase.extractLsb' 32 32
  | 0x0110 => mkWord [(b2n q.enable, 31), (q.cqLog, 8), (q.sqLog, 0)]
  | 0x0114 => mkWord [(q.err, 4), (b2n q.badcons, 2), (b2n q.stopped, 1), (b2n q.ready, 0)]
  | 0x0118 => q.sqC
  | 0x011C => q.cqP
  | 0x0C00 => mkWord [(x.fltKind, 26), (x.fltSource, 16), (x.fltMfn.toNat, 0)]
  | 0x0C04 => mkWord [(x.fltCount, 0)]
  | _ =>
    match arr o 0x20 4 4, arr o 0x400 16 64, arr o 0x800 16 16 with
    | some (k, _), _, _ => bitMap 128 (fun p => c.ownerOf p == f && !((c.own p).moving && (c.own p).cut)) k
    | _, some (n, r), _ => c.wqVal f n r
    | _, _, some (n, r) => c.cqVal f n r
    | _, _, _ => c.evtVal f o

/-! ### PF0's blocks (R37) -/

/-- GBL (R43 to R45, R65, R555, R596, R615). -/
def Chip.gblVal (c : Chip) (t : Otp) (o : Nat) : Word :=
  let b := c.boot
  match o with
  | 0x00 => 0x1F9D8002#32
  | 0x04 => mkWord [(c.mfn.toNat, 0)]
  | 0x08 => mkWord [(b2n c.tst.degraded, 3), (b2n (c.pwr.st == .mgmtOnly), 2), (b2n c.tst.safe, 1), (b2n c.tst.postdone, 0)]
  | 0x20 => mkWord [(b2n t.keyHash.isNone, 31), (b2n b.devPend.isSome, 30), (b2n b.cacheLost, 29), (b2n b.noImage, 28),
      (b2n b.quad, 27), (b.slot, 24), (match b.running with | some x => x.ver | none => 0, 0)]
  | 0x24 => mkWord [(b2n b.staged.isSome, 31), (b2n (!b.inForce.isEmpty), 30), (match b.staged with | some x => x.ver | none => 0, 0)]
  | 0x80 => mkWord [(b2n b.keyBusy, 2), (b2n b.keyErr, 1)]
  | 0x90 => mkWord [(b2n c.aon.dbgErr, 3), (b2n c.aon.dbgBusy, 2), (b2n t.dbgLock, 1)]
  | 0x94 => mkWord [(b2n (c.sh 32).src.input, 31), (b2n c.aon.crit, 30), (c.aon.warnTh, 16), (c.aon.temp.toNat, 0)]
  | _ =>
    match arr o 0x40 4 8, arr o 0x60 4 8, arr o 0x100 4 128 with
    | some (k, _), _, _ => dw (t.keyHash.getD []) k
    | _, some (k, _), _ => Tab.get (fun _ => 0#32) b.keyStage k
    | _, _, some (p, _) => mkWord [(b2n (c.own p).moving, 31), ((c.own p).owner, 0)]
    | _, _, _ => 0#32

/-- PWR_STATUS.STATE (R470). -/
def PwrState.code : PwrState → Nat
  | .active => 0
  | .doze => 1
  | .nap => 2
  | .deep => 3
  | .wakeFail => 4
  | .entering => 5
  | .exiting | .mgmtOnly => 6

/-- PWR (R470). PWR_WAKETMR reads the remaining count: a free value from 1 to the value loaded, while it runs (log 3). -/
def Chip.pwrVal (c : Chip) (l : Locks) (o : Nat) : Word :=
  let x := c.pwr
  match o with
  | 0x00 => mkWord [(b2n l.pwr, 31)]
  | 0x04 => mkWord [(x.st.code, 29), (b2n x.hostOn, 28), (x.lastRes, 24), (x.clusleep, 0)]
  | 0x08 => mkWord [(x.deepWait, 24), (x.napWait, 16), (x.dozeIdle, 8), (b2n x.wakeOut, 1), (b2n x.tetherWake, 0)]
  | 0x0C => mkWord [(x.wakeSrc, 0)]
  | 0x10 => if x.wakeTmr = 0#32 then 0#32 else BitVec.ofNat 32 (1 + Config.freeNat c.free % x.wakeTmr.toNat)
  | 0x14 => mkWord [(x.slept, 0)]
  | 0x18 => mkWord [(x.failStep, 28), (x.retries, 24), (x.dur, 0)]
  | 0x1C => mkWord [(x.retLost0, 0)]
  | 0x20 => mkWord [(x.retLost1, 0)]
  | 0x24 => mkWord [(x.entries, 16), (x.aborts, 0)]
  | 0x28 => match x.wakePort with | some p => mkWord [(1, 7), (p, 0)] | none => 0#32
  | _ =>
    match arr o 0x30 4 4, arr o 0x40 4 4 with
    | some (k, _), _ => mapWord x.armed k
    | _, some (k, _) => mapWord x.auto k
    | _, _ => 0#32

/-- FLT (R493, R494). (DEDUCED, log 178) -/
def Chip.fltVal (c : Chip) (l : Locks) (o : Nat) : Word :=
  let x := c.flt
  let s := c.fltSrc x.sel
  match o with
  | 0x00 => mkWord [(b2n l.flt, 31)]
  | 0x04 => mkWord [(b2n c.faultN, 31), (b2n x.cfgerr, 30), (c.severeNums.length, 16), (c.minorNums.length, 0)]
  | 0x08 => x.kindsev0
  | 0x0C => x.kindsev1
  | 0x10 => mkWord [(b2n c.hist.valid, 31), (c.hist.seq, 0)]
  | 0x14 => mkWord [(x.dropped, 0)]
  | 0x20 => mkWord [(x.sel, 0)]
  | 0x24 => mkWord [(s.n, 24), (s.w, 0)]
  | 0x28 => mkWord [(s.action, 29), (b2n s.fnminor, 28), (s.t, 0)]
  | 0x2C => mkWord [(b2n s.severe, 31), (b2n s.minor, 30), (b2n s.escalated, 29), (b2n (c.cause x.sel).isSome, 28), (b2n s.win, 27),
      (s.lastKind, 21), (s.count, 0)]
  | 0x30 => mkWord [(s.tot, 0)]
  | _ =>
    match arr o 0x100 4 32, arr o 0x180 4 32, arr o 0x800 16 32 with
    | some (k, _), _, _ => mapWord c.severeNums k
    | _, some (k, _), _ => mapWord c.minorNums k
    | _, _, some (k, r) => match Tab.find c.hist.slots k with
      | some e => dw e.dwords (r / 4)
      | none => 0#32
    | _, _, _ => 0#32

/-- The shared sources (R398). -/
def Chip.evshVal (c : Chip) (l : Locks) (o : Nat) : Word :=
  if o = 0 then mkWord [(b2n l.evt, 31), (c.evsh.gfilt, 0)]
  else match arr o 0x100 16 64 with
  | none => 0#32
  | some (s, r) =>
    let x := c.sh s
    match r with
    | 0x0 => mkWord [(b2n x.src.enable, 31), (b2n x.wake, 30), (x.sense.code, 16), (x.src.prio, 8), (x.src.vector, 0)]
    | 0x4 => mkWord [(if x.src.st.isActive then x.claimer else 0, 16), (x.target, 0)]
    | 0x8 => mkWord ((b2n x.latched, 12) :: x.src.statBits)
    | _ => 0#32

/-- SCH (R197, R198). -/
def Chip.schVal (c : Chip) (l : Locks) (o : Nat) : Word :=
  let x := c.sch
  match o with
  | 0x00 => mkWord [(b2n l.sch, 31), (x.perMax, 0)]
  | 0x04 => mkWord [(b2n ((List.range 128).any fun p => (c.port p).sc.hold), 2), (b2n x.recovering, 1), (b2n x.running, 0)]
  | 0x08 => mkWord [(x.count, 16), (x.lastDur, 0)]
  | 0x0C => mkWord [(x.at_.toNat, 0)]
  | 0x10 => mkWord [(x.selPort, 16), (x.selPos, 0)]
  | 0x14 =>
    let v := c.loadAt x.selPort x.selPos []
    if (c.port x.selPort).speed = some .high ∨ x.selPos < 32 then mkWord [(v.2, 16), (v.1, 0)] else 0#32
  | 0x18 => bitMap 16 (fun k => (c.clu k).locked) 0
  | _ =>
    match arr o 0x1000 0x20 128 with
    | none => 0#32
    | some (p, r) =>
      let s := (c.port p).sc
      match r with
      | 0x00 => mkWord [(p % 16, 16), (s.isoLag, 0)]
      | 0x04 =>
        let v := c.maxLoad p ((c.port p).speed.getD .high)
        mkWord [(v.2, 16), (v.1, 0)]
      | 0x08 => mkWord [(s.ratioPeak, 16), (s.ratio, 0)]
      | 0x0C => mkWord [(s.writeoff, 16), (s.slips, 0)]
      | 0x10 => mkWord [(s.missed, 16), (s.late, 0)]
      | 0x14 => mkWord [(s.planLate, 16), (s.holdMf, 0)]
      | 0x18 => mkWord [(s.nakSkip, 16), (s.lastN, 0)]
      | _ => 0#32

def lineCode (l : Line) : Nat :=
  match l with
  | .se0 => 0
  | .j => 1
  | .k => 2

/-- PRT (R231, R268). -/
def Chip.prtVal (c : Chip) (p o : Nat) : Word :=
  let x := c.port p
  let y := x.pw
  match o with
  | 0x000 => mkWord [(b2n x.lpmEn, 16), (b2n x.autoRec, 15), (x.testMode, 8)]
  | 0x004 => c.prtStatus p
  | 0x008 => mkWord [(x.event, 0)]
  | 0x00C => mkWord [(x.l1Idle, 8), (x.besl, 0)]
  | 0x010 => mkWord [(b2n x.resValid, 31), (b2n x.resHost, 30), (b2n x.resRws, 29), (b2n x.resL1, 28), (x.resMfn.toNat, 0)]
  | 0x014 => mkWord [(x.crcErr, 16), (x.timeouts, 0)]
  | 0x018 => mkWord [(x.babbles, 24), (x.strikes, 16), (x.pidErr, 0)]
  | 0x01C => mkWord [(x.failovers, 24), (if x.spare then 8 else p % 8, 16), (x.ckptMfn.toNat, 0)]
  | 0x100 => mkWord [(b2n x.rwen, 8), (x.pullup, 2), (lineCode x.line, 0)]
  | 0x104 => mkWord [(b2n y.ilimHi, 1), (b2n y.pwrOff, 0)]
  | 0x108 => mkWord [(y.shed, 16), (y.boDly, 12), (y.retryMax, 8), (y.retryDly, 0)]
  | 0x10C => mkWord [(y.left, 12), (y.reason, 8), (vwin y.filt, 6), (b2n y.health, 2), (b2n y.oc, 1), (b2n y.en, 0)]
  | 0x110 => mkWord [(y.median, 16), (y.filt, 0)]
  | 0x114 => mkWord [(y.ocCnt, 24), (y.boCnt, 16), (y.swCnt, 8), (y.ovCnt, 0)]
  | 0x118 => mkWord [(b2n y.cdpSeen, 1), (b2n y.cdpEn, 0)]
  | 0x11C => mkWord [((c.devsOf p).length % 256, 24), (x.lastReason, 8), (x.lastStep, 4), (x.run.step, 0)]
  | _ => 0#32

/-- CLU (R269). -/
def Chip.cluVal (c : Chip) (k o : Nat) : Word :=
  let x := c.clu k
  match o with
  | 0x00 => mkWord [(b2n x.linkUp, 31), (b2n x.held, 30), (x.health, 8), (x.oc, 0)]
  | 0x04 => mkWord [(x.crcErr, 16), (x.losses, 0)]
  | 0x08 => mkWord [(x.median, 16), (x.filt, 0)]
  | 0x0C => mkWord [(x.limit, 0)]
  | 0x10 => mkWord [(x.iirk, 0)]
  | _ => match arr o 0x40 4 9 with
    | some (n, _) => c.monCal k n
    | none => 0#32

/-- GRN (R301 to R303). PROGRESS is that of the DRAM pass that runs, of 4,096 units. -/
def Chip.grnVal (c : Chip) (l : Locks) (o : Nat) : Word :=
  let g := c.grn
  match o with
  | 0x00 => mkWord [(b2n l.grn, 31), (b2n g.sramScrub, 1), (b2n g.dramScrub, 0)]
  | 0x04 => mkWord [(g.poolMb, 16), (g.homedMb / 8, 4), (g.spillMb / 8, 0)]
  | 0x08 => mkWord [(g.total, 0)]
  | 0x0C => mkWord [(c.freeCells, 0)]
  | 0x10 => mkWord [(c.resvCells, 0)]
  | 0x14 => mkWord [(g.retired, 0)]
  | 0x18 => mkWord [(c.spillFree % 4096, 0)]
  | 0x1C => mkWord [(g.dramUnc, 16), (g.dramCor, 0)]
  | 0x20 => mkWord [(g.sramUnc, 16), (g.sramCor, 0)]
  | 0x24 => match g.lastUe with | some (_, a) => BitVec.ofNat 32 a | none => 0#32
  | 0x28 => match g.lastUe with | some (k, a) => mkWord [(1, 31), (k, 28), (a / 2 ^ 32 % 256, 0)] | none => 0#32
  | 0x2C => mkWord [(g.sramSec, 16), (g.dramHrs, 0)]
  | 0x30 => mkWord [(g.passes, 16), (match c.scrubOp with | some op => min 65535 (op.progress * 16) | none => 0, 0)]
  | 0x34 => mkWord [(g.reads.length, 16), (g.waiters.length, 0)]
  | 0x38 => mkWord [(b2n g.cfgerr, 0)]
  | 0x40 => mkWord [(b2n g.ctlDir, 16), (g.sel, 0)]
  | _ =>
    match arr o 0x1000 4 128, c.ep g.sel with
    | some (f, _), _ => if c.fnExists f then mkWord [(c.fnUse f, 0)] else 0#32
    | none, none => 0#32
    | none, some e =>
      let inDir := if e.type = .control then g.ctlDir else e.isIn
      match o with
      | 0x44 => mkWord [(e.waitLim, 24), (e.qc, 16)]
      | 0x48 => if inDir then mkWord [(e.hmIn, 16), (e.lmIn, 0)] else mkWord [(e.hmOut, 16), (e.lmOut, 0)]
      | 0x4C => mkWord [(1, 31), (b2n e.waiting, 30), (e.reserve, 27), (e.heldCells, 18), (e.dataCells, 9)]
      | 0x50 => mkWord [(e.aborts, 16), (e.maxWait, 0)]
      | _ => 0#32

/-- DSP (R328 to R330). -/
def Chip.dspVal (c : Chip) (l : Locks) (o : Nat) : Word :=
  let d := c.dsp
  match o with
  | 0x00 => mkWord [(b2n l.dsp, 31), (d.wdog, 0)]
  | 0x04 => mkWord [(c.lanesPresent.length, 0)]
  | 0x08 => mapWord c.lanesPresent 0
  | 0x0C => bitMap 32 (fun k => (c.lane k).present && (c.lane k).off == 2) 0
  | 0x10 => mkWord [(d.peak, 16), (d.tasks.length, 0)]
  | 0x14 => mkWord [(c.flowsInUse, 0)]
  | 0x18 => mkWord [(d.winFull, 16), (d.taskFull, 0)]
  | 0x1C => mkWord [(d.markers, 16), (d.cancelled, 0)]
  | 0x20 => mkWord [(d.timedOut, 16), (d.wdogs, 8), (d.losts, 0)]
  | 0x40 => mkWord [(d.sel, 0)]
  | _ =>
    match arr o 0x100 16 32, arr o 0x1000 4 128, c.flow d.sel with
    | some (k, r), _, _ =>
      let x := c.lane k
      (match r with
       | 0x0 => match c.laneTask k with
         | some t => mkWord [(if x.present then x.off + 1 else 0, 30), (1, 29), ((c.laneQueue k).length, 20), (t.flow.getD 0, 0)]
         | none => mkWord [(if x.present then x.off + 1 else 0, 30), ((c.laneQueue k).length, 20)]
       | 0x4 => mkWord [(x.tasks, 0)]
       | 0x8 => mkWord [(x.affinity, 16), (x.fallback, 0)]
       | _ => if x.served then mkWord [(Config.freeNat c.free % 1025, 0)] else 0)
    | _, some (f, _), _ => mkWord [((c.fn f).placed, 16), ((d.tasks.filter fun t => t.st == .ready && c.taskFn t == f).length, 0)]
    | _, _, none => 0#32
    | _, _, some x => match o with
      | 0x44 => mkWord [(c.flowState d.sel, 29), (b2n x.atomic, 28), (c.flowFn d.sel, 21), (x.lane, 16), ((c.flowTasks d.sel).length, 0)]
      | 0x48 => mkWord [(x.next, 16), (x.rel, 0)]
      | 0x4C => mkWord [(x.released, 16), (x.moves, 0)]
      | _ => 0#32

/-- STATE of an instance (R371). -/
def InstSt.code : InstSt → Nat
  | .binding => 1
  | .active => 2
  | .restarting => 3
  | .detached => 4
  | .closing => 5

/-- SVC (R371), by offsets from 0x8000 of its page. -/
def Chip.svcVal (c : Chip) (l : Locks) (o : Nat) : Word :=
  let v := c.svc
  match o with
  | 0x8000 => mkWord [(b2n l.svc, 31), (v.msgDef, 0)]
  | 0x8004 => mkWord [((c.insts.filter fun e => e.1 < 0x800).length, 0)]
  | 0x8008 => mkWord [(c.bufFree, 0)]
  | 0x800C => mkWord [(v.svcErr, 16), (v.restarts, 0)]
  | 0x8040 => mkWord [(v.sel, 0)]
  | _ =>
    match c.inst v.sel with
    | none => 0#32
    | some i => match o with
      | 0x8044 => mkWord [(i.st.code, 29), (i.svc.code, 26), ((c.instOwner v.sel).getD 0, 19), (if i.svc = .hlth then i.port else i.dev, 0)]
      | 0x8048 => mkWord [(i.peak, 16), (i.held / 16, 0)]
      | 0x804C => mkWord [(i.stops, 16), (i.ovfDrop, 8), (i.writeoff, 0)]
      | 0x8050 => mkWord [(i.kib, 16), (i.flows.length, 8), (i.drops, 0)]
      | _ => 0#32

/-- Functions now homed. -/
def Chip.homedNum (c : Chip) : Nat := ((List.range 128).filter c.homed).length

def AssocSt.code : AssocSt → Nat
  | .closed => 0
  | .opened => 1
  | .stalled => 2
  | .dormant => 3

/-- The registers of Ethernet port `i` (R422). BLOCKLOCK and FECLOCK show the PCS's lock, which holds while it reports
link_status OK; with link_status FAIL they read 0 (DEDUCED). (DEDUCED, log 195) -/
def Chip.ethVal (c : Chip) (i r : Nat) : Word :=
  let p := c.eth i
  match r with
  | 0x00 => mkWord [(b2n p.en, 31), (b2n p.jumbo, 28), (p.fec, 26), (p.speed, 25), (b2n p.macsecReq, 24)]
  | 0x04 => mkWord [(b2n p.link, 31), (b2n p.pcsOk, 30), (b2n (p.pcsOk && p.fec != 0), 29), (p.downs, 0)]
  | 0x08 => BitVec.ofNat 32 p.mac
  | 0x0C => BitVec.ofNat 32 (p.mac / 2 ^ 32)
  | 0x10 => mkWord [(p.rxcnt, 0)]
  | 0x14 => mkWord [(p.txcnt, 0)]
  | 0x18 => mkWord [(p.badFcs, 24), (p.badMacsec, 16), (p.noAssoc, 8), (p.otherType, 0)]
  | 0x20 => p.sasel
  | 0x28 => match p.selSa with
    | some s => mkWord [(b2n (p.selTx && s.enabled), 2), (b2n s.enabled, 1)]
    | none => 0#32
  | _ => 0#32

/-- The registers of association slot `a` (R423). -/
def Chip.assocVal (c : Chip) (a r : Nat) : Word :=
  let x := c.assoc a
  match r with
  | 0x00 => mkWord [(b2n x.valid, 31), (b2n x.failover, 30), (x.port, 29), (b2n x.macReq, 28), (x.pcp, 25), (b2n x.tagged, 24), (x.vid, 12),
      (b2n x.fn.isSome, 11), (x.fn.getD 0, 0)]
  | 0x04 => mkWord [(x.id, 0)]
  | 0x08 => BitVec.ofNat 32 x.peer
  | 0x0C => BitVec.ofNat 32 (x.peer / 2 ^ 32)
  | 0x10 => mkWord [(x.rto, 16), (x.retryMax, 12), (x.ackDly, 0)]
  | 0x14 => mkWord [(x.assocTmo, 24), (x.rxWin, 0)]
  | 0x18 => mkWord [(x.st.code, 29), (x.curPort, 28), (x.failovers, 0)]
  | 0x1C => x.txSeq
  | 0x20 => x.rxSeq
  | 0x24 => mkWord [(x.resent, 16), (x.expiries, 0)]
  | 0x28 => mkWord [(x.badRec, 16), (x.outOfWin, 0)]
  | _ => 0#32

/-- NET (R422, R423). -/
def Chip.netVal (c : Chip) (l : Locks) (o : Nat) : Word :=
  match o with
  | 0x00 => mkWord [(b2n l.net, 31)]
  | 0x04 => mkWord [(b2n c.net.cfgerr, 31), (c.homedNum, 0)]
  | _ => match arr o 0x100 0x80 2, arr o 0x1000 0x40 32 with
    | some (i, r), _ => c.ethVal i r
    | _, some (a, r) => c.assocVal a r
    | _, _ => 0#32

/-- TST (R517, R518). (DESIGN CHOICE, log 188) -/
def Chip.tstVal (c : Chip) (l : Locks) (t : Otp) (o : Nat) : Word :=
  let x := c.tst
  match o with
  | 0x00 => mkWord [(b2n l.tst, 31)]
  | 0x04 => mkWord [(b2n x.postdone, 31), (b2n x.safe, 30), (b2n x.degraded, 29), (b2n x.fused, 28), (x.stage, 24), (x.failStage, 20)]
  | 0x08 => mkWord [(x.count, 16), (x.ms, 0)]
  | 0x0C => mkWord [(x.cause, 29), (x.source, 19), (x.kind, 13)]
  | 0x10 => mkWord [(x.safeMfn.toNat, 0)]
  | 0x14 => mkWord [(x.sramFused, 16), (x.sramSoft, 0)]
  | 0x18 => mkWord [(x.dramUnrep, 16), (x.dramRep, 0)]
  | 0x1C => mapWord x.laneFail 0
  | 0x34 => mkWord [(b2n x.fuseBusy, 31), (b2n x.fuseErr, 30), (t.used, 8)]
  | _ => match arr o 0x20 4 4, arr o 0x100 4 16 with
    | some (k, _), _ => mapWord c.portsOk k
    | _, some (k, _) =>
      let u := c.tstClu k
      mkWord [(b2n u.cluFail, 31), (b2n u.monFail, 30), (b2n u.monSuspect, 29), (b2n (c.clu k).spareFailed, 28), (b2n u.spareUsed, 27),
        (u.sparePos, 24), (u.phyFail, 16), (mask8 fun i => (c.port (8 * k + i)).ownFailed, 0)]
    | _, _ => 0#32

/-- CAL (R556, R542). -/
def Chip.calVal (c : Chip) (l : Locks) (o : Nat) : Word :=
  let user := fun (t : Nat) => (c.calSlot t).body.isSome
  let bad := fun (t : Nat) => (c.calSlot t).neutral
  match o with
  | 0x00 => mkWord [(b2n l.cal, 31)]
  | 0x04 => mkWord [(b2n c.cal.busy.isSome, 31), (b2n (bad 1), 30), (b2n (user 1), 29), (c.cal.lastType, 16), (c.cal.lastStat, 8)]
  | 0x08 => bitMap 32 (fun i => bad (if i < 16 then 0x10 + i else 0x20 + (i - 16))) 0
  | 0x0C => bitMap 32 (fun i => user (if i < 16 then 0x10 + i else 0x20 + (i - 16))) 0
  | _ => if 0x1000 ≤ o ∧ o < 0x2000 then wordAt ((List.range 4).map fun i => c.calByte (o - 0x1000 + i)) 0 else 0#32

/-- TTH and LNY (R557, R558). -/
def Chip.tthVal (c : Chip) (l : Locks) (o : Nat) : Word :=
  let t := c.tth
  let y := c.lny
  match o with
  | 0x0000 => mkWord [(b2n l.tth, 31), (b2n t.pecReq, 2), (b2n t.wrCmd, 1), (b2n t.alertEn, 0)]
  | 0x0004 => mkWord [(b2n t.mbfull, 31), (t.lastStat, 16), (t.lastCmd, 8), (0x58 + t.strap, 0)]
  | 0x0008 => t.doorbell
  | 0x000C => t.mailbox
  | 0x0010 => mkWord [(t.nacks, 16), (t.timeouts, 8), (t.pecErr, 0)]
  | 0x1000 => mkWord [(b2n y.fsOnly, 2), (b2n y.wren, 1), (b2n y.en, 0)]
  | 0x1004 => mkWord [(b2n y.vbus, 31), (b2n c.lnyConnected, 30), (b2n y.configured, 29), (y.speed, 27), (b2n y.suspended, 26), (y.address, 8),
      (y.lastOp, 0)]
  | 0x1008 => mkWord [(y.crcErr, 16), (y.streamDrop, 8), (y.badCmd, 0)]
  | _ => 0#32

/-- PF BAR0 (R37): the register at an offset that is a multiple of 4. -/
def Chip.pfVal (c : Chip) (l : Locks) (t : Otp) (o : Nat) : Word :=
  match o / 0x10000 with
  | 0x00 => c.gblVal t o
  | 0x01 => c.fnVal 0 (o % 0x10000)
  | 0x04 => c.pwrVal l (o % 0x10000)
  | 0x05 => c.fltVal l (o % 0x10000)
  | 0x06 => c.evshVal l (o % 0x10000)
  | 0x08 => c.schVal l (o % 0x10000)
  | 0x14 => c.cluVal (o % 0x10000 / 0x1000) (o % 0x1000)
  | 0x16 => c.grnVal l (o % 0x10000)
  | 0x18 => if o % 0x10000 < 0x8000 then c.dspVal l (o % 0x10000) else c.svcVal l (o % 0x10000)
  | 0x1A => c.netVal l (o % 0x10000)
  | 0x1B => c.tstVal l t (o % 0x10000)
  | 0x1C => c.calVal l (o % 0x10000)
  | 0x1D => c.tthVal l (o % 0x10000)
  | _ => match arr o 0x100000 0x800 128 with
    | some (p, r) => c.prtVal p r
    | none => 0#32

/-- The register of function `f`'s BAR0 at an offset. -/
def Chip.bar0Val (c : Chip) (l : Locks) (t : Otp) (f o : Nat) : Word := if f = 0 then c.pfVal l t o else c.fnVal f o

end Sys2Proof.Machine
end

