-- ==== Sys2Proof/Machine/RegWrites.lean ====
section
/-!
DEFINITION. The side effects of register reads (RC fields and claims: R15, R386), the effects of register writes (R15, R17,
R18), and the host's accesses to register space (R14, R37 to R42, R52, R53, R501).
-/
namespace Sys2Proof.Machine

/-! ### What a read clears (R15: RC), and what it claims (R386) -/

/-- A read of a function's page. -/
def Chip.fnClear (c : Chip) (f o : Nat) : Chip :=
  match o with
  | 0x0008 => c.updFn f fun x => { x with lost := 0 }
  | 0x0C04 => c.updFn f fun x => { x with fltCount := 0 }
  | 0x1004 => (c.claim f none).2
  | 0x100C => c.updEvt f fun b => { b with stray := 0 }
  | _ =>
    match arr o 0x400 16 64, arr o 0x800 16 16, arr o 0x1100 4 (evtVecs f) with
    | some (n, 0xC), _, _ =>
      ({ c with dbigns := Tab.set (fun _ => 0) c.dbigns (f * 64 + n) 0 }).updWq f n fun q => { q with missed := 0 }
    | _, some (n, 0xC), _ => c.updCq f n fun q => { q with peak := 0 }
    | _, _, some (v, _) => if v < (c.fn f).vectors then (c.claim f (some v)).2 else c
    | _, _, _ => c

def Chip.schClear (c : Chip) (o : Nat) : Chip :=
  match arr o 0x1000 0x20 128 with
  | some (p, 0x08) => c.updSc p fun s => { s with ratioPeak := 0 }
  | some (p, 0x0C) => c.updSc p fun s => { s with writeoff := 0, slips := 0 }
  | some (p, 0x10) => c.updSc p fun s => { s with missed := 0, late := 0 }
  | some (p, 0x14) => c.updSc p fun s => { s with planLate := 0, holdMf := 0 }
  | some (p, 0x18) => c.updSc p fun s => { s with nakSkip := 0 }
  | _ => c

def Chip.prtClear (c : Chip) (p o : Nat) : Chip :=
  match o with
  | 0x014 => c.updPort p fun x => { x with crcErr := 0, timeouts := 0 }
  | 0x018 => c.updPort p fun x => { x with babbles := 0, strikes := 0, pidErr := 0 }
  | 0x01C => c.updPort p fun x => { x with failovers := 0 }
  | 0x114 => c.updPw p fun y => { y with ocCnt := 0, boCnt := 0, swCnt := 0, ovCnt := 0 }
  | _ => c

def Chip.grnClear (c : Chip) (o : Nat) : Chip :=
  match o with
  | 0x1C => c.updGrn fun g => { g with dramUnc := 0, dramCor := 0 }
  | 0x20 => c.updGrn fun g => { g with sramUnc := 0, sramCor := 0 }
  | 0x50 => c.updEp c.grn.sel fun e => { e with aborts := 0, maxWait := 0 }
  | _ => c

def Chip.dspClear (c : Chip) (o : Nat) : Chip :=
  match o with
  | 0x10 => c.updDsp fun d => { d with peak := 0 }
  | 0x18 => c.updDsp fun d => { d with winFull := 0, taskFull := 0 }
  | 0x1C => c.updDsp fun d => { d with markers := 0, cancelled := 0 }
  | 0x20 => c.updDsp fun d => { d with timedOut := 0, wdogs := 0, losts := 0 }
  | 0x4C => c.updFlow c.dsp.sel fun x => { x with released := 0, moves := 0 }
  | _ =>
    match arr o 0x100 16 32, arr o 0x1000 4 128 with
    | some (k, 0x4), _ => c.updLane k fun x => { x with tasks := 0 }
    | some (k, 0x8), _ => c.updLane k fun x => { x with affinity := 0, fallback := 0 }
    | some (k, 0xC), _ => if (c.lane k).served then c.fresh.2 else c
    | _, some (f, _) => c.updFn f fun x => { x with placed := 0 }
    | _, _ => c

def Chip.svcRegClear (c : Chip) (o : Nat) : Chip :=
  match o with
  | 0x800C => c.updSvc fun v => { v with svcErr := 0, restarts := 0 }
  | 0x8048 => c.updInst c.svc.sel fun i => { i with peak := 0 }
  | 0x804C => c.updInst c.svc.sel fun i => { i with stops := 0, ovfDrop := 0, writeoff := 0 }
  | 0x8050 => c.updInst c.svc.sel fun i => { i with drops := 0 }
  | _ => c

def Chip.netClear (c : Chip) (o : Nat) : Chip :=
  match arr o 0x100 0x80 2, arr o 0x1000 0x40 32 with
  | some (i, 0x04), _ => c.updEth i fun p => { p with downs := 0 }
  | some (i, 0x10), _ => c.updEth i fun p => { p with rxcnt := 0 }
  | some (i, 0x14), _ => c.updEth i fun p => { p with txcnt := 0 }
  | some (i, 0x18), _ => c.updEth i fun p => { p with badFcs := 0, badMacsec := 0, noAssoc := 0, otherType := 0 }
  | _, some (a, 0x18) => c.updAssoc a fun x => { x with failovers := 0 }
  | _, some (a, 0x24) => c.updAssoc a fun x => { x with resent := 0, expiries := 0 }
  | _, some (a, 0x28) => c.updAssoc a fun x => { x with badRec := 0, outOfWin := 0 }
  | _, _ => c

/-- A read of PF BAR0. The number of the free value that a running wake timer or a lane's BUSY showed is spent (log 3).
(DEDUCED, log 196) -/
def Chip.pfClear (c : Chip) (o : Nat) : Chip :=
  let r := o % 0x10000
  match o / 0x10000 with
  | 0x01 => c.fnClear 0 r
  | 0x04 =>
    (match r with
     | 0x10 => c.fresh.2
     | 0x24 => c.updPwr fun x => { x with entries := 0, aborts := 0 }
     | _ => c)
  | 0x05 =>
    (match r with
     | 0x14 => { c with flt := { c.flt with dropped := 0 } }
     | 0x30 => c.updFltSrc c.flt.sel fun s => { s with tot := 0 }
     | _ => c)
  | 0x08 => c.schClear r
  | 0x14 => if r % 0x1000 = 4 then c.updClu (r / 0x1000) fun x => { x with crcErr := 0, losses := 0 } else c
  | 0x16 => c.grnClear r
  | 0x18 => if r < 0x8000 then c.dspClear r else c.svcRegClear r
  | 0x1A => c.netClear r
  | 0x1D =>
    (match r with
     | 0x0010 => { c with tth := { c.tth with nacks := 0, timeouts := 0, pecErr := 0 } }
     | 0x1008 => c.updLny fun y => { y with crcErr := 0, streamDrop := 0, badCmd := 0 }
     | _ => c)
  | _ => match arr o 0x100000 0x800 128 with
    | some (p, r) => c.prtClear p r
    | none => c

/-- One dword of function `f`'s BAR0: its value, and the chip after the read. (DESIGN CHOICE, log 167) -/
def Chip.bar0Read (c : Chip) (l : Locks) (t : Otp) (f o : Nat) : Word × Chip :=
  (c.bar0Val l t f o, if f = 0 then c.pfClear o else c.fnClear f o)

/-! ### Writes -/

/-- Replace the bits of a 64-bit base: the low word's 31:12, or the high word (R122). -/
def baseLo (a : Addr) (w : Word) : Addr := addr64 (w &&& 0xFFFFF000#32) (a.extractLsb' 32 32)
def baseHi (a : Addr) (w : Word) : Addr := addr64 (a.extractLsb' 0 32) w

/-- A write to the AQ's registers (R122), but for a homed function (R405). -/
def Chip.aqWrite (c : Chip) (f o : Nat) (w : Word) : Chip :=
  let q := (c.fn f).aq
  if c.homed f then c
  else match o with
  | 0x0110 => c.aqCfg f w
  | 0x0114 => if bit w 2 then c.updAq f fun q => { q with badcons := false } else c
  | _ =>
    if q.enable then c
    else c.updAq f fun q => match o with
      | 0x0100 => { q with sqBase := baseLo q.sqBase w }
      | 0x0104 => { q with sqBase := baseHi q.sqBase w }
      | 0x0108 => { q with cqBase := baseLo q.cqBase w }
      | 0x010C => { q with cqBase := baseHi q.cqBase w }
      | _ => q

/-- A write to a function's page (R61, R62, R122, R127, R396, R397). -/
def Chip.fnWrite (c : Chip) (f o : Nat) (w : Word) : Chip :=
  match o with
  | 0x0004 => c.updFn f fun x => { x with nosnoop := bit w 0 }
  | 0x0008 => c.updFn f fun x => { x with
      resetDone := x.resetDone && !bit w 2
      ownchg := x.ownchg && !bit w 1
      reshaped := x.reshaped && !bit w 0 }
  | 0x1000 => c.evtCtrl f w
  | 0x1008 => c.complete f (bits w 7 0)
  | _ =>
    if 0x100 ≤ o ∧ o < 0x120 then c.aqWrite f o w
    else match arr o 0x800 16 16, arr o 0x1200 4 (evtVecs f), arr o 0x1400 8 32 with
    | some (n, 0), _, _ => if bit w 28 then c.updCq f n fun q => { q with badcons := false } else c
    | _, some (v, _), _ => c.vcoal f v w
    | _, _, some (i, 0) => c.srcConfig f i w
    | _, _, _ => c

/-- A write to GBL (R555, R596, R615). -/
def Chip.gblWrite (c : Chip) (t : Otp) (o : Nat) (w : Word) : Chip :=
  match o with
  | 0x20 => { c with boot := { c.boot with cacheLost := c.boot.cacheLost && !bit w 29 } }
  | 0x80 => c.keyCtl t w
  | 0x90 => c.dbgCtl t w
  | 0x94 => { c with aon := { c.aon with warnTh := min 110 (max 60 (bits w 23 16)) } }
  | _ => match arr o 0x60 4 8 with
    | some (k, _) => { c with boot := { c.boot with keyStage := Tab.set (fun _ => 0#32) c.boot.keyStage k w } }
    | none => c

/-- The bits of a number that are not set in a word (R15: W1C). -/
def w1c (v : Nat) (w : Word) : Nat := v &&& (w ^^^ 0xFFFFFFFF#32).toNat

/-- The ports 32k to 32k + 31 of an ascending list take the bits of a word. -/
def putMap (l : List Nat) (k : Nat) (w : Word) : List Nat :=
  (List.range 128).filter fun p => if p / 32 = k then bit w (p % 32) else l.contains p

/-- A write to PWR (R470). -/
def Chip.pwrWrite (c : Chip) (l : Locks) (o : Nat) (w : Word) : Chip :=
  match o with
  | 0x00 => if bit w 0 then c.dozeWake 7 else c
  | 0x08 =>
    if l.pwr then c
    else c.updPwr fun x => { x with
      deepWait := max 1 (bits w 31 24)
      napWait := max 1 (bits w 23 16)
      dozeIdle := max 1 (bits w 15 8)
      wakeOut := bit w 1
      tetherWake := bit w 0 }
  | 0x0C => c.updPwr fun x => { x with wakeSrc := w1c x.wakeSrc w }
  | 0x10 => c.updPwr fun x => { x with wakeTmr := w, levels := x.levels.filter (· ≠ 3) }
  | 0x1C => c.updPwr fun x => { x with retLost0 := w1c x.retLost0 w }
  | 0x20 => c.updPwr fun x => { x with retLost1 := w1c x.retLost1 w }
  | _ => match arr o 0x30 4 4 with
    | some (k, _) => c.updPwr fun x => { x with armed := putMap x.armed k w }
    | none => c

/-- A write to FLT (R493, R494). -/
def Chip.fltWrite (c : Chip) (l : Locks) (o : Nat) (w : Word) : Chip :=
  match o with
  | 0x00 => if bit w 0 then c.clearAll else c
  | 0x04 => { c with flt := { c.flt with cfgerr := c.flt.cfgerr && !bit w 30 } }
  | 0x08 => if l.flt then c else { c with flt := { c.flt with kindsev0 := w } }
  | 0x0C => if l.flt then c else { c with flt := { c.flt with kindsev1 := w } }
  | 0x20 => { c with flt := { c.flt with sel := bits w 9 0 } }
  | 0x24 => c.srcCfg l.flt w
  | 0x28 => c.srcAct l.flt w
  | 0x2C => c.srcStat w
  | _ => c

/-- A write to the shared sources' registers (R398). -/
def Chip.evshWrite (c : Chip) (l : Locks) (o : Nat) (w : Word) : Chip :=
  if o = 0 then (if l.evt then c else { c with evsh := { c.evsh with gfilt := bits w 3 0 } })
  else match arr o 0x100 16 64 with
  | some (s, 0x0) => c.shConfig l.evt s w none
  | some (s, 0x4) => c.shRoute l.evt s w
  | some (s, 0x8) => if bit w 12 then c.updSh s fun x => { x with latched := false } else c
  | _ => c

/-- A write to SCH (R197, R198). -/
def Chip.schWrite (c : Chip) (l : Locks) (o : Nat) (w : Word) : Chip :=
  match o with
  | 0x00 => if l.sch then c else c.updSch fun x => { x with perMax := min 48000 (bits w 15 0) }
  | 0x10 => c.updSch fun x => { x with selPort := bits w 22 16, selPos := bits w 7 0 }
  | _ => match arr o 0x1000 0x20 128 with
    | some (p, 0x00) => c.updSc p fun s => { s with isoLag := bits w 1 0 }
    | _ => c

/-- A write to PRT (R231, R268). -/
def Chip.prtWrite (c : Chip) (p o : Nat) (w : Word) : Chip :=
  match o with
  | 0x000 => c.prtCtrlWrite p w
  | 0x008 => c.updPort p fun x => { x with event := w1c x.event w }
  | 0x00C => c.updPort p fun x => { x with l1Idle := max 1 (bits w 15 8), besl := bits w 3 0 }
  | 0x100 => c.updPort p fun x => { x with rwen := bit w 8 }
  | 0x104 => c.pwrCtrlWrite p w
  | 0x108 => c.updPw p fun y => { y with
      shed := bits w 19 16
      boDly := max 1 (bits w 15 12)
      retryMax := bits w 10 8
      retryDly := max 1 (bits w 3 0) }
  | 0x118 =>
    let c := c.updPw p fun y => { y with cdpSeen := y.cdpSeen && !bit w 1, cdpEn := bit w 0 }
    if bit w 0 then c else c.cdpStop p
  | _ => c

/-- A write to CLU (R269). -/
def Chip.cluWrite (c : Chip) (k o : Nat) (w : Word) : Chip :=
  match o with
  | 0x0C => c.updClu k fun x => { x with limit := bits w 13 0 }
  | 0x10 => c.updClu k fun x => { x with iirk := min 4 (bits w 2 0) }
  | _ => c

/-- A write to GRN (R301, R302). -/
def Chip.grnWrite (c : Chip) (l : Locks) (o : Nat) (w : Word) : Chip :=
  match o with
  | 0x00 => if l.grn then c else c.updGrn fun g => { g with sramScrub := bit w 1, dramScrub := bit w 0 }
  | 0x2C => if l.grn then c else c.updGrn fun g => { g with sramSec := max 1 (bits w 31 16), dramHrs := max 1 (bits w 7 0) }
  | 0x38 => c.updGrn fun g => { g with cfgerr := g.cfgerr && !bit w 0 }
  | 0x40 => c.updGrn fun g => { g with ctlDir := bit w 16, sel := bits w 12 0 }
  | 0x44 => c.channelWrite false w
  | 0x48 => c.channelWrite true w
  | _ => c

/-- A write to DSP and SVC (R328, R329, R371). -/
def Chip.dspWrite (c : Chip) (l : Locks) (o : Nat) (w : Word) : Chip :=
  match o with
  | 0x0000 => if l.dsp then c else c.updDsp fun d => { d with wdog := max 1 (bits w 15 0) }
  | 0x0040 => c.updDsp fun d => { d with sel := bits w 13 0 }
  | 0x8000 =>
    if l.svc then c
    else c.updSvc fun v => { v with msgDef := if 4 ≤ bits w 6 0 ∧ bits w 6 0 ≤ 64 then bits w 6 0 else 8 }
  | 0x8040 => c.updSvc fun v => { v with sel := bits w 11 0 }
  | _ => c

def Chip.netCfgerr (c : Chip) : Chip := { c with net := { c.net with cfgerr := true } }

/-- A write to the registers of Ethernet port `i` (R422). (DEDUCED, log 194) -/
def Chip.ethWrite (c : Chip) (l : Locks) (i r : Nat) (w : Word) : Chip :=
  match r with
  | 0x00 =>
    if bits w 27 26 = 3 ∨ (bits w 27 26 = 2 ∧ bit w 25) then c.netCfgerr
    else c.updEth i fun p => { p with
      en := bit w 31
      jumbo := bit w 28
      fec := bits w 27 26
      speed := bits w 25 25
      macsecReq := if l.net then p.macsecReq else bit w 24 }
  | 0x08 => if l.net then c else c.updEth i fun p => { p with mac := p.mac / 2 ^ 32 * 2 ^ 32 + w.toNat }
  | 0x0C => if l.net then c else c.updEth i fun p => { p with mac := bits w 15 0 * 2 ^ 32 + p.mac % 2 ^ 32 }
  | 0x20 => c.saSelect i w
  | 0x24 => c.saData i w
  | 0x28 =>
    let c := if bit w 0 then c.saInstall i else c
    c.saEnable i (bit w 1)
  | _ => c

/-- The RW fields of an association slot (R423). -/
def Assoc.put (x : Assoc) (r : Nat) (w : Word) : Assoc :=
  match r with
  | 0x00 => { x with valid := bit w 31, failover := bit w 30, port := bits w 29 29, macReq := bit w 28, pcp := bits w 27 25, tagged := bit w 24, vid := bits w 23 12 }
  | 0x04 => { x with id := bits w 15 0 }
  | 0x08 => { x with peer := x.peer / 2 ^ 32 * 2 ^ 32 + w.toNat }
  | 0x0C => { x with peer := bits w 15 0 * 2 ^ 32 + x.peer % 2 ^ 32 }
  | 0x10 => { x with rto := max 10 (bits w 31 16), retryMax := max 1 (bits w 15 12), ackDly := bits w 7 0 }
  | 0x14 => { x with assocTmo := max 1 (bits w 31 24), rxWin := if 1 ≤ bits w 8 0 ∧ bits w 8 0 ≤ 256 then bits w 8 0 else 64 }
  | _ => x

/-- A write to NET (R422, R423). -/
def Chip.netWrite (c : Chip) (l : Locks) (o : Nat) (w : Word) : Chip :=
  if o = 0x04 then { c with net := { c.net with cfgerr := c.net.cfgerr && !bit w 31 } }
  else match arr o 0x100 0x80 2, arr o 0x1000 0x40 32 with
  | some (i, r), _ => c.ethWrite l i r w
  | _, some (a, r) =>
    if r < 0x18 then (if (c.assoc a).st = .closed then c.updAssoc a fun x => x.put r w else c.netCfgerr) else c
  | _, _ => c

/-- A write to TST (R517, R518). -/
def Chip.tstWrite (c : Chip) (l : Locks) (t : Otp) (o : Nat) (w : Word) : Chip :=
  match o with
  | 0x30 => c.fuseCtl l t w
  | 0x34 => c.updTst fun x => { x with fuseErr := x.fuseErr && !bit w 30 }
  | _ => match arr o 0x100 4 16 with
    | some (k, _) => if bit w 29 then c.updTstClu k fun u => { u with monSuspect := false } else c
    | none => c

/-- R535: a PF0 write of TTH_MAILBOX: MBFULL sets, and its rise drives ALERT# low while ALERTEN is 1. (DEDUCED, log
197). (DEDUCED, log 197) -/
def Chip.mailbox (c : Chip) (w : Word) : Chip :=
  let rise := !c.tth.mbfull && c.tth.alertEn
  let c := { c with tth := { c.tth with mailbox := w, mbfull := true } }
  if rise then c.alert true else c

/-- A write to TTH and LNY (R557, R558). -/
def Chip.tthWrite (c : Chip) (l : Locks) (o : Nat) (w : Word) : Chip :=
  match o with
  | 0x0000 => if l.tth then c else { c with tth := { c.tth with pecReq := bit w 2, wrCmd := bit w 1, alertEn := bit w 0 } }
  | 0x000C => c.mailbox w
  | 0x1000 => if l.tth then c else (c.updLny fun y => { y with fsOnly := bit w 2, wren := bit w 1, en := bit w 0 }).lnyJudge
  | _ => c

/-- A write of PF BAR0 (R37), as far as it concerns the chip; LOCK bits are set beside it. -/
def Chip.pfWrite (c : Chip) (l : Locks) (t : Otp) (o : Nat) (w : Word) : Chip :=
  let r := o % 0x10000
  match o / 0x10000 with
  | 0x00 => c.gblWrite t r w
  | 0x01 => c.fnWrite 0 r w
  | 0x04 => c.pwrWrite l r w
  | 0x05 => c.fltWrite l r w
  | 0x06 => c.evshWrite l r w
  | 0x08 => c.schWrite l r w
  | 0x14 => c.cluWrite (r / 0x1000) (r % 0x1000) w
  | 0x16 => c.grnWrite l r w
  | 0x18 => c.dspWrite l r w
  | 0x1A => c.netWrite l r w
  | 0x1B => c.tstWrite l t r w
  | 0x1D => c.tthWrite l r w
  | _ => match arr o 0x100000 0x800 128 with
    | some (p, r) => c.prtWrite p r w
    | none => c

/-- R17: the LOCK bits that a write of PF BAR0 sets. -/
def Locks.write (l : Locks) (o : Nat) (w : Word) : Locks :=
  if !bit w 31 then l
  else match o with
  | 0x040000 => { l with pwr := true }
  | 0x050000 => { l with flt := true }
  | 0x060000 => { l with evt := true }
  | 0x080000 => { l with sch := true }
  | 0x160000 => { l with grn := true }
  | 0x180000 => { l with dsp := true }
  | 0x188000 => { l with svc := true }
  | 0x1A0000 => { l with net := true }
  | 0x1B0000 => { l with tst := true }
  | 0x1C0000 => { l with cal := true }
  | 0x1D0000 => { l with tth := true }
  | _ => l

/-- One 32-bit write to function `f`'s BAR0. A homed VF's page takes none from PCIe (R405). -/
def State.bar0Write (s : State) (f o : Nat) (w : Word) : State :=
  if f = 0 then { s with chip := s.chip.pfWrite s.locks s.otp o w, locks := s.locks.write o w }
  else if s.chip.homed f then s
  else { s with chip := s.chip.fnWrite f o w }

/-! ### BAR4 (R42, R53, R54) -/

/-- A dword of the MSI-X table or of the PBA; entries at or above VECTORS are R53's to read. -/
def Chip.bar4Val (c : Chip) (f o : Nat) : Word :=
  match arr o 0 16 (evtVecs f), arr o 0x1000 4 ((evtVecs f + 31) / 32) with
  | some (v, r), _ =>
    let m := c.msix f v
    (match r with
     | 0x0 => m.addr.extractLsb' 0 32
     | 0x4 => m.addr.extractLsb' 32 32
     | 0x8 => m.data
     | _ => mkWord [(b2n m.mask, 0)])
  | _, some (k, _) => bitMap (evtVecs f) (fun v => (c.msix f v).pba) k
  | _, _ => 0#32

def Chip.bar4Write (c : Chip) (f o : Nat) (w : Word) : Chip :=
  match arr o 0 16 (evtVecs f) with
  | some (v, r) => c.msixPut f v (r / 4) w
  | none => c

/-! ### The host's accesses (R14, R25, R38, R40, R52, R501) -/

/-- A width and an alignment that R14 defines. -/
def accessOk (off len : Nat) : Bool :=
  (len == 8 && off % 8 == 0) || (len == 4 && off % 4 == 0) || (0 < len && len < 4 && off % 4 + len ≤ 4)

/-- The own size of a BAR of function `f` (R37, R39, R40, R42). -/
def barSize (f bar : Nat) : Nat :=
  if bar = 0 then (if f = 0 then 0x2000000 else 0x10000) else if bar = 2 then 0x4000 else 0x2000

/-- R52: an access wholly in the padding of a VF BAR. -/
def inPadding (f bar off : Nat) : Bool := f != 0 && decide (barSize f bar ≤ off)

/-- The host's requests reach the functions: the link is not held down (R501), and the fabric island runs (R447).
(DESIGN CHOICE, log 15) -/
def Chip.hostReach (c : Chip) : Bool :=
  !c.dead && !c.aon.testen && !c.tst.linkHeld && c.fabricRuns && c.pwr.st != .mgmtOnly

/-- A function decodes the access (R618). -/
def Chip.decodes (c : Chip) (f : Nat) : Bool := f == 0 || (c.fnExists f && c.pci.vfMse)

/-- R618: the access completes with Unsupported Request, logged in PF0's AER registers. -/
def Chip.undecoded (c : Chip) (write : Bool) : Chip :=
  (if write then c else c.emit (.unsupported 0)).logAer 0 .unsupportedRequest

/-- R38: the same for a malformed access, logged by its function. (DEDUCED, log 11) -/
def Chip.malformed (c : Chip) (f : Nat) (write : Bool) : Chip :=
  (if write then c else c.emit (.unsupported f)).logAer f .unsupportedRequest

/-- R25, R376: in DOZE an access ungates the fabric island, and the latches that are set give their arrivals.
(DEDUCED, log 17) -/
def Chip.wakeFabric (c : Chip) : Chip :=
  if c.pwr.st = .doze ∧ ¬ c.pwr.ungated.contains 5 then (c.updPwr fun x => { x with ungated := x.ungated ++ [5] }).releaseLatches
  else c

/-- R501: in the safe state only GBL_STATE and the TST block read as usual. -/
def safeReads (f : Nat) (bar4 : Bool) (o : Nat) : Bool := f == 0 && !bar4 && (o == 8 || o / 0x10000 == 0x1B)

/-- The host reads one dword: its value and the chip after it. -/
def Chip.hostRead (c : Chip) (l : Locks) (t : Otp) (f : Nat) (bar4 : Bool) (o : Nat) : Word × Chip :=
  if c.tst.safe && !safeReads f bar4 o then (0xFFFFFFFF#32, c)
  else if bar4 then (c.bar4Val f o, c)
  else c.bar0Read l t f o

/-- The host reads `len` bytes of register space at `off`, as R14 defines it: the lower dword first. -/
def Chip.regRead (c : Chip) (l : Locks) (t : Otp) (f : Nat) (bar4 : Bool) (off len : Nat) : Chip :=
  let o := off / 4 * 4
  let a := c.hostRead l t f bar4 o
  if len = 8 then
    let b := a.2.hostRead l t f bar4 (o + 4)
    b.2.emit (.readData (wordBytes a.1 ++ wordBytes b.1))
  else a.2.emit (.readData (((wordBytes a.1).drop (off % 4)).take len))

/-- REGISTER_READ (R14, R15): a read of BAR0 or BAR4. -/
def execRegisterRead (f : Fin 128) (bar4 : Bool) (off : Fin 0x2000000) (len : Fin 4097) (s : State) :
    Host.Outcome State Fault Refusal :=
  s.run fun c =>
    let bar := if bar4 then 4 else 0
    if !c.hostReach then c
    else if !c.decodes f then c.undecoded false
    else if inPadding f bar off then c.emit (.readData (List.replicate len (if c.tst.safe then 0xFF#8 else 0#8)))
    else if !accessOk off len then c.malformed f false
    else c.wakeFabric.regRead s.locks s.otp f bar4 off len

/-- The host writes register space. A 64-bit write is the lower register's and then the upper's, except that of EVT_SHs_CFG
and EVT_SHs_ROUTE, which R379 judges as one; a narrow write has no effect (R14). -/
def State.regWrite (s : State) (f : Nat) (bar4 : Bool) (off len : Nat) (w hi : Word) : State :=
  if len < 4 then s
  else if bar4 then
    { s with chip := if len = 8 then (s.chip.bar4Write f off w).bar4Write f (off + 4) hi else s.chip.bar4Write f off w }
  else if len = 4 then s.bar0Write f off w
  else match arr off 0x60100 16 64 with
  | some (n, 0) =>
    if f = 0 then { s with chip := s.chip.shConfig s.locks.evt n w (some hi) } else (s.bar0Write f off w).bar0Write f (off + 4) hi
  | _ => (s.bar0Write f off w).bar0Write f (off + 4) hi

/-- REGISTER_WRITE (R14, R15, R17, R18): a write of BAR0 or BAR4; `hi`: the upper dword of a 64-bit write. In the safe state
BAR writes have no effect (R501). -/
def execRegisterWrite (f : Fin 128) (bar4 : Bool) (off : Fin 0x2000000) (len : Fin 4097) (w hi : Word) (s : State) :
    Host.Outcome State Fault Refusal :=
  let c := s.chip
  if !c.hostReach ∨ c.tst.safe then .next s
  else if !c.decodes f then .next { s with chip := c.undecoded true }
  else if inPadding f (if bar4 then 4 else 0) off then .next s
  else if !accessOk off len then .next { s with chip := c.malformed f true }
  else .next (({ s with chip := c.wakeFabric }).regWrite f bar4 off len w hi)

/-- Which BAR an access names. -/
def barNum (b : Fin 3) : Nat := 2 * b.val

/-- RESERVED_OFFSET_ACCESS (R38, R40): an access whose offset is reserved or in the padding, or that R14 does not define. A
read of BAR2 returns 0 whatever its width; a reserved offset of register space reads as every offset does, which is 0. -/
def execReservedOffsetAccess (f : Fin 128) (bar : Fin 3) (off : Fin 0x2000000) (len : Fin 4097) (write : Bool) (s : State) :
    Host.Outcome State Fault Refusal :=
  s.run fun c =>
    if !c.hostReach then c
    else if !c.decodes f then c.undecoded write
    else if bar.val ≠ 1 ∧ ¬ inPadding f (barNum bar) off ∧ ¬ accessOk off len then c.malformed f write
    else if write then c
    else if bar.val = 1 ∨ inPadding f (barNum bar) off then
      c.emit (.readData (List.replicate len (if c.tst.safe then 0xFF#8 else 0#8)))
    else c.wakeFabric.regRead s.locks s.otp f (bar.val == 2) off len

/-- MAILBOX_WRITE (R535): PF0 writes TTH_MAILBOX. -/
def execMailboxWrite (w : Word) (s : State) : Host.Outcome State Fault Refusal :=
  s.live fun c => if c.hostReach then c.mailbox w else c

end Sys2Proof.Machine
end

