-- ==== Sys2Proof/Machine/Lanyard.lean ====
section
/-!
DEFINITION. The service port, Lanyard: its bus (R519 to R524, R528, R558) and its commands (R525 to R527, R529).
-/
namespace Sys2Proof.Machine

/-! ### Which registers answer (R501, R507, R527) -/

/-- R527: the registers held in the always-on island. -/
def regAlwaysOn (o : Nat) : Bool :=
  o / 0x10000 == 0x04 || o / 0x10000 == 0x1B || o / 0x10000 == 0x1D || o == 0x8 || o == 0x50010 ||
  (decide (0x50800 ≤ o) && decide (o < 0x50A00))

/-- An island behind the fabric that has power: the scheduler, the service or the network island. -/
def Chip.insideRuns (c : Chip) : Bool :=
  (c.pwr.st == .active || c.pwr.st == .entering || c.pwr.st == .doze) && !c.tst.safe

/-- The register at an offset of PF BAR0 lies in an island that runs; one gated by DOZE is ungated for it (R25).
(DEDUCED, log 16) -/
def Chip.regRuns (c : Chip) (o : Nat) : Bool :=
  regAlwaysOn o ||
  (c.lnyFabric &&
    match o / 0x10000 with
    | 0x08 | 0x18 => c.insideRuns
    | 0x1A => c.insideRuns && !c.tst.netFail && !c.net.dead
    | 0x14 => c.cluRuns (o % 0x10000 / 0x1000) && !c.tst.safe
    | _ => match arr o 0x100000 0x800 128 with
      | some (p, _) => c.cluRuns (p / 8) && !c.tst.safe
      | none => true)

/-- The registers of `n` dwords from an offset, read in turn with their side effects: what they hold, and the chip. -/
def Chip.readDwords (c : Chip) (l : Locks) (t : Otp) (o n : Nat) : List Word × Chip :=
  (List.range n).foldl (fun (r : List Word × Chip) i =>
    let a := r.2.bar0Read l t 0 (o + 4 * i)
    (a.1 :: r.1, a.2)) ([], c)

/-! ### The bus (R520 to R524, R528, R558) -/

/-- The port answers on its bus: it is connected, has had its bus reset, and is in no test mode. -/
def Chip.lnyBus (c : Chip) : Bool := !c.dead && !c.aon.testen && c.lnyConnected && c.lny.speed != 0 && c.lny.testMode == 0

/-- LNY_VBUS_CHANGE (R373, R524, R529): a RESET whose response is pending takes effect when VBUS falls. -/
def execLnyVbusChange (b : Bool) (s : State) : Host.Outcome State Fault Refusal :=
  if s.chip.aon.off then .next s
  else if s.chip.dead then .next { s with chip := (s.chip.updLny fun x => { x with vbus := b }).shInput 38 b }
  else
    let due := s.chip.lny.resetDue && !b
    let t := { s with chip := ((s.chip.wakeInput 38 b).updLny fun x => { x with vbus := b }).lnyJudge }
    .next (if due then t.deviceReset else t)

/-- LNY_BUS_RESET (R520): HS when host and port both allow it. -/
def execLnyBusReset (hs : Bool) (s : State) : Host.Outcome State Fault Refusal :=
  s.run fun c =>
    if !c.lnyConnected || c.aon.testen then c
    else c.updLny fun x =>
      { x.unplug with speed := if hs && !x.fsOnly && c.pwr.st != .mgmtOnly then 3 else 2, testMode := x.testMode }

/-- LNY_BUS_SUSPEND (R558). -/
def execLnyBusSuspend (s : State) : Host.Outcome State Fault Refusal :=
  s.run fun c => if c.lnyBus then c.updLny fun x => { x with suspended := true } else c

/-- LNY_BUS_RESUME (R558). -/
def execLnyBusResume (s : State) : Host.Outcome State Fault Refusal :=
  s.run fun c => if c.lnyBus then c.updLny fun x => { x with suspended := false } else c

/-- R521: the device descriptor, and the device qualifier. -/
def lnyDevice : List Byte :=
  [0x12, 1, 0x00, 0x02, 0, 0, 0, 64, 0x9D, 0x1F, 0x01, 0x0A, 0x02, 0x00, 1, 2, 3, 1]
def lnyQualifier : List Byte := [0x0A, 6, 0x00, 0x02, 0, 0, 0, 64, 1, 0]

/-- R521: the configuration, its interface and its endpoints, for one speed; `ty` 2, or 7 for the other speed. -/
def lnyConfig (ty mps : Nat) : List Byte :=
  let ep := fun (a : Nat) => [7#8, 5, BitVec.ofNat 8 a, 2, BitVec.ofNat 8 mps, BitVec.ofNat 8 (mps / 256), 0]
  [9#8, BitVec.ofNat 8 ty, 74, 0, 1, 1, 0, 0xC0, 0] ++ [9#8, 4, 0, 0, 8, 0xFF, 0x43, 0x01, 0] ++
  (([1, 2, 3, 4].map ep) ++ ([0x81, 0x82, 0x83, 0x84].map ep)).flatten

/-- A string descriptor of ASCII text. -/
def lnyString (t : String) : List Byte :=
  [BitVec.ofNat 8 (2 + 2 * t.length), 3#8] ++ (t.toList.map fun ch => [BitVec.ofNat 8 ch.toNat, 0#8]).flatten

/-- R521: the Device Serial Number in 16 upper-case hex digits, high digit first. -/
def serialDigits : List Byte :=
  (List.range 16).map fun i =>
    let d := Config.serialNumber.toNat / 16 ^ (15 - i) % 16
    BitVec.ofNat 8 (if d < 10 then 0x30 + d else 0x37 + d)

def lnyStringOf (i : Nat) : Option (List Byte) :=
  match i with
  | 0 => some [4, 3, 0x09, 0x04]
  | 1 => some (lnyString "Haldist Semiconductor")
  | 2 => some (lnyString "Coroon Vetia service port")
  | 3 => some ([34#8, 3#8] ++ (serialDigits.map fun b => [b, 0#8]).flatten)
  | _ => none

/-- GET_DESCRIPTOR (R521, R522). -/
def Lny.descriptor (x : Lny) (ty i : Nat) : Option (List Byte) :=
  let other := if x.speed = 3 then 64 else 512
  match ty, i with
  | 1, 0 => some lnyDevice
  | 2, 0 => some (lnyConfig 2 x.mps)
  | 3, i => lnyStringOf i
  | 6, 0 => some lnyQualifier
  | 7, 0 => some (lnyConfig 7 other)
  | _, _ => none

/-- The endpoint address exists in the present configuration. -/
def Lny.hasEp (x : Lny) (a : Nat) : Bool :=
  a == 0 || a == 0x80 || (x.configured && ((decide (1 ≤ a) && decide (a ≤ 4)) || (decide (0x81 ≤ a) && decide (a ≤ 0x84))))

/-- The interface of the configuration is named. -/
def Lny.hasIf (x : Lny) (i : Nat) : Bool := x.configured && i == 0

/-- Every endpoint goes back to DATA0, with no halt. -/
def Lny.fresh (x : Lny) : Lny := { x with halted := [], tog := [] }

/-- The standard requests with data to return (R522): none is a STALL. -/
def Lny.get (x : Lny) (rt rq v i : Nat) : Option (List Byte) :=
  match rt, rq with
  | 0x80, 0 => if v = 0 ∧ i = 0 then some [1, 0] else none
  | 0x81, 0 => if v = 0 ∧ x.hasIf i then some [0, 0] else none
  | 0x82, 0 => if v = 0 ∧ x.hasEp i then some [if x.halted.contains i then 1 else 0, 0] else none
  | 0x80, 6 => x.descriptor (v / 256) (v % 256)
  | 0x80, 8 => if v = 0 ∧ i = 0 then some [if x.configured then 1 else 0] else none
  | 0x81, 10 => if v = 0 ∧ x.hasIf i then some [0] else none
  | _, _ => none

/-- The standard requests without a data stage (R522); `r`: a free value, for what USB 2.0 leaves unspecified. (DESIGN
CHOICE, log 199; DEDUCED, log 200) -/
def Lny.put (x : Lny) (r rt rq v i : Nat) : Option Lny :=
  let bulk := x.hasEp i && i % 0x80 != 0
  match rt, rq with
  | 0x02, 1 => if v = 0 ∧ bulk then some { x with halted := x.halted.filter (· ≠ i), tog := x.tog.filter (· ≠ i) } else none
  | 0x02, 3 => if v = 0 ∧ bulk then some { x with halted := i :: x.halted.filter (· ≠ i) } else none
  | 0x00, 3 =>
    if v = 2 ∧ i % 256 = 0 ∧ 1 ≤ i / 256 ∧ i / 256 ≤ 4 ∧ x.speed = 3 then some { x with testMode := i / 256 } else none
  | 0x00, 5 => if v < 128 ∧ i = 0 then some { x with address := if x.configured then r % 128 else v } else none
  | 0x00, 9 =>
    if 1 < v ∨ i ≠ 0 then none
    else if x.address = 0 then some { x.fresh with configured := r % 2 == 1 }
    else if v = 1 then some { x.fresh with configured := true }
    else some { x.fresh with
      configured := false, out1 := [], out2 := [], out4 := [], in1 := [], in2 := [], in4 := [], stream := [], discard := 0 }
  | 0x01, 11 => if v = 0 ∧ x.hasIf i then some x.fresh else none
  | _, _ => none

/-- LNY_SETUP (R522): a control transfer, with its data and status stages. (DEDUCED, log 198) -/
def execLnySetup (rt rq : Byte) (v i len : Fin 65536) (s : State) : Host.Outcome State Fault Refusal :=
  s.run fun c =>
    if !c.lnyBus || c.lny.suspended then c
    else
      let stall := c.emit (.lnyHs 0 "STALL")
      if 0x80 ≤ rt.toNat then
        match c.lny.get rt.toNat rq.toNat v i with
        | some bs => c.emit (.lny 0 true (bs.take len))
        | none => stall
      else
        let (r, c) := c.fresh
        match (if len.val = 0 then c.lny.put (Config.freeNat r) rt.toNat rq.toNat v i else none) with
        | some y => ({ c with lny := y }).emit (.lny 0 true [])
        | none => stall

/-- A bulk endpoint that the host may use. -/
def Chip.lnyBulk (c : Chip) (ep : Nat) : Bool :=
  c.lnyBus && c.lny.configured && !c.lny.suspended && decide (1 ≤ ep) && decide (ep ≤ 4)

/-- The packets held on an OUT endpoint; EP3 OUT takes none (R528), and so is always full. (DEDUCED, log 201) -/
def Lny.outHeld (x : Lny) (ep : Nat) : Nat :=
  match ep with
  | 1 => x.out1.length
  | 2 => x.out2.length
  | 4 => x.out4.length
  | _ => 2

def Lny.outTake (x : Lny) (ep : Nat) (bs : List Byte) : Lny :=
  match ep with
  | 1 => { x with out1 := x.out1 ++ [bs] }
  | 2 => { x with out2 := x.out2 ++ [bs] }
  | 4 => { x with out4 := x.out4 ++ [bs] }
  | _ => x

/-- The data toggle of an endpoint address changes. -/
def Lny.flip (x : Lny) (a : Nat) : Lny :=
  { x with tog := if x.tog.contains a then x.tog.filter (· ≠ a) else a :: x.tog }

/-- R528: EP4's loopback moves what fits into the two buffers of EP4 IN. -/
def Lny.loop (x : Lny) : Lny :=
  x.out4.foldl (fun (x : Lny) p =>
    if x.in4.length + p.length ≤ 1024 then { x with in4 := x.in4 ++ p, out4 := x.out4.drop 1 } else x) x

/-- LNY_OUT_DATA (R523, R558): a data packet to OUT endpoint `ep`, with its PID (DATA1 or DATA0), its CRC good or not. -/
def execLnyOutData (ep : Fin 16) (data1 : Bool) (bs : List Byte) (good : Bool) (s : State) : Host.Outcome State Fault Refusal :=
  s.run fun c =>
    let x := c.lny
    if !c.lnyBulk ep || decide (x.mps < bs.length) then c
    else if !good then c.updLny fun x => { x with crcErr := satAdd 0xFFFF x.crcErr 1 }
    else if x.halted.contains ep.val then c.emit (.lnyHs ep "STALL")
    else if data1 != x.tog.contains ep.val then c.emit (.lnyHs ep "ACK")
    else if 2 ≤ x.outHeld ep then c.emit (.lnyHs ep "NAK")
    else
      let c := c.emit (.lnyHs ep (if x.speed = 3 ∧ x.outHeld ep = 1 then "NYET" else "ACK"))
      (c.updLny fun x => ((x.outTake ep bs).flip ep).loop).lnyGo

/-- LNY_PING (R523). -/
def execLnyPing (ep : Fin 16) (s : State) : Host.Outcome State Fault Refusal :=
  s.run fun c =>
    if !c.lnyBulk ep || c.lny.speed != 3 then c
    else if c.lny.halted.contains ep.val then c.emit (.lnyHs ep "STALL")
    else c.emit (.lnyHs ep (if c.lny.outHeld ep < 2 then "ACK" else "NAK"))

/-- What an IN endpoint has to send. (DEDUCED, log 203) -/
def Lny.inData (x : Lny) (ep : Nat) : Option (List Byte) :=
  match ep with
  | 1 => x.in1.head?
  | 2 => x.in2.head?.map (·.take x.mps)
  | 3 => if x.stream.isEmpty then none else some (wordsBytes ((x.stream.take (x.mps / 16)).map HistEntry.dwords).flatten)
  | 4 => if x.in4.isEmpty then none else some (x.in4.take x.mps)
  | _ => none

/-- The host has acknowledged what was sent: its buffer is freed. -/
def Lny.inTaken (x : Lny) (ep : Nat) : Lny :=
  match ep with
  | 1 => { x with in1 := x.in1.drop 1 }
  | 2 => match x.in2 with
    | d :: r => { x with in2 := if (d.drop x.mps).isEmpty then r else d.drop x.mps :: r }
    | [] => x
  | 3 => { x with stream := x.stream.drop (x.mps / 16) }
  | 4 => ({ x with in4 := x.in4.drop x.mps }).loop
  | _ => x

/-- LNY_IN_TOKEN (R523, R526, R528): `ack`: the host acknowledges the data. A RESET follows its response. -/
def execLnyInToken (ep : Fin 16) (ack : Bool) (s : State) : Host.Outcome State Fault Refusal :=
  let c := s.chip
  if !c.lnyBulk ep then .next s
  else if c.lny.halted.contains (0x80 + ep.val) then .next { s with chip := c.emit (.lnyHs ep "STALL") }
  else match c.lny.inData ep with
    | none => .next { s with chip := c.emit (.lnyHs ep "NAK") }
    | some bs =>
      let d := c.emit (.lny ep (c.lny.tog.contains (0x80 + ep.val)) bs)
      if !ack then .next { s with chip := d }
      else
        let t := { s with chip := d.updLny fun x => (x.inTaken ep).flip (0x80 + ep.val) }
        .next (if t.chip.lny.resetDue && t.chip.lny.in1.isEmpty then t.deviceReset else t)

/-! ### The commands (R525 to R527) -/

/-- R526: the opcodes that change state. -/
def lnyChanges (op : Nat) : Bool := [0x02, 0x04, 0x05, 0x06, 0x07, 0x0A, 0x0B, 0x0C].contains op

/-- The command of opcode `op` that waits to be carried out; WREN 0 refuses one that changes state. -/
def State.lnyRun (s : State) (op : Nat) (g : LnyCmd → State) : Host.Outcome State Fault Refusal :=
  let c := s.chip
  if c.dead || c.aon.testen || !c.lnyFabric then .next s
  else match c.lnyReady op with
    | none => .next s
    | some m => if lnyChanges op && !c.lny.wren then .next { s with chip := c.lnyDone 0x0C } else .next (g m)

/-- The same for a command whose effect is on the chip. -/
def State.lnyChip (s : State) (op : Nat) (g : LnyCmd → Chip → Chip) : Host.Outcome State Fault Refusal :=
  s.lnyRun op fun m => { s with chip := g m s.chip }

/-- LNY_READ (R526, R527). (DEDUCED, log 205) -/
def execLnyRead (s : State) : Host.Outcome State Fault Refusal :=
  s.lnyChip 0x01 fun m c =>
    let o := m.arg0.toNat
    let n := m.arg1.toNat
    if o % 4 ≠ 0 ∨ n = 0 ∨ 4096 < n ∨ 0x2000000 < o + 4 * n then c.lnyDone Ad.invalidParam
    else if (List.range n).any fun i => !c.regRuns (o + 4 * i) then c.lnyDone 0x0B
    else
      let r := c.wakeFabric.readDwords s.locks s.otp o n
      r.2.lnyDone Ad.success 0#32 0#32 (wordsBytes r.1.reverse)

/-- LNY_WRITE (R526, R527). -/
def execLnyWrite (s : State) : Host.Outcome State Fault Refusal :=
  s.lnyRun 0x02 fun m =>
    let o := m.arg0.toNat
    let c := s.chip
    if o % 4 ≠ 0 ∨ 0x2000000 ≤ o then { s with chip := c.lnyDone Ad.invalidParam }
    else if !([0x04, 0x05, 0x1B].contains (o / 0x10000)) then { s with chip := c.lnyDone Ad.access }
    else if !c.regRuns o then { s with chip := c.lnyDone 0x0B }
    else ({ s with chip := c.wakeFabric.lnyDone Ad.success }).bar0Write 0 o m.arg1

/-- R489, R490: history slot `k` as FLT_HISTk shows it. (DESIGN CHOICE, log 177) -/
def Chip.histSlot (c : Chip) (k : Nat) : List Byte :=
  match Tab.find c.hist.slots k with
  | some e => wordsBytes e.dwords
  | none => List.replicate 16 0#8

/-- LNY_HISTORY (R526). -/
def execLnyHistory (s : State) : Host.Outcome State Fault Refusal :=
  s.lnyChip 0x03 fun _ c =>
    c.lnyDone Ad.success (mkWord [(b2n c.hist.valid, 31), (c.hist.seq, 0)]) 0#32 ((List.range 32).map c.histSlot).flatten

/-- R485: what a clear command names: a source, or 0xFFFF for all; none when there is no such source. (DEDUCED, log
212). (DEDUCED, log 212) -/
def Chip.clearNamed (c : Chip) (n : Nat) : Option Chip :=
  if n = 0xFFFF then some c.clearAll else if FltSrc.listed n then some (c.clearSrc n true true) else none

/-- LNY_CLEAR (R485, R526). -/
def execLnyClear (s : State) : Host.Outcome State Fault Refusal :=
  s.lnyChip 0x04 fun m c =>
    match c.wakeFabric.clearNamed m.arg0.toNat with
    | some d => d.lnyDone Ad.success
    | none => c.lnyDone Ad.invalidParam

/-- R430: a state and a cluster that POWER_STATE takes. -/
def powerParamBad (state cluster : Nat) : Bool := state == 0 || decide (5 < state) || decide (15 < cluster)

/-- LNY_POWER (R447, R526). -/
def execLnyPower (s : State) : Host.Outcome State Fault Refusal :=
  s.lnyChip 0x05 fun m c =>
    let st := bits m.arg0 2 0
    let k := bits m.arg0 11 8
    if bits m.arg0 7 3 ≠ 0 ∨ bits m.arg0 31 12 ≠ 0 ∨ powerParamBad st k then c.lnyDone Ad.invalidParam
    else if c.powerRefused st k then c.lnyDone Ad.badState
    else c.lnyBegun.powerStart .lanyard st k

/-- LNY_RETRY (R464, R526). -/
def execLnyRetry (s : State) : Host.Outcome State Fault Refusal :=
  s.lnyChip 0x06 fun _ c =>
    let st := c.powerRetry.1
    let c := c.lnyDone st
    if st = Ad.success then c.powerRetry.2 else c

/-- LNY_RESET (R526, R529): the reset follows the response, or at once where VBUS has fallen. -/
def execLnyReset (s : State) : Host.Outcome State Fault Refusal :=
  s.lnyRun 0x07 fun m =>
    if m.arg0 ≠ 0x5A5A#32 then { s with chip := s.chip.lnyDone Ad.invalidParam }
    else
      let t := { s with chip := (s.chip.lnyDone Ad.success).updLny fun x => { x with resetDue := true } }
      if s.chip.lny.vbus then t else t.deviceReset

/-- LNY_IDENTIFY (R431, R526). -/
def execLnyIdentify (s : State) : Host.Outcome State Fault Refusal :=
  s.lnyChip 0x08 fun _ c => c.lnyDone Ad.success 0#32 0#32 (c.identity 0)

/-- LNY_CAL_EXPORT (R526, R542). -/
def execLnyCalExport (s : State) : Host.Outcome State Fault Refusal :=
  s.lnyChip 0x09 fun _ c => c.lnyDone Ad.success 0#32 0#32 ((List.range 4096).map c.calByte)

/-- LNY_CAL_WRITE (R526, R539). The LENGTH has been checked against the type's. -/
def execLnyCalWrite (s : State) : Host.Outcome State Fault Refusal :=
  s.lnyChip 0x0A fun m c =>
    let t := m.arg0.toNat
    if !calBodyOk t m.data then c.lnyDone Ad.invalidParam
    else if c.calWorn t then c.lnyDone Ad.resource
    else if c.calRefused s.locks then c.lnyDone Ad.badState
    else c.lnyBegun.calStart .lanyard t m.data

/-- The staging copy can be reached: the DRAM is out of self-refresh (R464, R501). (DEDUCED, log 206) -/
def Chip.imageRuns (c : Chip) : Bool := c.insideRuns

/-- LNY_IMAGE_STAGE (R526, R551). -/
def execLnyImageStage (s : State) : Host.Outcome State Fault Refusal :=
  s.lnyChip 0x0B fun m c =>
    if !c.imageRuns then c.lnyDone 0x0B
    else if c.stageRefused then c.lnyDone Ad.badState
    else c.lnyBegun.stageStart .lanyard s.otp.keyHash m.data

/-- LNY_IMAGE_APPLY (R526, R552). -/
def execLnyImageApply (s : State) : Host.Outcome State Fault Refusal :=
  s.lnyChip 0x0C fun m c =>
    if !c.imageRuns then c.lnyDone 0x0B
    else if c.applyBad m.arg0.toNat then c.lnyDone Ad.invalidParam
    else if c.applyRefused then c.lnyDone Ad.badState
    else (c.imageApply m.arg0.toNat).lnyDone Ad.success

end Sys2Proof.Machine
end

