-- ==== Sys2Proof/Machine/NetRx.lean ====
section
/-!
DEFINITION. The Ethernet frames received: their acceptance (R400, R402), openings and closings (R413, R414), sequencing
(R415 to R417, R420), and the remote host's records (R404, R405, R408 to R410, R421).
-/
namespace Sys2Proof.Machine

/-! ### Acceptance (R399, R400, R402, R572) -/

/-- R402: the receive SA that a SecTAG names, with its number; the SCI stands in words 8 and 9. -/
def EthPort.rxSaOf (p : EthPort) (t : RxSec) : Option (Nat × Sa) :=
  p.rxSa.find? fun e => e.1 % 4 == t.an.val && e.2.enabled && dw e.2.words 9 ++ dw e.2.words 8 == t.sci

/-- R402: validation and replay protection. `none`: the frame fails; else the port after it. -/
def EthPort.validate (p : EthPort) (t : RxSec) : Option EthPort :=
  match p.rxSaOf t with
  | none => none
  | some (n, s) =>
    if !t.icvOk || decide (t.pn.toNat + s.replay < s.pn) then none
    else some { p with rxSa := Tab.put p.rxSa n { s with pn := max s.pn (t.pn.toNat + 1) } }

/-- What becomes of a received frame. -/
inductive RxFate where
  | fcs | type_ | macsec | other | accepted
  deriving DecidableEq, Repr

/-- R399, R400: judge a frame that port `p` receives: its fate, and the port after the MACsec check. (DESIGN CHOICE,
log 142) -/
def EthPort.judge (p : EthPort) (f : EthFrame) : RxFate × EthPort :=
  if !f.fcsOk then (.fcs, p)
  else if f.etype = 0x8808#16 then (.type_, p)
  else if f.da.toNat ≠ p.mac ∨ (if p.jumbo then 9018 else 1518) < f.len.val then (.other, p)
  else
    let after := match f.sec with
      | none => if p.macsecReq && f.etype == 0x88B5#16 then none else some p
      | some t => p.validate t
    match after with
    | none => (.macsec, p)
    | some q => if f.etype = 0x88B5#16 then (.accepted, q) else (.type_, q)

/-- R422: a counter of NET_Pi_DROP. (DESIGN CHOICE, log 140) -/
def EthPort.drop (p : EthPort) (k : Nat) : EthPort :=
  match k with
  | 0 => { p with badFcs := satAdd 0xFF p.badFcs 1 }
  | 1 => { p with badMacsec := satAdd 0xFF p.badMacsec 1 }
  | 2 => { p with noAssoc := satAdd 0xFF p.noAssoc 1 }
  | _ => { p with otherType := satAdd 0xFF p.otherType 1 }

/-- The port takes the frame, or drops and counts it. Which field of NET_Pi_DROP counts a frame that is too long or for
another address is a free value. -/
def Chip.rxFrame (c : Chip) (i : Nat) (f : EthFrame) : RxFate × Chip :=
  let r := (c.eth i).judge f
  let c := c.updEth i fun _ => r.2
  match r.1 with
  | .fcs => (.fcs, c.updEth i fun p => p.drop 0)
  | .macsec => (.macsec, c.updEth i fun p => p.drop 1)
  | .type_ => (.type_, c.updEth i fun p => p.drop 3)
  | .other =>
    let v := c.fresh
    (.other, v.2.updEth i fun p => p.drop (Config.freeNat v.1 % 4))
  | .accepted => (.accepted, { c with net := { c.net with gated := false } })

/-- The port receives: it is enabled, its link is up, and the network island has power. -/
def Chip.rxRuns (c : Chip) (i : Nat) : Bool := c.netRuns && (c.eth i).en && (c.eth i).link

/-- R402: an association accepts a frame's tag. -/
def Assoc.tagOk (a : Assoc) (f : EthFrame) : Bool :=
  if a.tagged then f.tag.any fun t => t.2.val == a.vid else f.tag.all fun t => t.2.val == 0

/-- R413, R420: the slot with an association ID that receives on port `i`. -/
def Chip.slotOf (c : Chip) (i : Nat) (id : BitVec 16) : Option Nat :=
  (List.range 32).find? fun k =>
    let a := c.assoc k
    a.valid && a.id == id.toNat && (a.failover || (if a.st == .closed then a.port else a.curPort) == i)

/-- ETHERNET_FRAME_RECEIVED (R400, R407): a frame that is dropped, here or for the VER, KIND and ASSOC of its first header
dword `hdr`. A CRQ frame of a listed KIND is taken by the command of its KIND. -/
def execEthernetFrameReceived (i : Fin 2) (f : EthFrame) (hdr : Word) (s : State) : Host.Outcome State Fault Refusal :=
  s.live fun c =>
    if !c.rxRuns i then c
    else
      let r := c.rxFrame i f
      let listed := bits hdr 7 0 == 1 && decide (1 ≤ bits hdr 11 8) && decide (bits hdr 11 8 ≤ 6)
      if r.1 ≠ .accepted then r.2
      else match r.2.slotOf i (hdr.extractLsb' 16 16) with
        | none => if listed then c else r.2.updEth i fun p => p.drop 2
        | some k => if listed then c else r.2.updAssoc k fun a => { a with badRec := satAdd 0xFFFF a.badRec 1 }

/-! ### The records of the remote host (R404, R405, R408 to R410, R421) -/

/-- Put a record into the association's queue (R411). -/
def Chip.queueRec (c : Chip) (k : Nat) (r : RecOut) : Chip := c.updAssoc k fun a => { a with queue := a.queue ++ [r] }

/-- R410: record `j` of the frame with sequence number `seq` fails a check; a READ is answered with READRSP in place of
ERROR. -/
def Chip.recFails (c : Chip) (k j reason : Nat) (seq : Word) (read : Option Nat := none) : Chip :=
  let c := c.updAssoc k fun a => { a with badRec := satAdd 0xFFFF a.badRec 1 }
  let c := c.queueRec k (match read with
    | some tag => .readRsp 1 tag []
    | none => .error reason seq j)
  c.report (netSrc (c.assoc k).curPort) Kind.protocol 0

/-- R572: a DOORBELL or CQCONS record counts as a doorbell write. -/
def Chip.netDoorbell (c : Chip) : Chip := c.dozeWake 6

/-- R408: an FN page offset that REGRD and REGWR take. -/
def pageOffset (arg : Word) : Bool := arg.toNat % 4 == 0 && decide (arg.toNat ≤ 0x1FFC)

/-- R410: the reason for which a record fails, if it does; READ's range apart. -/
def Chip.recBad (c : Chip) (k f : Nat) (r : RecIn) : Option Nat :=
  let n := r.rlen.toNat
  let q := r.q.toNat
  let most := c.mtu k - 24
  let lenOk := match r.rtype.toNat with
    | 0x01 => if q = 0xFF then n == 4 else n == 4 || n == 96 || n == 128
    | 0x02 => n == 0
    | 0x03 => decide (1 ≤ n) && decide (n ≤ most)
    | _ => n == 8
  if r.rtype = 0#8 ∨ 6 < r.rtype.toNat then some 1
  else if !lenOk || r.body.length != n then some 2
  else match r.rtype.toNat with
    | 0x01 => if r.arg ≠ 0#32 then some 3 else if q ≠ 0xFF ∧ (64 ≤ q ∨ (c.wq f q).isNone) then some 4 else none
    | 0x02 => if q ≠ 0xFF ∧ (16 ≤ q ∨ (c.cq f q).isNone) then some 4 else none
    | 0x03 =>
      if q ≠ 0 ∨ !((c.fn f).home.any fun h => h.within r.arg.toNat n) then some 3 else none
    | 0x04 => if q ≠ 0 then some 3 else none
    | _ => if q ≠ 0 ∨ !pageOffset r.arg then some 3 else none

/-- DOORBELL (R408): the write of one TLP to a WQ slot, or SQPCOUNT. -/
def Chip.recDoorbell (c : Chip) (f : Nat) (r : RecIn) : Chip :=
  let w := bytesWords r.body (r.body.length / 4)
  (if r.q = 0xFF#8 then c.sqPcount f (dw w 0) else c.slotWrite f r.q.toNat (dw w 0) (w.drop 1)).netDoorbell

/-- CQCONS (R408). -/
def Chip.recCqcons (c : Chip) (f : Nat) (r : RecIn) : Chip :=
  (if r.q = 0xFF#8 then c.cqCcount f r.arg else c.ccount f r.q.toNat r.arg).netDoorbell

/-- READ (R408, R421): a range that lies in the window; poison is reported as R271 reports it. (DEDUCED, log 146) -/
def Chip.recRead (c : Chip) (k f : Nat) (r : RecIn) : Chip :=
  let w := bytesWords r.body 2
  let tag := bits (dw w 0) 31 16
  let n := bits (dw w 0) 15 0
  match (c.fn f).home with
  | none => c
  | some h =>
    if h.poisoned r.arg.toNat n then c.queueRec k (.readRsp 2 tag [])
    else c.queueRec k (.readRsp 0 tag (h.read r.arg.toNat n))

/-- A READ whose LEN or range R404 and R408 do not allow. (DEDUCED, log 143) -/
def Chip.readBad (c : Chip) (k f : Nat) (r : RecIn) : Bool :=
  let n := bits (dw (bytesWords r.body 2) 0) 15 0
  r.rtype == 0x04#8 && (n == 0 || decide (c.mtu k - 24 < n) || !((c.fn f).home.any fun h => h.within r.arg.toNat n))

/-- REGRD (R408): a read of the function's own page, with its side effects. (DEDUCED, log 144) -/
def Chip.recRegrd (c : Chip) (k f : Nat) (r : RecIn) : Chip :=
  let c := c.wakeFabric
  let v := c.fnVal f r.arg.toNat
  (c.fnClear f r.arg.toNat).queueRec k (.regRsp 0 (bits (dw (bytesWords r.body 2) 0) 15 0) v r.arg.toNat)

/-- REGWR (R405, R408). -/
def Chip.recRegwr (c : Chip) (f : Nat) (r : RecIn) : Chip := c.wakeFabric.fnWrite f r.arg.toNat (dw (bytesWords r.body 2) 0)

/-- The effect of a record that passes the checks. -/
def Chip.recEffect (c : Chip) (k f : Nat) (r : RecIn) : Chip :=
  match r.rtype.toNat with
  | 0x01 => c.recDoorbell f r
  | 0x02 => c.recCqcons f r
  | 0x03 => c.hostWrite f (BitVec.ofNat 64 r.arg.toNat) r.body
  | 0x04 => c.recRead k f r
  | 0x05 => c.recRegrd k f r
  | _ => c.recRegwr f r

/-- R410: apply record `j` of the frame with sequence number `seq`; the first component: it has passed the checks. -/
def Chip.applyRec (c : Chip) (k f j : Nat) (seq : Word) (r : RecIn) : Bool × Chip :=
  match c.recBad k f r with
  | some reason => (false, c.recFails k j reason seq)
  | none =>
    if c.readBad k f r then (false, c.recFails k j 3 seq (some (bits (dw (bytesWords r.body 2) 0) 31 16)))
    else (true, c.recEffect k f r)

/-- R410: the records of a frame in their order, up to the first that fails. -/
def Chip.applyRecs (c : Chip) (k f : Nat) (seq : Word) (rs : List RecIn) : Chip :=
  (rs.zipIdx.foldl (fun (t : Bool × Chip) (e : RecIn × Nat) => if t.1 then t.2.applyRec k f e.2 seq e.1 else t) (true, c)).2

/-- A record on its own, as the `j`-th of the last frame that association `a` received in sequence. (DESIGN CHOICE,
log 141) -/
def State.rec_ (s : State) (a : Fin 32) (j : Nat) (r : RecIn) : Host.Outcome State Fault Refusal :=
  s.live fun c =>
    match (c.assoc a).fn with
    | some f => if c.netRuns ∧ (c.assoc a).live then (c.applyRec a f j ((c.assoc a).rxSeq - 1#32) r).2 else c
    | none => c

/-- A record of the host with its body whole. -/
def recIn (rtype q : Byte) (arg : Word) (body : List Byte) : RecIn :=
  { rtype := rtype, q := q, rlen := BitVec.ofNat 16 body.length, arg := arg, body := body }

/-- DOORBELL_RECORD (R408). -/
def execDoorbellRecord (a : Fin 32) (j : Fin 65536) (q : Byte) (body : List Byte) (s : State) : Host.Outcome State Fault Refusal :=
  s.rec_ a j (recIn 0x01#8 q 0#32 body)

/-- CQCONS_RECORD (R408). -/
def execCqconsRecord (a : Fin 32) (j : Fin 65536) (q : Byte) (arg : Word) (s : State) : Host.Outcome State Fault Refusal :=
  s.rec_ a j (recIn 0x02#8 q arg [])

/-- WRITE_RECORD (R404, R408, R410). -/
def execWriteRecord (a : Fin 32) (j : Fin 65536) (arg : Word) (body : List Byte) (s : State) : Host.Outcome State Fault Refusal :=
  s.rec_ a j (recIn 0x03#8 0#8 arg body)

/-- READ_RECORD (R408, R421): LEN and TAG. -/
def execReadRecord (a : Fin 32) (j : Fin 65536) (arg : Word) (len tag : Fin 65536) (s : State) : Host.Outcome State Fault Refusal :=
  s.rec_ a j (recIn 0x04#8 0#8 arg (natBytes 2 len ++ natBytes 2 tag ++ natBytes 4 0))

/-- REGRD_RECORD (R408). -/
def execRegrdRecord (a : Fin 32) (j : Fin 65536) (arg : Word) (tag : Fin 65536) (s : State) : Host.Outcome State Fault Refusal :=
  s.rec_ a j (recIn 0x05#8 0#8 arg (natBytes 2 tag ++ natBytes 6 0))

/-- REGWR_RECORD (R408). -/
def execRegwrRecord (a : Fin 32) (j : Fin 65536) (arg w : Word) (s : State) : Host.Outcome State Fault Refusal :=
  s.rec_ a j (recIn 0x06#8 0#8 arg (wordBytes w ++ natBytes 4 0))

/-! ### Frames of an association (R413 to R417, R420) -/

/-- A CRQ frame received on port `i`, other than OPEN: the slot that takes it, and the chip; it is dropped where it
matches no association (R402, R413) or MACsec is wanted of it. (DEDUCED, log 139) -/
def Chip.rxAssoc (c : Chip) (i : Nat) (f : RxFrame) : Option Nat × Chip :=
  let r := c.rxFrame i f.eth
  if r.1 ≠ .accepted then (none, r.2)
  else match r.2.slotOf i f.assoc with
    | none => (none, r.2.updEth i fun p => p.drop 2)
    | some k =>
      let a := r.2.assoc k
      if !a.tagOk f.eth then (none, r.2.updEth i fun p => p.drop 2)
      else if a.macReq && f.eth.sec.isNone then (none, r.2.updEth i fun p => p.drop 1)
      else
        let c := r.2.updEth i fun p => { p with rxcnt := satAdd 0xFFFFFFFF p.rxcnt 1 }
        (if a.live then some k else none, c)

/-- R407, R416: the peer's WIN. (DEDUCED, log 145) -/
def Chip.takeWin (c : Chip) (k : Nat) (f : RxFrame) : Chip := c.updAssoc k fun a => { a with peerWin := f.win.toNat }

/-- R417: the frame is acknowledged at once when it asks for it. -/
def Chip.ackIf (c : Chip) (k : Nat) (b : Bool) : Chip := if b then c.ackNow k else c

/-- R420: a frame that passes arrives on the port that is not current. -/
def Chip.portOf (c : Chip) (k i : Nat) : Chip := if (c.assoc k).curPort ≠ i ∧ c.canFail k then c.failover k else c

/-- CRQ_DATA (R410, R415 to R417, R419). -/
def execCrqData (i : Fin 2) (f : RxFrame) (s : State) : Host.Outcome State Fault Refusal :=
  s.live fun c =>
    if !c.rxRuns i then c
    else match c.rxAssoc i f with
    | (none, c) => c
    | (some k, c) =>
      let c := c.takeAck k f.ack
      let a := c.assoc k
      let d := (f.seq - a.rxSeq).toNat
      if d ≠ 0 then
        let c := if a.window ≤ d ∧ d < 2 ^ 31 then c.updAssoc k fun a => { a with outOfWin := satAdd 0xFFFF a.outOfWin 1 } else c
        c.ackNow k
      else match a.fn with
      | none => c
      | some g =>
        let c := (c.takeWin k f).portOf k i
        let c := if (c.assoc k).st = .stalled then c.assocSt k .opened else c
        let c := c.updAssoc k fun a => { a with rxSeq := a.rxSeq + 1#32, rxUnacked := a.rxUnacked + 1 }
        let c := c.applyRecs k g f.seq f.recs
        let a := c.assoc k
        c.ackIf k (f.ackreq || decide (16 ≤ a.rxUnacked) || (a.ackDly == 0 && a.rxUnacked != 0))

/-- CRQ_ACK (R416, R417). -/
def execCrqAck (i : Fin 2) (f : RxFrame) (s : State) : Host.Outcome State Fault Refusal :=
  s.live fun c =>
    if !c.rxRuns i then c
    else match c.rxAssoc i f with
    | (none, c) => c
    | (some k, c) => ((c.takeAck k f.ack).takeWin k f).ackIf k f.ackreq

/-- CRQ_CLOSE (R414). -/
def execCrqClose (i : Fin 2) (f : RxFrame) (s : State) : Host.Outcome State Fault Refusal :=
  s.live fun c =>
    if !c.rxRuns i then c
    else match c.rxAssoc i f with
    | (none, c) => c
    | (some k, c) => (c.takeAck k f.ack).assocDormant k false

/-- R407, R413: an invalid OPEN is answered with RESET and a reason, with the frame's own tag. (DEDUCED, log 133;
DEDUCED, log 134) -/
def Chip.rxReset (c : Chip) (i : Nat) (f : RxFrame) (k : Option Nat) (reason : Nat) : Chip :=
  let a : Assoc := match k with | some k => c.assoc k | none => {}
  let out : CrqFrame :=
    { kind := .reset
      assoc := f.assoc.toNat
      seq := a.txSeq
      ack := a.rxSeq
      win := reason
      da := f.eth.sa.toNat
      sa := (c.eth i).mac
      tag := f.eth.tag.map fun t => (t.1.val, t.2.val) }
  c.putFrame i 32 out

/-- R413: the COMPLETION records that resume: a CQ's entries from its consumer count, and so the admin completion ring's. -/
def Chip.resumeRecs (c : Chip) (f : Nat) : List RecOut :=
  match (c.fn f).home with
  | none => []
  | some h =>
    let of := fun (num : Nat) (base : Addr) (log size : Nat) (from_ upto : Word) =>
      (List.range (upto - from_).toNat).map fun j =>
        let n := from_ + BitVec.ofNat 32 j
        RecOut.completion num n (h.read (entryAddr base log n size).toNat size)
    let q := (c.fn f).aq
    ((c.cqNums f).map fun n => match c.cq f n with
      | some q => of n q.base q.log2 32 q.ccount q.pcount
      | none => []).flatten ++ of 0xFF q.cqBase q.cqLog 64 q.cqC q.cqP

/-- R413: the association opens with the peer's initial SEQ: at CFG.PORT, with a fresh sequence space. -/
def Assoc.open_ (a : Assoc) (f : RxFrame) : Assoc :=
  { a with
    peer := if a.peer = 0 then f.eth.sa.toNat else a.peer
    curPort := a.port
    txSeq := if a.opened then a.txSeq + 65536#32 else 0#32
    rxSeq := f.seq
    openSeq := some f.seq
    iss := if a.opened then a.txSeq + 65536#32 else 0#32
    opened := true
    unacked := []
    peerWin := f.win.toNat
    tries := 0
    backoff := 1
    retx := false
    rxUnacked := 0 }

/-- R413, R123: the AQ is enabled with the geometry of NET_HOME. -/
def Chip.homedAq (c : Chip) (f : Nat) : Chip :=
  let q := (c.fn f).aq
  c.aqCfg f (mkWord [(q.sqLog, 0), (q.cqLog, 8), (1, 31)])

/-- R413: OPEN_ACK carries the initial sequence number of the opening, and ACK equal to the OPEN's SEQ. (DEDUCED, log
261). (DEDUCED, log 261) -/
def Chip.openAck (c : Chip) (k : Nat) (f : RxFrame) : Chip :=
  let a := c.assoc k
  let out : CrqFrame :=
    { kind := .openAck
      assoc := a.id
      seq := a.iss
      ack := f.seq
      win := a.window
      recs := []
      da := a.peer
      sa := (c.eth a.curPort).mac
      tag := a.vlan }
  c.putFrame a.curPort k out

/-- R413: a valid OPEN for slot `k`, to which function `g` is homed. (DEDUCED, log 138) -/
def Chip.opening (c : Chip) (k g i : Nat) (f : RxFrame) : Chip :=
  let a := c.assoc k
  let afresh := a.st == .closed || !f.resume
  if a.live && a.openSeq == some f.seq then (c.portOf k i).openAck k f
  else
    let c := if a.st ≠ .closed ∧ ¬ f.resume then
        (c.fnReset g).updFn g fun x => { x with home := x.home.map fun h => { h with mem := [], poison := [] } }
      else c
    let kept := if afresh then [] else c.resumeRecs g ++ a.queue.filter fun r => match r with | .completion .. => false | _ => true
    let c := c.updAssoc k fun a => { a.open_ f with queue := kept }
    let c := (c.assocSt k .opened).portOf k i
    (if afresh then c.homedAq g else c).openAck k f

/-- CRQ_OPEN (R402, R413). -/
def execCrqOpen (i : Fin 2) (f : RxFrame) (s : State) : Host.Outcome State Fault Refusal :=
  s.live fun c =>
    if !c.rxRuns i then c
    else
      let r := c.rxFrame i f.eth
      let c := r.2
      let none_ := fun (c : Chip) (k : Option Nat) => (c.updEth i fun p => p.drop 2).rxReset i f k 1
      if r.1 = .macsec ∧ f.eth.sec = none then c.rxReset i f (c.slotOf i f.assoc) 4
      else if r.1 ≠ .accepted then c
      else match c.slotOf i f.assoc with
      | none => none_ c none
      | some k =>
        let a := c.assoc k
        if !a.tagOk f.eth then none_ c (some k)
        else if a.macReq && f.eth.sec.isNone then (c.updEth i fun p => p.drop 1).rxReset i f (some k) 4
        else
          let c := c.updEth i fun p => { p with rxcnt := satAdd 0xFFFFFFFF p.rxcnt 1 }
          if a.peer ≠ 0 ∧ a.peer ≠ f.eth.sa.toNat then c.rxReset i f (some k) 2
          else match a.fn with
          | none => c.rxReset i f (some k) 3
          | some g => c.opening k g i f

end Sys2Proof.Machine
end

