-- ==== Sys2Proof/Machine/Tether.lean ====
section
/-!
DEFINITION. The Tether (R530 to R535, R557).
-/
namespace Sys2Proof.Machine

def Chip.updTth (c : Chip) (g : Tth → Tth) : Chip := { c with tth := g c.tth }

/-- R531: the address in use. -/
def Tth.addr (x : Tth) : Nat := 0x58 + x.strap

/-- TETHER_ADDRESS_MATCH (R453, R454, R530, R531): the controller sends the 7-bit address `a`. -/
def execTetherAddressMatch (a : Fin 128) (s : State) : Host.Outcome State Fault Refusal :=
  s.run fun c =>
    if a.val ≠ c.tth.addr then c
    else if c.pwr.window then (c.updTth fun x => { x with nacks := satAdd 0xFFFF x.nacks 1 }).emit (.tthAck false)
    else
      let c := c.emit (.tthAck true)
      if c.pwr.tetherWake then c.wakeOn 0 true else c

/-- The command in progress ends with a status (R532). -/
def Chip.tthEnd (c : Chip) (st : Nat) : Chip := c.updTth fun x => { x with lastStat := st }

/-- A PEC that a write sends, correct or not; none: none is sent. With PECREQ 1 it must be there. -/
def Tth.pecBad (x : Tth) (pec : Option Bool) : Bool := pec == some false || (x.pecReq && pec.isNone)

/-- A command of the Tether: it is taken, refused for its PEC, or refused with LOCKED. In the closing window its
address has not been acknowledged, and it is not taken. RESULT shows it as running until it ends. (DEDUCED, log 207)
-/
def State.tthRun (s : State) (code : Nat) (pec : Option Bool) (changes : Bool) (g : State → State) :
    Host.Outcome State Fault Refusal :=
  let c := s.chip
  if c.dead ∨ c.pwr.window then .next s
  else if c.tth.pecBad pec then .next { s with chip := c.updTth fun x => { x with pecErr := satAdd 0xFF x.pecErr 1 } }
  else
    let c := c.updTth fun x => { x with lastCmd := code, lastStat := 0xFF }
    if changes && !c.tth.wrCmd then .next { s with chip := c.tthEnd 0x0C } else .next (g { s with chip := c })

/-- The same for a command whose effect is on the chip. -/
def State.tthChip (s : State) (code : Nat) (pec : Option Bool) (changes : Bool) (g : Chip → Chip) :
    Host.Outcome State Fault Refusal :=
  s.tthRun code pec changes fun s => { s with chip := g s.chip }

/-- A read that needs no PEC check. (DEDUCED, log 213) -/
def noPec : Option Bool := some true

/-- R533: the 8 status bytes. -/
def Chip.tthStatus (c : Chip) : List Byte :=
  let b := fun (x : Bool) (i : Nat) => (b2n x, i)
  wordsBytes [
    mkWord [(c.pwr.st.code, 0), b c.faultN 8, b c.tst.safe 9, b (c.pwr.st == .mgmtOnly) 10, b c.tst.postdone 11,
      b c.tst.degraded 12, b c.tth.mbfull 13, b c.tth.dbWaits 14, b (c.pwr.retLost0 != 0 || c.pwr.retLost1 != 0) 15,
      (c.hist.seq, 16)],
    mkWord [(c.pwr.clusleep, 0), (c.pwr.failStep, 16), (c.pwr.retries, 20), (c.tst.cause, 24)]]

/-- TTH_STATUS (R533). -/
def execTthStatus (s : State) : Host.Outcome State Fault Refusal :=
  s.tthChip 0x01 noPec false fun c => (c.emit (.tth c.tthStatus)).tthEnd Ad.success

/-- TTH_SELECT (R532). (DEDUCED, log 208) -/
def execTthSelect (w : Word) (pec : Option Bool) (s : State) : Host.Outcome State Fault Refusal :=
  s.tthChip 0x02 pec false fun c =>
    if w.toNat % 4 ≠ 0 ∨ 0x2000000 ≤ w.toNat then c.tthEnd Ad.invalidParam
    else (c.updTth fun x => { x with sel := w.toNat }).tthEnd Ad.success

/-- The Tether reads the dword at an offset: all ones where its register does not run. -/
def Chip.tthDword (c : Chip) (l : Locks) (t : Otp) (o : Nat) : Word × Chip :=
  if c.regRuns o then (if regAlwaysOn o then c else c.wakeFabric).bar0Read l t 0 o else (0xFFFFFFFF#32, c)

/-- The Tether reads `n` dwords from an offset. -/
def Chip.tthDwords (c : Chip) (l : Locks) (t : Otp) (o n : Nat) : List Word × Chip :=
  (List.range n).foldl (fun (r : List Word × Chip) i =>
    let a := r.2.tthDword l t (o + 4 * i)
    (r.1 ++ [a.1], a.2)) ([], c)

/-- The offset after a read of 8 dwords. -/
def Tth.advance (x : Tth) : Tth := { x with sel := (x.sel + 32) % 2 ^ 32 }

/-- TTH_REGDATA_READ (R527, R532). -/
def execTthRegdataRead (s : State) : Host.Outcome State Fault Refusal :=
  s.tthChip 0x03 noPec false fun c =>
    let o := c.tth.sel
    let asleep := (List.range 8).any fun i => !c.regRuns (o + 4 * i)
    let r := c.tthDwords s.locks s.otp o 8
    ((r.2.emit (.tth (wordsBytes r.1))).updTth Tth.advance).tthEnd (if asleep then 0x0B else Ad.success)

/-- TTH_FABRIC_TIMEOUT (R534): the answer to dword `k` of a REGDATA read does not come in 100 µs. Whether the register
was read is a free value. (DESIGN CHOICE, log 210) -/
def execTthFabricTimeout (k : Fin 8) (s : State) : Host.Outcome State Fault Refusal :=
  let o := s.chip.tth.sel + 4 * k.val
  if regAlwaysOn o ∨ ¬ s.chip.regRuns o then .next s
  else s.tthChip 0x03 noPec false fun c =>
    let r := c.tthDwords s.locks s.otp c.tth.sel k
    let (v, c) := r.2.fresh
    let c := if Config.freeNat v % 2 = 1 then (c.tthDword s.locks s.otp o).2 else c
    ((c.emit (.tth (wordsBytes (r.1 ++ List.replicate (8 - k) 0xFFFFFFFF#32)))).updTth Tth.advance).tthEnd 0x0D

/-- TTH_REGDATA_WRITE (R532). Only a write by PF0 of TTH_MAILBOX drives ALERT# (R535). (DEDUCED, log 209) -/
def execTthRegdataWrite (w : Word) (pec : Option Bool) (s : State) : Host.Outcome State Fault Refusal :=
  s.tthRun 0x03 pec true fun s =>
    let o := s.chip.tth.sel
    if o / 0x10000 ≠ 0x04 ∧ o / 0x10000 ≠ 0x1D then { s with chip := s.chip.tthEnd Ad.access }
    else if o = 0x1D000C then
      { s with chip := (s.chip.updTth fun x => { x with mailbox := w, mbfull := true }).tthEnd Ad.success }
    else ({ s with chip := s.chip.tthEnd Ad.success }).bar0Write 0 o w

/-- TTH_RESULT (R532): the command before it, and its status. -/
def execTthResult (s : State) : Host.Outcome State Fault Refusal :=
  s.run fun c =>
    if c.pwr.window then c
    else c.emit (.tth [BitVec.ofNat 8 c.tth.lastCmd, BitVec.ofNat 8 c.tth.lastStat, 0, 0])

/-- TTH_POWER (R447, R532, R534). -/
def execTthPower (st k : Byte) (pec : Option Bool) (s : State) : Host.Outcome State Fault Refusal :=
  s.tthChip 0x10 pec true fun c =>
    if powerParamBad st.toNat k.toNat then c.tthEnd Ad.invalidParam
    else if c.powerRefused st.toNat k.toNat then c.tthEnd Ad.badState
    else c.powerStart .tether st.toNat k.toNat

/-- TTH_WAKE (R454, R532): in ACTIVE it has no effect. -/
def execTthWake (pec : Option Bool) (s : State) : Host.Outcome State Fault Refusal :=
  s.tthChip 0x11 pec false fun c => (c.wakeOn 0 true).tthEnd Ad.success

/-- TTH_RETRY (R463, R464, R532). -/
def execTthRetry (pec : Option Bool) (s : State) : Host.Outcome State Fault Refusal :=
  s.tthChip 0x12 pec true fun c => c.powerRetry.2.tthEnd c.powerRetry.1

/-- TTH_CLEAR (R485, R532). -/
def execTthClear (n : Fin 65536) (pec : Option Bool) (s : State) : Host.Outcome State Fault Refusal :=
  s.tthChip 0x13 pec true fun c =>
    if !c.lnyFabric then c.tthEnd 0x0B
    else match c.wakeFabric.clearNamed n with
      | some d => d.tthEnd Ad.success
      | none => c.tthEnd Ad.invalidParam

/-- TTH_DOORBELL (R532). (DEDUCED, log 211) -/
def execTthDoorbell (w : Word) (pec : Option Bool) (s : State) : Host.Outcome State Fault Refusal :=
  s.tthChip 0x14 pec false fun c =>
    let c := c.updTth fun x => { x with doorbell := w }
    (if c.lnyFabric then c.wakeFabric.shPulse 37 else c.updTth fun x => { x with dbWaits := true }).tthEnd Ad.success

/-- TTH_MAILBOX_READ (R532, R535). -/
def execTthMailboxRead (s : State) : Host.Outcome State Fault Refusal :=
  s.tthChip 0x15 noPec false fun c =>
    let c := (c.emit (.tth (wordBytes c.tth.mailbox))).updTth fun x => { x with mbfull := false }
    (if c.faultN then c else c.alert false).tthEnd Ad.success

/-- TTH_RESET (R532). -/
def execTthReset (b : Byte) (pec : Option Bool) (s : State) : Host.Outcome State Fault Refusal :=
  s.tthRun 0x16 pec true fun s =>
    if b = 0x5A#8 then s.deviceReset else { s with chip := s.chip.tthEnd Ad.invalidParam }

/-- TTH_ALERT_RESPONSE (R535): the address is returned while ALERT# is low. -/
def execTthAlertResponse (s : State) : Host.Outcome State Fault Refusal :=
  s.run fun c => if c.tth.alertLow then (c.emit (.tth [BitVec.ofNat 8 (c.tth.addr * 2)])).alert false else c

/-- TTH_SCL_TIMEOUT (R534). -/
def execTthSclTimeout (s : State) : Host.Outcome State Fault Refusal :=
  s.run fun c => c.updTth fun x => { x with timeouts := satAdd 0xFF x.timeouts 1 }

end Sys2Proof.Machine
end

