-- ==== Sys2Proof/Machine/Dispatch.lean ====
section
/-!
DEFINITION. The dispatch: the meaning of each command.
-/
namespace Sys2Proof.Machine

def exec (i : Instr) (s : State) : Host.Outcome State Fault Refusal :=
  match i with
  | .deviceMicroframeEdge => Sys2Proof.Machine.execDeviceMicroframeEdge s
  | .crossingWordReceived w => Sys2Proof.Machine.execCrossingWordReceived w s
  | .registerWrite f bar4 off len w hi => Sys2Proof.Machine.execRegisterWrite f bar4 off len w hi s
  | .reservedOffsetAccess f bar off len write => Sys2Proof.Machine.execReservedOffsetAccess f bar off len write s
  | .bar2WriteRefused f off len => Sys2Proof.Machine.execBar2WriteRefused f off len s
  | .undecodedVfAccess n write => Sys2Proof.Machine.execUndecodedVfAccess n write s
  | .vfEnableSet => Sys2Proof.Machine.execVfEnableSet s
  | .vfEnableClear => Sys2Proof.Machine.execVfEnableClear s
  | .numvfsWrite w => Sys2Proof.Machine.execNumvfsWrite w s
  | .hostReadFailed f r e => Sys2Proof.Machine.execHostReadFailed f r e s
  | .hostReadCompletionTimeout f r => Sys2Proof.Machine.execHostReadCompletionTimeout f r s
  | .vfFlr f => Sys2Proof.Machine.execVfFlr f s
  | .pf0Flr => Sys2Proof.Machine.execPf0Flr s
  | .conventionalReset => Sys2Proof.Machine.execConventionalReset s
  | .flrComplete f => Sys2Proof.Machine.execFlrComplete f s
  | .functionResetComplete f => Sys2Proof.Machine.execFunctionResetComplete f s
  | .busMasterEnableWrite f b => Sys2Proof.Machine.execBusMasterEnableWrite f b s
  | .pmStateWrite d3 => Sys2Proof.Machine.execPmStateWrite d3 s
  | .msixControlWrite f en mask => Sys2Proof.Machine.execMsixControlWrite f en mask s
  | .msixEntryWrite f v k w => Sys2Proof.Machine.execMsixEntryWrite f v k w s
  | .reshapeAcceptance i1 => Sys2Proof.Machine.execReshapeAcceptance i1 s
  | .portMoveCut p => Sys2Proof.Machine.execPortMoveCut p s
  | .portMoveHandover p => Sys2Proof.Machine.execPortMoveHandover p s
  | .wqDoorbell f n p rest => Sys2Proof.Machine.execWqDoorbell f n p rest s
  | .pushSlotWrite f n o ws => Sys2Proof.Machine.execPushSlotWrite f n o ws s
  | .pollDoorbell f n p => Sys2Proof.Machine.execPollDoorbell f n p s
  | .pollIntervalExpiry f n => Sys2Proof.Machine.execPollIntervalExpiry f n s
  | .ringReadIssue => Sys2Proof.Machine.execRingReadIssue s
  | .ringReadReturn f n bs => Sys2Proof.Machine.execRingReadReturn f n bs s
  | .phaseReread f n => Sys2Proof.Machine.execPhaseReread f n s
  | .cqConsumerDoorbell f n w => Sys2Proof.Machine.execCqConsumerDoorbell f n w s
  | .cqSpillDrainTimeout f n => Sys2Proof.Machine.execCqSpillDrainTimeout f n s
  | .aqEnable f w => Sys2Proof.Machine.execAqEnable f w s
  | .aqReady f => Sys2Proof.Machine.execAqReady f s
  | .aqDisable f w => Sys2Proof.Machine.execAqDisable f w s
  | .aqSubmissionDoorbell f w => Sys2Proof.Machine.execAqSubmissionDoorbell f w s
  | .aqCompletionDoorbell f w => Sys2Proof.Machine.execAqCompletionDoorbell f w s
  | .adminFetch => Sys2Proof.Machine.execAdminFetch s
  | .adminCommandReadReturn f bs => Sys2Proof.Machine.execAdminCommandReadReturn f bs s
  | .identify f => Sys2Proof.Machine.execIdentify f s
  | .createCq f => Sys2Proof.Machine.execCreateCq f s
  | .deleteCq f => Sys2Proof.Machine.execDeleteCq f s
  | .createWq f => Sys2Proof.Machine.execCreateWq f s
  | .deleteWq f => Sys2Proof.Machine.execDeleteWq f s
  | .restartWq f => Sys2Proof.Machine.execRestartWq f s
  | .setChannel f => Sys2Proof.Machine.execSetChannel f s
  | .bindService f => Sys2Proof.Machine.execBindService f s
  | .unbindService f => Sys2Proof.Machine.execUnbindService f s
  | .portControl f => Sys2Proof.Machine.execPortControl f s
  | .functionReset => Sys2Proof.Machine.execFunctionReset s
  | .setFnArb => Sys2Proof.Machine.execSetFnArb s
  | .reshape => Sys2Proof.Machine.execReshape s
  | .powerState => Sys2Proof.Machine.execPowerState s
  | .netHome => Sys2Proof.Machine.execNetHome s
  | .netUnhome => Sys2Proof.Machine.execNetUnhome s
  | .selftest => Sys2Proof.Machine.execSelftest s
  | .periphDownload f payload => Sys2Proof.Machine.execPeriphDownload f payload s
  | .calMeasure => Sys2Proof.Machine.execCalMeasure s
  | .calWrite payload => Sys2Proof.Machine.execCalWrite payload s
  | .imageStage payload => Sys2Proof.Machine.execImageStage payload s
  | .imageApply => Sys2Proof.Machine.execImageApply s
  | .longSuspend f => Sys2Proof.Machine.execLongSuspend f s
  | .longResume f => Sys2Proof.Machine.execLongResume f s
  | .longCancel f => Sys2Proof.Machine.execLongCancel f s
  | .queryOp f => Sys2Proof.Machine.execQueryOp f s
  | .longOpSafePoint i1 => Sys2Proof.Machine.execLongOpSafePoint i1 s
  | .longOpDone i1 fail found => Sys2Proof.Machine.execLongOpDone i1 fail found s
  | .scrubPeriodStart => Sys2Proof.Machine.execScrubPeriodStart s
  | .scrubAccess w addr e => Sys2Proof.Machine.execScrubAccess w addr e s
  | .correctionWriteBack addr => Sys2Proof.Machine.execCorrectionWriteBack addr s
  | .periphDownloadDelayExpiry i1 => Sys2Proof.Machine.execPeriphDownloadDelayExpiry i1 s
  | .planBuild p => Sys2Proof.Machine.execPlanBuild p s
  | .joinWord p h => Sys2Proof.Machine.execJoinWord p h s
  | .portMicroframeStart p excess => Sys2Proof.Machine.execPortMicroframeStart p excess s
  | .edgeWordCompare k off => Sys2Proof.Machine.execEdgeWordCompare k off s
  | .transactionStart p t => Sys2Proof.Machine.execTransactionStart p t s
  | .expressOutInsert p h t => Sys2Proof.Machine.execExpressOutInsert p h t s
  | .lpmTransaction p t => Sys2Proof.Machine.execLpmTransaction p t s
  | .responseSync p => Sys2Proof.Machine.execResponseSync p s
  | .responseTimeout p => Sys2Proof.Machine.execResponseTimeout p s
  | .dataPacketReceived p pid bs q => Sys2Proof.Machine.execDataPacketReceived p pid bs q s
  | .handshakeReceived p pid q => Sys2Proof.Machine.execHandshakeReceived p pid q s
  | .eof2Reached p transmitting => Sys2Proof.Machine.execEof2Reached p transmitting s
  | .descriptorTimeout f n count => Sys2Proof.Machine.execDescriptorTimeout f n count s
  | .poolWaitAbort h => Sys2Proof.Machine.execPoolWaitAbort h s
  | .portReset p => Sys2Proof.Machine.execPortReset p s
  | .portSuspend p => Sys2Proof.Machine.execPortSuspend p s
  | .portResume p counting => Sys2Proof.Machine.execPortResume p counting s
  | .rearm p => Sys2Proof.Machine.execRearm p s
  | .spare p => Sys2Proof.Machine.execSpare p s
  | .returnCmd p => Sys2Proof.Machine.execReturnCmd p s
  | .testModeSet p m => Sys2Proof.Machine.execTestModeSet p m s
  | .testModeClear p => Sys2Proof.Machine.execTestModeClear p s
  | .autorecWrite p b => Sys2Proof.Machine.execAutorecWrite p b s
  | .autorecExpiry p => Sys2Proof.Machine.execAutorecExpiry p s
  | .resetSe0End p => Sys2Proof.Machine.execResetSe0End p s
  | .tokenHoldEnd p => Sys2Proof.Machine.execTokenHoldEnd p s
  | .resumeDelayEnd p => Sys2Proof.Machine.execResumeDelayEnd p s
  | .resumeKEnd p => Sys2Proof.Machine.execResumeKEnd p s
  | .lineStateChange p l dmHigh => Sys2Proof.Machine.execLineStateChange p l dmHigh s
  | .debounceEnd p => Sys2Proof.Machine.execDebounceEnd p s
  | .deviceChirp p => Sys2Proof.Machine.execDeviceChirp p s
  | .chirpWindowEnd p => Sys2Proof.Machine.execChirpWindowEnd p s
  | .hostChirpStop p => Sys2Proof.Machine.execHostChirpStop p s
  | .l1Exit p counting => Sys2Proof.Machine.execL1Exit p counting s
  | .l1ResumeKEnd p => Sys2Proof.Machine.execL1ResumeKEnd p s
  | .engineStateError p => Sys2Proof.Machine.execEngineStateError p s
  | .checkpointTimeout p => Sys2Proof.Machine.execCheckpointTimeout p s
  | .spareLoadDone p ok => Sys2Proof.Machine.execSpareLoadDone p ok s
  | .pplFrameStart k => Sys2Proof.Machine.execPplFrameStart k s
  | .pplReturnFrame k w => Sys2Proof.Machine.execPplReturnFrame k w s
  | .pplLinkTimeout k => Sys2Proof.Machine.execPplLinkTimeout k s
  | .holdTimeout k => Sys2Proof.Machine.execHoldTimeout k s
  | .monitorConversion k ch raw => Sys2Proof.Machine.execMonitorConversion k ch raw s
  | .powerGoodTimeout p => Sys2Proof.Machine.execPowerGoodTimeout p s
  | .portPowerEnable p => Sys2Proof.Machine.execPortPowerEnable p s
  | .loadShedRepeat k => Sys2Proof.Machine.execLoadShedRepeat k s
  | .powerRetry p => Sys2Proof.Machine.execPowerRetry p s
  | .retryCountClear p => Sys2Proof.Machine.execRetryCountClear p s
  | .pwroffWrite p b => Sys2Proof.Machine.execPwroffWrite p b s
  | .prtPwrctrlRetry p => Sys2Proof.Machine.execPrtPwrctrlRetry p s
  | .cdpDetect p => Sys2Proof.Machine.execCdpDetect p s
  | .enumRequestTimeout p => Sys2Proof.Machine.execEnumRequestTimeout p s
  | .hubPortResetTimeout p => Sys2Proof.Machine.execHubPortResetTimeout p s
  | .enumMessageWaitEnd f => Sys2Proof.Machine.execEnumMessageWaitEnd f s
  | .enumDescribe f n count => Sys2Proof.Machine.execEnumDescribe f n count s
  | .enumSetConfig f n count => Sys2Proof.Machine.execEnumSetConfig f n count s
  | .enumSetAlt f n count => Sys2Proof.Machine.execEnumSetAlt f n count s
  | .epReset f n count => Sys2Proof.Machine.execEpReset f n count s
  | .epConfig f n count => Sys2Proof.Machine.execEpConfig f n count s
  | .devSuspend f n count => Sys2Proof.Machine.execDevSuspend f n count s
  | .devResume f n count => Sys2Proof.Machine.execDevResume f n count s
  | .devReset f n count => Sys2Proof.Machine.execDevReset f n count s
  | .recv f n count => Sys2Proof.Machine.execRecv f n count s
  | .moverRequestIssue e => Sys2Proof.Machine.execMoverRequestIssue e s
  | .moverReadReturn k bs => Sys2Proof.Machine.execMoverReadReturn k bs s
  | .cellGrant => Sys2Proof.Machine.execCellGrant s
  | .channelSettingsWrite mark w => Sys2Proof.Machine.execChannelSettingsWrite mark w s
  | .taskPlacement => Sys2Proof.Machine.execTaskPlacement s
  | .contextCopyDone i1 seq => Sys2Proof.Machine.execContextCopyDone i1 seq s
  | .contextFetchBack i1 seq => Sys2Proof.Machine.execContextFetchBack i1 seq s
  | .laneTaskStart l r => Sys2Proof.Machine.execLaneTaskStart l r s
  | .taskDone l => Sys2Proof.Machine.execTaskDone l s
  | .taskRelease i1 => Sys2Proof.Machine.execTaskRelease i1 s
  | .laneWatchdog l => Sys2Proof.Machine.execLaneWatchdog l s
  | .timerExpiry i1 seq => Sys2Proof.Machine.execTimerExpiry i1 seq s
  | .deadlineExpiry f n count => Sys2Proof.Machine.execDeadlineExpiry f n count s
  | .serviceBufferFetchDone f n count => Sys2Proof.Machine.execServiceBufferFetchDone f n count s
  | .periodicTick h => Sys2Proof.Machine.execPeriodicTick h s
  | .hidxGetRdesc f n count => Sys2Proof.Machine.execHidxGetRdesc f n count s
  | .hidxMapLoad f n count => Sys2Proof.Machine.execHidxMapLoad f n count s
  | .hidxSetMode f n count => Sys2Proof.Machine.execHidxSetMode f n count s
  | .hidxKeymapLoad f n count => Sys2Proof.Machine.execHidxKeymapLoad f n count s
  | .hidxSendReport f n count => Sys2Proof.Machine.execHidxSendReport f n count s
  | .hidxGetReport f n count => Sys2Proof.Machine.execHidxGetReport f n count s
  | .hidxInputReport h => Sys2Proof.Machine.execHidxInputReport h s
  | .scanIdleGap h => Sys2Proof.Machine.execScanIdleGap h s
  | .ccidPowerOn f n count => Sys2Proof.Machine.execCcidPowerOn f n count s
  | .ccidPowerOff f n count => Sys2Proof.Machine.execCcidPowerOff f n count s
  | .ccidXfr f n count => Sys2Proof.Machine.execCcidXfr f n count s
  | .ccidSlotStatus f n count => Sys2Proof.Machine.execCcidSlotStatus f n count s
  | .ccidSetOpts f n count => Sys2Proof.Machine.execCcidSetOpts f n count s
  | .ccidEscape f n count => Sys2Proof.Machine.execCcidEscape f n count s
  | .ccidSlotNotification h => Sys2Proof.Machine.execCcidSlotNotification h s
  | .ccidHardwareError h => Sys2Proof.Machine.execCcidHardwareError h s
  | .ccidResponse h => Sys2Proof.Machine.execCcidResponse h s
  | .ccidCommandTimeout h k => Sys2Proof.Machine.execCcidCommandTimeout h k s
  | .ccidAbortTimeout h k => Sys2Proof.Machine.execCcidAbortTimeout h k s
  | .ccidVoltageRetryWait h k => Sys2Proof.Machine.execCcidVoltageRetryWait h k s
  | .strmTx f n count => Sys2Proof.Machine.execStrmTx f n count s
  | .strmSetLine f n count => Sys2Proof.Machine.execStrmSetLine f n count s
  | .strmSetCtrl f n count => Sys2Proof.Machine.execStrmSetCtrl f n count s
  | .strmBreak f n count => Sys2Proof.Machine.execStrmBreak f n count s
  | .strmPortStatus f n count => Sys2Proof.Machine.execStrmPortStatus f n count s
  | .strmDeviceId f n count => Sys2Proof.Machine.execStrmDeviceId f n count s
  | .strmSoftReset f n count => Sys2Proof.Machine.execStrmSoftReset f n count s
  | .strmRxCfg f n count => Sys2Proof.Machine.execStrmRxCfg f n count s
  | .streamJob f n count => Sys2Proof.Machine.execStreamJob f n count s
  | .strmRxData h => Sys2Proof.Machine.execStrmRxData h s
  | .strmRxidleExpiry h => Sys2Proof.Machine.execStrmRxidleExpiry h s
  | .serialState h => Sys2Proof.Machine.execSerialState h s
  | .jobStall h => Sys2Proof.Machine.execJobStall h s
  | .hlthSetOpts f n count => Sys2Proof.Machine.execHlthSetOpts f n count s
  | .hlthSnapshot f n count => Sys2Proof.Machine.execHlthSnapshot f n count s
  | .evtClaimRead f => Sys2Proof.Machine.execEvtClaimRead f s
  | .evtVclaimRead f v => Sys2Proof.Machine.execEvtVclaimRead f v s
  | .evtCompleteWrite f w => Sys2Proof.Machine.execEvtCompleteWrite f w s
  | .evtSourceConfigWrite f i1 w => Sys2Proof.Machine.execEvtSourceConfigWrite f i1 w s
  | .evtSharedCfgWrite n w route => Sys2Proof.Machine.execEvtSharedCfgWrite n w route s
  | .evtSharedRouteWrite n w => Sys2Proof.Machine.execEvtSharedRouteWrite n w s
  | .evtVcoalWrite f v w => Sys2Proof.Machine.execEvtVcoalWrite f v w s
  | .evtGdisWrite f w => Sys2Proof.Machine.execEvtGdisWrite f w s
  | .coalescingTimerExpiry f v => Sys2Proof.Machine.execCoalescingTimerExpiry f v s
  | .gpioInputChange n level => Sys2Proof.Machine.execGpioInputChange n level s
  | .aonLatchSet n level => Sys2Proof.Machine.execAonLatchSet n level s
  | .ethernetFrameReceived i1 f hdr => Sys2Proof.Machine.execEthernetFrameReceived i1 f hdr s
  | .crqData i1 f => Sys2Proof.Machine.execCrqData i1 f s
  | .crqAck i1 f => Sys2Proof.Machine.execCrqAck i1 f s
  | .crqOpen i1 f => Sys2Proof.Machine.execCrqOpen i1 f s
  | .crqClose i1 f => Sys2Proof.Machine.execCrqClose i1 f s
  | .doorbellRecord a j q body => Sys2Proof.Machine.execDoorbellRecord a j q body s
  | .cqconsRecord a j q arg => Sys2Proof.Machine.execCqconsRecord a j q arg s
  | .writeRecord a j arg body => Sys2Proof.Machine.execWriteRecord a j arg body s
  | .readRecord a j arg len tag => Sys2Proof.Machine.execReadRecord a j arg len tag s
  | .regrdRecord a j arg tag => Sys2Proof.Machine.execRegrdRecord a j arg tag s
  | .regwrRecord a j arg w => Sys2Proof.Machine.execRegwrRecord a j arg w s
  | .dataFrameSend k => Sys2Proof.Machine.execDataFrameSend k s
  | .pcsLinkStatusChange i1 ok => Sys2Proof.Machine.execPcsLinkStatusChange i1 ok s
  | .linkDownTimer i1 => Sys2Proof.Machine.execLinkDownTimer i1 s
  | .linkUpTimer i1 => Sys2Proof.Machine.execLinkUpTimer i1 s
  | .retransmissionTimeout k => Sys2Proof.Machine.execRetransmissionTimeout k s
  | .ackDelayExpiry k => Sys2Proof.Machine.execAckDelayExpiry k s
  | .assoctmoExpiry k => Sys2Proof.Machine.execAssoctmoExpiry k s
  | .saInstall i1 => Sys2Proof.Machine.execSaInstall i1 s
  | .saEnable i1 b => Sys2Proof.Machine.execSaEnable i1 b s
  | .sadataWrite i1 w => Sys2Proof.Machine.execSadataWrite i1 w s
  | .entryDrainTimeout k => Sys2Proof.Machine.execEntryDrainTimeout k s
  | .pcieLinkStateChange l => Sys2Proof.Machine.execPcieLinkStateChange l s
  | .napwaitExpiry => Sys2Proof.Machine.execNapwaitExpiry s
  | .deepwaitExpiry => Sys2Proof.Machine.execDeepwaitExpiry s
  | .signaturesDone k => Sys2Proof.Machine.execSignaturesDone k s
  | .signatureTimeout g => Sys2Proof.Machine.execSignatureTimeout g s
  | .closingWindowEnd => Sys2Proof.Machine.execClosingWindowEnd s
  | .portWakeEvent p k => Sys2Proof.Machine.execPortWakeEvent p k s
  | .wakeTimerZero => Sys2Proof.Machine.execWakeTimerZero s
  | .pwrWaketmrWrite w => Sys2Proof.Machine.execPwrWaketmrWrite w s
  | .pwrExitWrite => Sys2Proof.Machine.execPwrExitWrite s
  | .perstAssert => Sys2Proof.Machine.execPerstAssert s
  | .perstDeassert => Sys2Proof.Machine.execPerstDeassert s
  | .clkreqAssert => Sys2Proof.Machine.execClkreqAssert s
  | .regulatorPowerGood r => Sys2Proof.Machine.execRegulatorPowerGood r s
  | .regulatorTimeout r => Sys2Proof.Machine.execRegulatorTimeout r s
  | .regulatorRetry => Sys2Proof.Machine.execRegulatorRetry s
  | .oscOk => Sys2Proof.Machine.execOscOk s
  | .oscTimeout => Sys2Proof.Machine.execOscTimeout s
  | .pllLock k => Sys2Proof.Machine.execPllLock k s
  | .pllLockTimeout k => Sys2Proof.Machine.execPllLockTimeout k s
  | .dramRdy lost => Sys2Proof.Machine.execDramRdy lost s
  | .dramRdyTimeout => Sys2Proof.Machine.execDramRdyTimeout s
  | .islRdy cls k lost groups => Sys2Proof.Machine.execIslRdy cls k lost groups s
  | .islRdyTimeout cls k => Sys2Proof.Machine.execIslRdyTimeout cls k s
  | .dozeIslandIdle cls => Sys2Proof.Machine.execDozeIslandIdle cls s
  | .wakeOutTimeout => Sys2Proof.Machine.execWakeOutTimeout s
  | .pgFall r => Sys2Proof.Machine.execPgFall r s
  | .faultMessageAccept => Sys2Proof.Machine.execFaultMessageAccept s
  | .faultWindowExpiry src => Sys2Proof.Machine.execFaultWindowExpiry src s
  | .reactionTimerExpiry src => Sys2Proof.Machine.execReactionTimerExpiry src s
  | .faultSourceClear w => Sys2Proof.Machine.execFaultSourceClear w s
  | .clearall => Sys2Proof.Machine.execClearall s
  | .faultActionWrite w => Sys2Proof.Machine.execFaultActionWrite w s
  | .powerOn strap testen => Sys2Proof.Machine.execPowerOn strap testen s
  | .resetNAssert n => Sys2Proof.Machine.execResetNAssert n s
  | .resetNRelease => Sys2Proof.Machine.execResetNRelease s
  | .postStageDone found => Sys2Proof.Machine.execPostStageDone found s
  | .bootImageReadDone flash quad => Sys2Proof.Machine.execBootImageReadDone flash quad s
  | .fuseBurn w => Sys2Proof.Machine.execFuseBurn w s
  | .fuseBurnDone => Sys2Proof.Machine.execFuseBurnDone s
  | .keyHashProg w => Sys2Proof.Machine.execKeyHashProg w s
  | .keyHashBurnDone => Sys2Proof.Machine.execKeyHashBurnDone s
  | .debugLockBurn w => Sys2Proof.Machine.execDebugLockBurn w s
  | .debugLockBurnDone => Sys2Proof.Machine.execDebugLockBurnDone s
  | .thermalSample t => Sys2Proof.Machine.execThermalSample t s
  | .calWriteDone ok => Sys2Proof.Machine.execCalWriteDone ok s
  | .lnyVbusChange b => Sys2Proof.Machine.execLnyVbusChange b s
  | .lnySetup rt rq v i1 len => Sys2Proof.Machine.execLnySetup rt rq v i1 len s
  | .lnyOutData ep data1 bs good => Sys2Proof.Machine.execLnyOutData ep data1 bs good s
  | .lnyPing ep => Sys2Proof.Machine.execLnyPing ep s
  | .lnyInToken ep ack => Sys2Proof.Machine.execLnyInToken ep ack s
  | .lnyRead => Sys2Proof.Machine.execLnyRead s
  | .lnyWrite => Sys2Proof.Machine.execLnyWrite s
  | .lnyHistory => Sys2Proof.Machine.execLnyHistory s
  | .lnyClear => Sys2Proof.Machine.execLnyClear s
  | .lnyPower => Sys2Proof.Machine.execLnyPower s
  | .lnyRetry => Sys2Proof.Machine.execLnyRetry s
  | .lnyReset => Sys2Proof.Machine.execLnyReset s
  | .lnyIdentify => Sys2Proof.Machine.execLnyIdentify s
  | .lnyCalExport => Sys2Proof.Machine.execLnyCalExport s
  | .lnyCalWrite => Sys2Proof.Machine.execLnyCalWrite s
  | .lnyImageStage => Sys2Proof.Machine.execLnyImageStage s
  | .lnyImageApply => Sys2Proof.Machine.execLnyImageApply s
  | .tetherAddressMatch a => Sys2Proof.Machine.execTetherAddressMatch a s
  | .tthStatus => Sys2Proof.Machine.execTthStatus s
  | .tthSelect w pec => Sys2Proof.Machine.execTthSelect w pec s
  | .tthRegdataRead => Sys2Proof.Machine.execTthRegdataRead s
  | .tthRegdataWrite w pec => Sys2Proof.Machine.execTthRegdataWrite w pec s
  | .tthResult => Sys2Proof.Machine.execTthResult s
  | .tthPower st k pec => Sys2Proof.Machine.execTthPower st k pec s
  | .tthWake pec => Sys2Proof.Machine.execTthWake pec s
  | .tthRetry pec => Sys2Proof.Machine.execTthRetry pec s
  | .tthClear n pec => Sys2Proof.Machine.execTthClear n pec s
  | .tthDoorbell w pec => Sys2Proof.Machine.execTthDoorbell w pec s
  | .tthMailboxRead => Sys2Proof.Machine.execTthMailboxRead s
  | .tthReset b pec => Sys2Proof.Machine.execTthReset b pec s
  | .tthAlertResponse => Sys2Proof.Machine.execTthAlertResponse s
  | .tthFabricTimeout k => Sys2Proof.Machine.execTthFabricTimeout k s
  | .tthSclTimeout => Sys2Proof.Machine.execTthSclTimeout s
  | .mailboxWrite w => Sys2Proof.Machine.execMailboxWrite w s
  | .registerRead f bar4 off len => Sys2Proof.Machine.execRegisterRead f bar4 off len s
  | .lockstepMismatch addr => Sys2Proof.Machine.execLockstepMismatch addr s
  | .lockstepReloadDone lost => Sys2Proof.Machine.execLockstepReloadDone lost s
  | .lockstepResetTimeout => Sys2Proof.Machine.execLockstepResetTimeout s
  | .imageStageDone => Sys2Proof.Machine.execImageStageDone s
  | .lnyBusReset hs => Sys2Proof.Machine.execLnyBusReset hs s
  | .lnyBusSuspend => Sys2Proof.Machine.execLnyBusSuspend s
  | .lnyBusResume => Sys2Proof.Machine.execLnyBusResume s
  | .tckEdge rising tms tdi trstN => Sys2Proof.Machine.execTckEdge rising tms tdi trstN s
  | .supplyFall r => Sys2Proof.Machine.execSupplyFall r s
  | .cdpDpRangeExit p => Sys2Proof.Machine.execCdpDpRangeExit p s

end Sys2Proof.Machine
end

