-- ==== Sys2Proof/Safety.lean ====
section
/-!
DEFINITION. What counts as a safe run, and the words in which statements speak of a state and of the commands that wait
in it.
-/
namespace Sys2Proof.Machine

/-- The step at `s` answers a next state. -/
def State.Goes (s : State) : Prop := ∃ t, step s = .next t

/-- The states that steps reach from `s`. -/
inductive State.Reaches : State → State → Prop where
  | here (s : State) : State.Reaches s s
  | step {s t u : State} : State.Reaches s t → Sys2Proof.Machine.step t = .next u → State.Reaches s u

/-- A safe run: whatever is reached goes on. -/
def State.Safe (s : State) : Prop := ∀ t, State.Reaches s t → t.Goes

/-! ### States -/

/-- The chip is changed; the locks, the fuses, the test access port and the queue of commands are not. -/
def State.upd (s : State) (g : Chip → Chip) : State := { s with chip := g s.chip }

/-- The device is out of reset and has its power. -/
abbrev State.alive (s : State) : Prop := s.chip.dead = false

/-- The device is alive, and neither in its safe state nor in the factory test mode. -/
abbrev State.up (s : State) : Prop := s.chip.dead = false ∧ s.chip.tst.safe = false ∧ s.chip.aon.testen = false

/-! ### Commands that wait -/

/-- The admin queue of function `f` carries out command `d`, whose opcode is `op`, which the function may use and the state
of the device does not bar: the checks of its row are next (R425). -/
abbrev State.carries (s : State) (f op : Nat) (d : List Word) : Prop :=
  (s.chip.fn f).aq.running = some d ∧ (s.chip.fn f).aq.begun = false ∧ bits (dw d 0) 7 0 = op ∧
    (pf0Only op = true → f = 0) ∧ s.chip.enteringBars op = false

/-- The request `x` of code `req`, at count `count` of work queue `n` of function `f`, waits to be given to the instance `i`
of service `v` with handle `h`, and all it needs has been fetched (R336). -/
abbrev State.asks (s : State) (f n : Nat) (count : Word) (q : Wq) (h : Nat) (i : Inst) (x : Xfer) (v : Svc) (req : Nat) : Prop :=
  s.up ∧ s.chip.wq f n = some q ∧ q.instOf = some h ∧ s.chip.inst h = some i ∧ s.chip.xfer f n count = some x ∧
    x.count = count ∧ x.svcRun = false ∧ x.fetched i.svc i.slots = true ∧ i.svc = v ∧ x.d.ty = some .svcReq ∧ x.d.req = req ∧
    i.st ≠ .detached

/-- A request is marked as given to its service. -/
def Chip.begun (c : Chip) (f n : Nat) (x : Xfer) : Chip := c.updXfer f n x.count fun y => { y with svcRun := true }

/-- The command `m` of opcode `op` of the service port waits to be carried out, and may change state where it does (R526). -/
abbrev State.asksLny (s : State) (op : Nat) (m : LnyCmd) : Prop :=
  s.chip.dead = false ∧ s.chip.aon.testen = false ∧ s.chip.lnyFabric = true ∧ s.chip.lnyReady op = some m ∧
    (lnyChanges op = true → s.chip.lny.wren = true)

/-- The Tether takes a command: its PEC is as it must be, and a command that changes state may (R532). -/
abbrev State.tthTakes (s : State) (pec : Option Bool) (changes : Bool) : Prop :=
  s.chip.dead = false ∧ s.chip.pwr.window = false ∧ s.chip.tth.pecBad pec = false ∧
    (changes = true → s.chip.tth.wrCmd = true)

/-- RESULT shows the command as running. -/
def Chip.tthTook (c : Chip) (code : Nat) : Chip := c.updTth fun x => { x with lastCmd := code, lastStat := 0xFF }

/-! ### What outlives a command -/

/-- Every LOCK bit that is 1 in `l` is 1 in `m` (R17). -/
abbrev Locks.within (l m : Locks) : Prop :=
  (l.evt = true → m.evt = true) ∧ (l.flt = true → m.flt = true) ∧ (l.sch = true → m.sch = true) ∧
  (l.grn = true → m.grn = true) ∧ (l.dsp = true → m.dsp = true) ∧ (l.svc = true → m.svc = true) ∧
  (l.net = true → m.net = true) ∧ (l.pwr = true → m.pwr = true) ∧ (l.tst = true → m.tst = true) ∧
  (l.cal = true → m.cal = true) ∧ (l.tth = true → m.tth = true)

/-- Nothing that is burned in `o` is unburned in `p`. -/
def Otp.within (o p : Otp) : Prop :=
  o.used ≤ p.used ∧ (∀ h, o.keyHash = some h → p.keyHash = some h) ∧ (o.dbgLock = true → p.dbgLock = true)

/-- The test access port is as R594 has it: IDCODE is selected in Test-Logic-Reset, the covered pads are taken only while
EXTEST, CLAMP or HIGHZ is in force and never once the debug lock is burned, and both instruction registers have 8 bits. -/
abbrev Jtag.legal (j : Jtag) (locked : Bool) : Prop :=
  (j.tap = .reset → j.ir = 1 ∧ j.taken = false) ∧ (j.taken = true → locked = false ∧ 3 ≤ j.ir ∧ j.ir ≤ 5) ∧
  j.ir < 256 ∧ j.irSh < 256

/-- The commands that may be, or bring about, a device reset by RESET_N or power-on, or the reset command that acts as
RESET_N (R502), or the loss of a supply. -/
def resetsDevice : Instr → Bool
  | .resetNAssert _ => true
  | .powerOn _ _ => true
  | .supplyFall _ => true
  | .lnyVbusChange _ => true
  | .lnyInToken _ _ => true
  | .lnyReset => true
  | .tthReset _ _ => true
  | _ => false

/-- The commands that reach a device held in reset or without its power: RESET_N, the supplies, VBUS of the service port,
which is watched in every state, and the test access port (R469, R590, R594). -/
def reachesDead : Instr → Bool
  | .resetNAssert _ => true
  | .resetNRelease => true
  | .powerOn _ _ => true
  | .supplyFall _ => true
  | .lnyVbusChange _ => true
  | .tckEdge _ _ _ _ => true
  | _ => false

/-- The commands that change more than the chip: a LOCK bit, a fuse or the test access port. -/
def beyondChip : Instr → Bool
  | .registerWrite _ _ _ _ _ _ => true
  | .lnyWrite => true
  | .tthRegdataWrite _ _ => true
  | .fuseBurnDone => true
  | .keyHashBurnDone => true
  | .debugLockBurnDone => true
  | .tckEdge _ _ _ _ => true
  | c => resetsDevice c

end Sys2Proof.Machine
end

