-- ==== Sys2Proof/Certificates/Slice0/Obligations.lean ====
section
/-!
DEFINITION. The statements for the provers. A statement of completion says of each command, one clause each, in which
states and on which operands it has its own effect, and which state it answers.
-/
open Sys2Proof Sys2Proof.Machine

/-- Accesses of the host to the register space act (R12, R14, R24, R38, R40, R49, R618, R52, R405). What each access
row does when it acts: a write reaches the register block, a read of a reserved offset answers, refused and undecoded
accesses are logged, a microframe edge advances MFN and runs what is timed by it, and a crossing word is delivered,
corrected, resent or reported. -/
def Obligations.HostRegisterAccessesComplete : Prop :=
  -- A microframe edge while MFN runs: MFN advances by one, wrapping in 14 bits; then the timed work of an edge.
  (∀ s : State, s.up → s.chip.mfnRuns = true →
    exec .deviceMicroframeEdge s = .next (s.upd fun c => ({ c with mfn := c.mfn + 1#14 }).tmoTick.svcTimeouts.drainAll.recoverEdge)) ∧
  -- A crossing word that arrives whole changes nothing; one corrected is reported; one that failed asks for a
  -- resend, and at the second failure it is reported, from both ends (R24).
  (∀ (s : State), s.alive → exec (.crossingWordReceived .good) s = .next s ∧
    exec (.crossingWordReceived .corrected) s = .next (s.upd fun c => c.report 0x190 Kind.correctedSymbol 0) ∧ (∀ g,
    exec (.crossingWordReceived (.data g)) s = .next (s.upd fun c => c.markPoison (wordOf g))) ∧ ∀ src,
    exec (.crossingWordReceived (.control src false)) s = .next (s.upd fun c => c.emit .resend) ∧
    exec (.crossingWordReceived (.control src true)) s = .next (s.upd fun c => (c.report 0x190 Kind.uncorrectable 0).report src.val Kind.uncorrectable 0)) ∧
  -- A decoded write of an allowed width is carried out by the register block of its function.
  (∀ (s : State) (f : Fin 128) (bar4 : Bool) (off : Fin 0x2000000) (len : Fin 4097) (w hi : Word),
    s.chip.hostReach = true → s.chip.tst.safe = false → s.chip.decodes f = true →
    inPadding f (if bar4 then 4 else 0) off = false → accessOk off len = true →
    exec (.registerWrite f bar4 off len w hi) s = .next ((s.upd Chip.wakeFabric).regWrite f bar4 off len w hi)) ∧
  -- The same for a read.
  (∀ (s : State) (f : Fin 128) (bar4 : Bool) (off : Fin 0x2000000) (len : Fin 4097), s.alive →
    s.chip.hostReach = true → s.chip.decodes f = true → inPadding f (if bar4 then 4 else 0) off = false →
    accessOk off len = true →
    exec (.registerRead f bar4 off len) s = .next (s.upd fun c => c.wakeFabric.regRead s.locks s.otp f bar4 off len)) ∧
  -- A write to a reserved or padded place of a function that decodes it has no effect, and a read of padding
  -- answers zeros.
  (∀ (s : State) (f : Fin 128) (off : Fin 0x2000000) (len : Fin 4097), s.alive → s.chip.hostReach = true →
    s.chip.tst.safe = false → s.chip.decodes f = true → inPadding f 0 off = true →
    exec (.reservedOffsetAccess f 0 off len true) s = .next s ∧
    exec (.reservedOffsetAccess f 0 off len false) s = .next (s.upd fun c => c.emit (.readData (List.replicate len 0#8)))) ∧
  -- A doorbell-space write that is not accepted is logged by its function, and counted for every queue whose
  -- slot it names.
  (∀ (s : State) (f : Fin 128) (off : Fin 16384) (len : Fin 4097), s.up → s.chip.fnExists f = true →
    s.chip.homed f = false → bar2Accepted off len = false → bar2Reserved off len = false → len.val ≠ 0 →
    exec (.bar2WriteRefused f off len) s = .next (s.upd fun c => (c.logAer f .unsupportedRequest).each (bar2Slots off len) fun c n => c.countDbign f n)) ∧
  -- An access to a virtual function that is not there is logged by PF0; a read is answered Unsupported Request
  -- (R618).
  (∀ (s : State) (n : Fin 128), s.alive → n.val ≠ 0 →
    (s.chip.pci.vfEnable = false ∨ s.chip.pci.vfMse = false ∨ s.chip.pci.numVfs < n.val) →
    exec (.undecodedVfAccess n true) s = .next (s.upd fun c => c.logAer 0 .unsupportedRequest) ∧
    exec (.undecodedVfAccess n false) s = .next (s.upd fun c => (c.emit (.unsupported 0)).logAer 0 .unsupportedRequest)) ∧
  -- A failed read of host memory is logged, reported from source 0x100, and given to what it was for (R49); so
  -- is a timeout.
  (∀ (s : State) (f : Fin 128) (r : ReadFor) (e : ReadFailure), s.up →
    exec (.hostReadFailed f r e) s = .next (s.upd fun c => ((c.logAer f (readFailureAer e)).report 0x100 (readFailureKind e) f).readFailed f r (e == .poisoned)) ∧
    exec (.hostReadCompletionTimeout f r) s = .next (s.upd fun c => ((c.logAer f .completionTimeout).report 0x100 Kind.timeout f).readFailed f r false))

/-- Rows of the PCIe functions act (R52, R55, R56, R72, R73, R74, R75, R384, R391). What VF enabling, NumVFs,
function-level and conventional reset and the PCIe configuration writes do, when the device is not held in reset. -/
def Obligations.FunctionRowsComplete : Prop :=
  -- Setting and clearing VF Enable.
  (∀ s : State, s.alive → exec .vfEnableSet s = .next (s.upd Chip.vfSet) ∧
    exec .vfEnableClear s = .next (s.upd Chip.vfClear) ∧ exec .pf0Flr s = .next (s.upd Chip.pf0Flr)) ∧
  -- NumVFs takes a value up to 127 while VF Enable is 0, and nothing else.
  (∀ (s : State) (w : Fin 65536), s.alive → s.chip.pci.vfEnable = false →
    exec (.numvfsWrite w) s = .next (s.upd fun c => if w.val ≤ 127 then { c with pci := { c.pci with numVfs := w } } else c)) ∧
  -- FLR of a virtual function that exists.
  (∀ (s : State) (f : Fin 128), s.alive → f.val ≠ 0 → s.chip.fnExists f = true →
    exec (.vfFlr f) s = .next (s.upd fun c => c.flr f)) ∧
  -- A conventional reset in ACTIVE or DOZE.
  (∀ s : State, s.alive → (s.chip.pwr.st = .active ∨ s.chip.pwr.st = .doze) →
    exec .conventionalReset s = .next (s.upd Chip.conventional)) ∧
  -- Transactions Pending clears when the last of them is gone.
  (∀ (s : State) (f : Fin 128), s.alive →
    exec (.flrComplete f) s = .next (s.upd fun c => c.updFn f fun x => { x with transPend := false })) ∧
  -- A function reset that runs ends: RESETTING clears, RESET_DONE sets, private source 21 is raised, and a
  -- FUNCTION_RESET or NET_UNHOME command that waits for it succeeds.
  (∀ (s : State) (f : Fin 128), s.alive → (s.chip.fn f).resetting = true →
    exec (.functionResetComplete f) s = .next (s.upd fun c => let d := (c.updFn f fun x => { x with resetting := false, resetDone := true }).raise f 21; if (d.adminWaits 0 0x0B).any (fun e => bits (dw e 5) 6 0 == f.val) || (d.adminWaits 0 0x10).any (fun e => bits (dw e 5) 6 0 == f.val) then d.adminDone 0 Ad.success else d)) ∧
  -- Bus Master Enable and the MSI-X control of a function that exists; what was held by them goes on.
  (∀ (s : State) (f : Fin 128) (b m : Bool), s.alive → s.chip.fnExists f = true →
    exec (.busMasterEnableWrite f b) s = .next (s.upd fun c => c.dmaChange fun c => c.updFn f fun x => { x with bme := b }) ∧
    exec (.msixControlWrite f b m) s = .next (s.upd fun c => (c.updFn f fun x => { x with msixEn := b, fmask := m }).holdsEnd f)) ∧
  -- D3hot and an MSI-X table entry are written.
  (∀ (s : State) (f : Fin 128) (v : Fin 64) (k : Fin 4) (w : Word) (d3 : Bool), s.alive →
    exec (.pmStateWrite d3) s = .next (s.upd fun c => ({ c with pci := { c.pci with d3hot := d3 } }).allHoldsEnd) ∧
    exec (.msixEntryWrite f v k w) s = .next (s.upd fun c => c.msixPut f v k w))

/-- Doorbells and ring reads act (R90, R92, R93, R94, R97, R98, R104, R109, R115, R123, R124, R125). What each
doorbell, poll, ring read and admin ring row does in a device that runs. -/
def Obligations.DoorbellRowsComplete : Prop :=
  -- A doorbell of a work queue writes its slot; so does a poll-mode one; each wakes a dozing device.
  (∀ (s : State) (f : Fin 128) (n : Fin 64) (p : Word) (ws : List Word), s.up → s.chip.bar2Open f = true →
    exec (.wqDoorbell f n p ws) s = .next (s.upd fun c => (c.slotWrite f n p (ws.take 31)).dozeWake 6) ∧
    exec (.pollDoorbell f n p) s = .next (s.upd fun c => (c.slotWrite f n p []).dozeWake 6)) ∧
  -- The words of a PUSH slot below the doorbell are kept for the doorbell that follows.
  (∀ (s : State) (f : Fin 128) (n : Fin 64) (o : Fin 24) (ws : List Word) (q : Wq), s.up → s.chip.bar2Open f = true →
    s.chip.slotDead f n = false → s.chip.wq f n = some q → q.mode = .push →
    exec (.pushSlotWrite f n o ws) s = .next (s.upd fun c => c.updWq f n fun q => if q.mode = .push then q.buffer (0x20 + 4 * o) (ws.take (24 - o)) else q)) ∧
  -- The end of a poll interval makes a poll due, once.
  (∀ (s : State) (f : Fin 128) (n : Fin 64) (q : Wq), s.up → s.chip.wq f n = some q → q.mode = .poll →
    q.reading = false → s.chip.fetchRuns = true → s.chip.bindAsleep q.bind = false →
    exec (.pollIntervalExpiry f n) s = .next (s.upd fun c => c.putWq f n { q with pollDue := true })) ∧
  -- An opportunity to read a ring, and the return of what was read.
  (∀ (s : State) (f : Fin 128) (n : Fin 64) (bs : List Byte), s.up →
    exec .ringReadIssue s = .next (s.upd Chip.readOpportunity) ∧
    exec (.ringReadReturn f n bs) s = .next (s.upd fun c => c.ringReturn f n bs)) ∧
  -- An entry that was not new is read again.
  (∀ (s : State) (f : Fin 128), s.up → s.chip.dmaHeld f = false → (∀ (n : Fin 64) (q : Wq), s.chip.wq f n = some q →
    q.rereadDue = true → q.reading = false → q.stopped = false →
    exec (.phaseReread f (some n)) s = .next (s.upd fun c => c.issueRing f n)) ∧ ((s.chip.fn f).aq.rereads ≠ 0 →
    (s.chip.fn f).aq.reading = false → (s.chip.fn f).aq.stopped = false →
    exec (.phaseReread f none) s = .next (s.upd fun c => c.issueAdmin f))) ∧
  -- The consumer count of a completion queue is written; a spill area that cannot drain before its queue goes
  -- is counted as lost.
  (∀ (s : State) (f : Fin 128) (n : Fin 16) (w : Word), s.up → (s.chip.bar2Open f = true →
    exec (.cqConsumerDoorbell f n w) s = .next (s.upd fun c => (c.ccount f n w).dozeWake 6)) ∧ ∀ q,
    s.chip.cq f n = some q → q.deleting.isSome = true →
    exec (.cqSpillDrainTimeout f n) s = .next (s.upd fun c => (c.updFn f fun x => { x with lost := satAdd 0xFFFF x.lost q.spill.length }).endCqDelete f n)) ∧
  -- The admin queue is enabled, becomes ready, and is disabled.
  (∀ (s : State) (f : Fin 128) (w : Word), s.up → s.chip.fnExists f = true → s.chip.homed f = false →
    exec (.aqEnable f w) s = .next (s.upd fun c => c.aqCfg f (w ||| 0x80000000#32)) ∧
    exec (.aqDisable f w) s = .next (s.upd fun c => c.aqCfg f (w &&& 0x7FFFFFFF#32)) ∧
    ((s.chip.fn f).aq.starting = true →
    exec (.aqReady f) s = .next (s.upd fun c => (c.updFn f fun x => { x with aq := { x.aq with starting := false, ready := true } }).sendOwed f))) ∧
  -- Its two doorbells.
  (∀ (s : State) (f : Fin 128) (w : Word), s.up → s.chip.bar2Open f = true →
    exec (.aqSubmissionDoorbell f w) s = .next (s.upd fun c => (c.sqPcount f w).dozeWake 6) ∧
    exec (.aqCompletionDoorbell f w) s = .next (s.upd fun c => (c.cqCcount f w).dozeWake 6)) ∧
  -- The next function in turn has its admin command fetched.
  (∀ (s : State) (f : Nat), s.up → nextAfter s.chip.fnNums s.chip.aqPtr s.chip.aqReady = some f →
    exec .adminFetch s = .next (s.upd fun c => ({ c with aqPtr := f }).issueAdmin f)) ∧
  -- What an admin command read brings: an entry of the present lap is carried out, one of the last lap is read
  -- again twice at most, and a poisoned one stops the queue.
  (∀ (s : State) (f : Fin 128) (bs : List Byte), s.up → (s.chip.fn f).aq.reading = true → (s.chip.fn f).home = none →
    exec (.adminCommandReadReturn f bs) s = .next (s.upd fun c => let q := (c.fn f).aq; let d := bytesWords (c.hostReadData f (entryAddr q.sqBase q.sqLog q.sqC 64) 64 bs) 16; if b2n (bit (dw d 0) 31) = phaseOf q.sqLog q.sqC then c.adminStart f d else if q.rereads = 2 then c.aqStop f 2 else c.updAq f fun q => { q with reading := false, rereads := q.rereads + 1 }))

/-- Admin commands on queues, channels and the function succeed when every check passes (R106, R107, R108, R109, R110,
R282, R425, R431). IDENTIFY, CREATE_CQ, DELETE_CQ, CREATE_WQ, DELETE_WQ, RESTART_WQ and SET_CHANNEL: with every check
of the row passed, the command has its effect and completes with SUCCESS, or goes on until what it waits for has
ended. -/
def Obligations.QueueCommandsComplete : Prop :=
  -- IDENTIFY writes the record and succeeds.
  (∀ (s : State) (f : Fin 128) (d : List Word), s.up → s.carries f 0x01 d → 128 ≤ admLen d →
    s.chip.bufFault f d 128 = none →
    exec (.identify f) s = .next (s.upd fun c => (c.hostWrite f (admAddr d) (c.identity f)).adminDone f Ad.success)) ∧
  -- CREATE_CQ puts an empty completion queue in place.
  (∀ (s : State) (f : Fin 128) (d : List Word), s.up → s.carries f 0x02 d → bits (dw d 5) 3 0 < (s.chip.fn f).cqs →
    s.chip.cq f (bits (dw d 5) 3 0) = none → (4 ≤ bits (dw d 5) 12 8 ∧ bits (dw d 5) 12 8 ≤ 16) →
    (bits (dw d 5) 19 16 = 0 ∨ 8 ≤ bits (dw d 5) 19 16 ∧ bits (dw d 5) 19 16 ≤ 12) →
    s.chip.ringFault f d (bits (dw d 5) 12 8) = none → spillEntries (bits (dw d 5) 19 16) / 256 ≤ s.chip.spillFree →
    exec (.createCq f) s = .next (s.upd fun c => ((c.putCq f (bits (dw d 5) 3 0) { log2 := bits (dw d 5) 12 8, base := admAddr d, spillSize := spillEntries (bits (dw d 5) 19 16) }).cqLevel f (bits (dw d 5) 3 0)).adminDone f Ad.success)) ∧
  -- DELETE_CQ of a queue that no work queue names: it goes at once when its spill area is empty.
  (∀ (s : State) (f : Fin 128) (d : List Word) (q : Cq), s.up → s.carries f 0x03 d →
    s.chip.cq f (bits (dw d 5) 3 0) = some q → q.deleting = none →
    ((s.chip.wqNums f).any fun w => ((s.chip.wq f w).map Wq.cq) == some (bits (dw d 5) 3 0)) = false →
    exec (.deleteCq f) s = .next (s.upd fun c => let e := (c.adminBegun f).updCq f (bits (dw d 5) 3 0) fun q => { q with deleting := some true }; if (e.cq f (bits (dw d 5) 3 0)).any fun q => q.spill.isEmpty then e.endCqDelete f (bits (dw d 5) 3 0) else e)) ∧
  -- CREATE_WQ puts the work queue in place and binds it.
  (∀ (s : State) (f : Fin 128) (d : List Word) (q : Cq), s.up → s.carries f 0x04 d →
    s.chip.bindDenied f (admBind d) = false → bits (dw d 5) 5 0 < (s.chip.fn f).wqs →
    s.chip.wq f (bits (dw d 5) 5 0) = none → s.chip.cq f (bits (dw d 5) 11 8) = some q → q.deleting = none →
    (4 ≤ bits (dw d 5) 20 16 ∧ bits (dw d 5) 20 16 ≤ 16) → bits (dw d 5) 25 24 ≠ 3 → (bits (dw d 5) 25 24 = 0 →
    s.chip.homed f = false ∧ bits (dw d 6) 19 16 ≠ 0) → s.chip.bindTaken (admBind d) = false → bits (dw d 7) 7 0 ≠ 0 →
    (1 ≤ bits (dw d 7) 14 8 ∧ bits (dw d 7) 14 8 ≤ 64) → s.chip.ringFault f d (bits (dw d 5) 20 16) = none →
    exec (.createWq f) s = .next (s.upd fun c => ((c.putWq f (bits (dw d 5) 5 0) (c.newWq d)).bindWq (admBind d) f (bits (dw d 5) 5 0)).adminDone f Ad.success)) ∧
  -- DELETE_WQ ends the work of a queue that is there, as CANCELLED.
  (∀ (s : State) (f : Fin 128) (d : List Word) (q : Wq), s.up → s.carries f 0x05 d →
    s.chip.wq f (bits (dw d 5) 5 0) = some q → q.deleting = none →
    exec (.deleteWq f) s = .next (s.upd fun c => ((c.adminBegun f).updWq f (bits (dw d 5) 5 0) fun q => { q with deleting := some true, draining := false, reading := false, ended := 0 }).endWork f (bits (dw d 5) 5 0) St.cancelled)) ∧
  -- RESTART_WQ of a stopped queue sets its counts to the value given.
  (∀ (s : State) (f : Fin 128) (d : List Word) (q : Wq), s.up → s.carries f 0x06 d →
    s.chip.wq f (bits (dw d 5) 5 0) = some q → q.stopped = true → q.deleting = none → q.err ≠ 4 →
    exec (.restartWq f) s = .next (s.upd fun c => (c.updWq f (bits (dw d 5) 5 0) fun q => { q with stopped := false, err := 0, ccount := dw d 6, pobs := dw d 6, reading := false, rereads := 0, rereadDue := false, pollDue := q.mode == .poll, slotBuf := [] }).adminDone f Ad.success)) ∧
  -- SET_CHANNEL takes the quota, wait limit and marks, and answers them.
  (∀ (s : State) (f : Fin 128) (d : List Word) (e : Ep), s.up → s.carries f 0x07 d →
    s.chip.ep (bits (dw d 5) 12 0) = some e → s.chip.bindDenied f (.ep (bits (dw d 5) 12 0)) = false →
    marksBad (!e.isIn) false (2 * e.t + bits (dw d 6) 7 0) (dw d 7) = none →
    marksBad (e.isIn || e.type == .control) (e.isIn && e.periodic) (2 * e.t + bits (dw d 6) 7 0) (dw d 8) = none →
    exec (.setChannel f) s = .next (s.upd fun c => let e := c.updEp (bits (dw d 5) 12 0) fun e =>
        let e := { e with qc := bits (dw d 6) 7 0, waitLim := bits (dw d 6) 15 8 }
        let e := if e.isIn then e else { e with hmOut := bits (dw d 7) 8 0, lmOut := bits (dw d 7) 24 16 }
        if e.type = .control ∨ (e.isIn ∧
    !e.periodic) then { e with hmIn := bits (dw d 8) 8 0, lmIn := bits (dw d 8) 24 16 } else e
    e.adminDone f Ad.success 0#32 ((e.ep (bits (dw d 5) 12 0)).map Ep.settings |>.getD [])))

/-- Admin commands on services, ports and functions take effect when every check passes (R66, R73, R105, R202, R332,
R335, R403, R406, R425, R447). BIND_SERVICE, UNBIND_SERVICE, PORT_CONTROL, FUNCTION_RESET, SET_FN_ARB, RESHAPE,
POWER_STATE, NET_HOME and NET_UNHOME: with every check of the row passed, what each does and whether it is answered at
once. -/
def Obligations.ServiceAndFunctionCommandsComplete : Prop :=
  -- BIND_SERVICE of a service on an interface: a new instance with its flows begins to bind.
  (∀ (s : State) (f : Fin 128) (d : List Word) (v : Svc) (k : Nat), s.up → s.carries f 0x08 d →
    svcOf (bits (dw d 5) 7 0) = some v → v ≠ .hlth → s.chip.freeInstHandle = some k →
    ((s.chip.bindIfChecks f (some v) (bits (dw d 6) 15 0) (bits (dw d 5) 15 8)).findSome? id) = none →
    (bits (dw d 7) 6 0 = 0 ∨ 4 ≤ bits (dw d 7) 6 0 ∧ bits (dw d 7) 6 0 ≤ 64) →
    s.chip.flowsInUse + (svcFlows v (s.chip.slotsOf (bits (dw d 6) 15 0) (bits (dw d 5) 15 8))).1 ≤ 16384 →
    s.chip.bindKib d ≤ s.chip.bufFree →
    exec (.bindService f) s = .next (s.upd fun c => let e := (c.adminBegun f).newInst k f v ((c.devPort (bits (dw d 6) 15 0)).getD 0) (bits (dw d 6) 15 0) (bits (dw d 5) 15 8) (c.bindKib d); (e.makeFlows k v (e.slotsOf (bits (dw d 6) 15 0) (bits (dw d 5) 15 8))).bindRun k)) ∧
  -- BIND_SERVICE of HLTH, which watches a root port.
  (∀ (s : State) (f : Fin 128) (d : List Word) (k : Nat), s.up → s.carries f 0x08 d →
    svcOf (bits (dw d 5) 7 0) = some .hlth → s.chip.freeInstHandle = some k →
    s.chip.ownerOf (bits (dw d 5) 22 16) = f.val →
    (s.chip.insts.any fun e => e.2.svc == .hlth && e.2.port == bits (dw d 5) 22 16 && e.2.st != .detached) = false →
    bits (dw d 6) 15 0 = 0xFFFF → (bits (dw d 7) 6 0 = 0 ∨ 4 ≤ bits (dw d 7) 6 0 ∧ bits (dw d 7) 6 0 ≤ 64) →
    s.chip.flowsInUse + (svcFlows .hlth (s.chip.slotsOf (bits (dw d 6) 15 0) (bits (dw d 5) 15 8))).1 ≤ 16384 →
    s.chip.bindKib d ≤ s.chip.bufFree →
    exec (.bindService f) s = .next (s.upd fun c => let e := (c.adminBegun f).newInst k f .hlth (bits (dw d 5) 22 16) 0xFFFF (bits (dw d 5) 15 8) (c.bindKib d); (e.makeFlows k .hlth (e.slotsOf (bits (dw d 6) 15 0) (bits (dw d 5) 15 8))).bindRun k)) ∧
  -- UNBIND_SERVICE of an instance that runs.
  (∀ (s : State) (f : Fin 128) (d : List Word) (i : Inst), s.up → s.carries f 0x09 d →
    s.chip.instOwner (bits (dw d 5) 11 0) = some f.val → s.chip.inst (bits (dw d 5) 11 0) = some i → i.svc ≠ .enum →
    i.st ≠ .binding → i.st ≠ .closing →
    exec (.unbindService f) s = .next (s.upd fun c => c.unbind f (bits (dw d 5) 11 0))) ∧
  -- PORT_CONTROL of an owned port carries out RESET, SUSPEND or RESUME, and answers PRT_STATUS.
  (∀ (s : State) (f : Fin 128) (d : List Word), s.up → s.carries f 0x0A d →
    s.chip.ownerOf (bits (dw d 5) 6 0) = f.val → (1 ≤ bits (dw d 5) 11 8 ∧ bits (dw d 5) 11 8 ≤ 3) →
    exec (.portControl f) s = .next (s.upd fun c => (c.portTry (bits (dw d 5) 6 0) (bits (dw d 5) 11 8)).1.adminDone f (if (c.portTry (bits (dw d 5) 6 0) (bits (dw d 5) 11 8)).2 then Ad.badState else Ad.success) 0#32 [(c.portTry (bits (dw d 5) 6 0) (bits (dw d 5) 11 8)).1.prtStatus (bits (dw d 5) 6 0)])) ∧
  -- FUNCTION_RESET of a virtual function starts its reset.
  (∀ (s : State) (d : List Word), s.up → s.carries 0 0x0B d → bits (dw d 5) 6 0 ≠ 0 →
    s.chip.fnExists (bits (dw d 5) 6 0) = true →
    exec (.functionReset) s = .next (s.upd fun c => (c.adminBegun 0).fnReset (bits (dw d 5) 6 0))) ∧
  -- SET_FN_ARB sets the weight and burst that the function takes up next.
  (∀ (s : State) (d : List Word), s.up → s.carries 0 0x0C d → s.chip.fnExists (bits (dw d 5) 6 0) = true →
    bits (dw d 5) 15 8 ≠ 0 → bits (dw d 5) 21 16 ≠ 0 →
    exec (.setFnArb) s = .next (s.upd fun c => (c.updFn (bits (dw d 5) 6 0) fun x => { x with nextArb := some (bits (dw d 5) 15 8, bits (dw d 5) 21 16) }).adminDone 0 Ad.success)) ∧
  -- RESHAPE with acceptable operands.
  (∀ (s : State) (d : List Word), s.up → s.carries 0 0x0D d → s.chip.reshapeBad d = none →
    exec (.reshape) s = .next (s.upd fun c => c.reshape d)) ∧
  -- POWER_STATE starts the entry.
  (∀ (s : State) (d : List Word), s.up → s.carries 0 0x0E d → (1 ≤ bits (dw d 5) 2 0 ∧ bits (dw d 5) 2 0 ≤ 5) →
    s.chip.powerRefused (bits (dw d 5) 2 0) (bits (dw d 5) 11 8) = false →
    exec (.powerState) s = .next (s.upd fun c => (c.adminBegun 0).powerStart .admin (bits (dw d 5) 2 0) (bits (dw d 5) 11 8))) ∧
  -- NET_HOME homes the function.
  (∀ (s : State) (d : List Word), s.up → s.carries 0 0x0F d → bits (dw d 5) 6 0 ≠ 0 →
    s.chip.fnExists (bits (dw d 5) 6 0) = true → s.chip.homed (bits (dw d 5) 6 0) = false →
    (s.chip.fn (bits (dw d 5) 6 0)).aq.enable = false → s.chip.wqNums (bits (dw d 5) 6 0) = [] →
    s.chip.cqNums (bits (dw d 5) 6 0) = [] → (s.chip.fns.filter fun e => e.2.home.isSome).length < 32 →
    (s.chip.assoc (bits (dw d 5) 12 8)).valid = true → (s.chip.assoc (bits (dw d 5) 12 8)).fn = none →
    (1 ≤ bits (dw d 6) 12 0 ∧ bits (dw d 6) 12 0 ≤ 4096) → (4 ≤ bits (dw d 9) 4 0 ∧ bits (dw d 9) 4 0 ≤ 16) →
    (4 ≤ bits (dw d 9) 12 8 ∧ bits (dw d 9) 12 8 ≤ 16) → ((dw d 7).toNat % 4096 = 0 ∧
    (dw d 7).toNat + 64 * 2 ^ bits (dw d 9) 4 0 ≤ bits (dw d 6) 12 0 * 4096) → ((dw d 8).toNat % 4096 = 0 ∧
    (dw d 8).toNat + 64 * 2 ^ bits (dw d 9) 12 8 ≤ bits (dw d 6) 12 0 * 4096) → s.chip.tst.netFail = false →
    bits (dw d 6) 12 0 ≤ s.chip.homePages →
    exec (.netHome) s = .next (s.upd fun c => (c.netHome d).adminDone 0 Ad.success)) ∧
  -- NET_UNHOME resets the homed function and takes its window away.
  (∀ (s : State) (d : List Word), s.up → s.carries 0 0x10 d → s.chip.homed (bits (dw d 5) 6 0) = true →
    exec (.netUnhome) s = .next (s.upd fun c => ((c.adminBegun 0).fnReset (bits (dw d 5) 6 0)).unhome (bits (dw d 5) 6 0)))

/-- Admin commands that run long operations take effect when every check passes (R425, R430, R434, R437, R439, R509,
R539, R551, R552). SELFTEST, PERIPH_DOWNLOAD, CAL_MEASURE, CAL_WRITE, IMAGE_STAGE, IMAGE_APPLY, the three LONG_
commands and QUERY_OP: with every check passed, what each begins or answers. -/
def Obligations.LongOperationCommandsComplete : Prop :=
  -- SELFTEST starts its long operation.
  (∀ (s : State) (d : List Word), s.up → s.carries 0 0x11 d → 64 ≤ admLen d → (1 ≤ stKind d ∧ stKind d ≤ 4) →
    stTargetBad d = false → s.chip.testRefused d = false →
    exec (.selftest) s = .next (s.upd fun c => c.testStart d)) ∧
  -- PERIPH_DOWNLOAD reads its payload, opens an operation and sends the first chunk.
  (∀ (s : State) (f : Fin 128) (d : List Word) (payload : List Byte) (r : Chip), s.up → s.carries f 0x12 d →
    s.chip.epOwner (dlEp d) = some f.val → dlLen d ≠ 0 → s.chip.bufFault f d (dlLen d) = none →
    s.chip.dlEpBad d = false → s.chip.dlChunkBad d = false → (dlControl d = true → bit (dw d 7) 7 = false ∧
    bits (dw d 7) 6 5 ≠ 0 ∧ bits (dw d 7) 6 5 ≠ 3) → s.chip.dlInUse (dlEp d) = false → s.chip.opRoom f = some r →
    exec (.periphDownload f payload) s = .next (s.upd fun c => let x := (r.adminLater f).newOp f .download (admCid d) d (dlTotal d); ((x.2.hostReadReq f (admAddr d) (dlLen d)).updOp x.1 fun o => { o with payload := (x.2.hostReadData f (admAddr d) (dlLen d) payload).take (dlLen d) }).dlSend x.1)) ∧
  -- CAL_MEASURE opens an operation.
  (∀ (s : State) (d : List Word) (r : Chip), s.up → s.carries 0 0x13 d → 72 ≤ admLen d → (16 ≤ cmSamples d ∧
    cmSamples d ≤ 4096) → s.chip.cluRuns (bits (dw d 5) 3 0) = true → s.chip.opRoom 0 = some r →
    exec (.calMeasure) s = .next (s.upd fun c => ((r.adminLater 0).newOp 0 .calMeasure (admCid d) d (cmSamples d * (cmChannels d).length)).2.measureTask)) ∧
  -- CAL_WRITE of a body that its type allows starts the write.
  (∀ (s : State) (d : List Word) (payload : List Byte), s.up → s.carries 0 0x14 d →
    calLen (bits (dw d 5) 7 0) = some (admLen d) →
    calBodyOk (bits (dw d 5) 7 0) ((s.chip.fresh.2.hostReadData 0 (admAddr d) (admLen d) payload).take (admLen d)) = true →
    s.chip.fresh.2.calWorn (bits (dw d 5) 7 0) = false → s.chip.fresh.2.calRefused s.locks = false →
    exec (.calWrite payload) s = .next (s.upd fun c => ((c.fresh.2.hostReadReq 0 (admAddr d) (admLen d)).adminBegun 0).calStart .admin (bits (dw d 5) 7 0) ((c.fresh.2.hostReadData 0 (admAddr d) (admLen d) payload).take (admLen d)))) ∧
  -- IMAGE_STAGE reads the image and starts to check it.
  (∀ (s : State) (d : List Word) (payload : List Byte), s.up → s.carries 0 0x15 d → (1 ≤ admLen d ∧
    admLen d ≤ 4194304) → s.chip.stageRefused = false →
    exec (.imageStage payload) s = .next (s.upd fun c => ((c.hostReadReq 0 (admAddr d) (admLen d)).adminBegun 0).stageStart .admin s.otp.keyHash ((c.hostReadData 0 (admAddr d) (admLen d) payload).take (admLen d)))) ∧
  -- IMAGE_APPLY of sections that are staged.
  (∀ (s : State) (d : List Word), s.up → s.carries 0 0x16 d → s.chip.applyBad (bits (dw d 5) 7 0) = false →
    s.chip.applyRefused = false →
    exec (.imageApply) s = .next (s.upd fun c => (c.imageApply (bits (dw d 5) 7 0)).adminDone 0 Ad.success)) ∧
  -- LONG_SUSPEND of a running operation waits for its safe point; of a suspended one it succeeds at once.
  (∀ (s : State) (f : Fin 128) (d : List Word) (o : Op), s.up → s.carries f 0x20 d →
    s.chip.opSeen f (bits (dw d 5) 15 0) = some o → (o.st = .running ∨ o.st = .suspended) →
    exec (.longSuspend f) s = .next (s.upd fun c => if o.st = .suspended then c.adminDone f Ad.success 0#32 [] o.opid else (c.updOp o.opid fun o => { o with suspReq := true, suspWait := o.suspWait ++ [(f.val, admCid d)] }).adminLater f)) ∧
  -- LONG_RESUME resumes it, or takes back a request to suspend.
  (∀ (s : State) (f : Fin 128) (d : List Word) (o : Op), s.up → s.carries f 0x21 d →
    s.chip.opSeen f (bits (dw d 5) 15 0) = some o → (o.st = .running ∨ o.st = .suspended) →
    exec (.longResume f) s = .next (s.upd fun c => ((if o.st = .running then c.endSuspends o.opid Ad.cancelled else c.resumeOp o.opid).adminDone f Ad.success 0#32 [] o.opid).reshapeEnd o.opid)) ∧
  -- LONG_CANCEL makes it CANCELLING and is answered at once.
  (∀ (s : State) (f : Fin 128) (d : List Word) (o : Op), s.up → s.carries f 0x22 d →
    s.chip.opSeen f (bits (dw d 5) 15 0) = some o → (o.st = .running ∨ o.st = .suspended) →
    exec (.longCancel f) s = .next (s.upd fun c => let e := ((c.endSuspends o.opid Ad.cancelled).opState o.opid .cancelling).adminDone f Ad.success 0#32 [] o.opid; (match e.op o.opid with | some o => e.cancelSender o | none => e).cancelReshape o.opid)) ∧
  -- QUERY_OP writes the records that the function sees.
  (∀ (s : State) (f : Fin 128) (d : List Word), s.up → s.carries f 0x23 d → 32 ≤ admLen d →
    s.chip.bufFault f d (admLen d) = none → exec (.queryOp f) s = .next (s.upd fun c => c.queryOp f d))

/-- Safe points, ends and periods of long operations, and the scrubber, act (R273, R299, R434, R438). What a safe
point, the end of an operation, the start of a scrub period, a scrub access, a correction write-back and the end of a
download delay do. -/
def Obligations.LongOperationEventsComplete : Prop :=
  -- A safe point of a running operation that has nothing on the wire.
  (∀ (s : State) (i : Fin 65536) (o : Op), s.up → s.chip.op i = some o → o.st = .running →
    (o.kind = .scrub ∨ o.kind = .download ∧ s.chip.opOnWire o = false ∧ o.byPower = false ∨ o.kind = .streamJob ∧
    s.chip.opOnWire o = false ∨ o.kind = .reshape ∧ s.chip.inMove o = false) →
    exec (.longOpSafePoint i) s = .next (s.upd fun c => c.safePoint i)) ∧
  -- Of a measurement, with one more sample made.
  (∀ (s : State) (i : Fin 65536) (o : Op), s.up → s.chip.op i = some o → o.st = .running → o.kind = .calMeasure →
    exec (.longOpSafePoint i) s = .next (s.upd fun c => (if o.progress + 1 < o.total then (c.updOp i fun x => { x with progress := x.progress + 1 }).measureTask else c).safePoint i)) ∧
  -- An operation ends, by its kind.
  (∀ (s : State) (i : Fin 65536) (o : Op) (fail : Option (Nat × Nat)) (found : List Word), s.up →
    s.chip.op i = some o → o.st ≠ .done → s.chip.dmaHeld 0 = false →
    exec (.longOpDone i fail found) s = .next (s.upd fun c => match o.kind with | .engine | .lane | .dramRegion | .monitor => (if o.st = .cancelling then c.testCancelled o else if o.st = .running then c.testDone o fail found else c) | .calMeasure => c.cmDone o found | .scrub => c.scrubDone o | .reshape => c.reshapeEnd i | .download => c.dlDone i | .streamJob => c)) ∧
  -- A scrub period starts a scrub of 4,096 blocks when none runs.
  (∀ (s : State) (r : Chip), s.up → s.chip.grn.dramScrub = true → s.chip.scrubOp = none → s.chip.opRoom 0 = some r →
    exec .scrubPeriodStart s = .next (s.upd fun c => (r.newOp 0 .scrub 0xFFFF [] 4096).2)) ∧
  -- The scrubber reads a word of Garnet while its scrub runs: an error is corrected or poisons, the word is
  -- written back, and PROGRESS follows the address.
  (∀ (s : State) (w : GarnetWord) (addr : Fin 0x10000000) (e : Option Bool) (o : Op), s.up → (wordOf w).group = 0 →
    s.chip.scrubOp = some o → o.st = .running → s.chip.dramRuns = true →
    exec (.scrubAccess w addr e) s = .next (s.upd fun c => ((match e with | none => c | some bad => c.wordError (wordOf w) addr.val bad).wroteBack addr.val).updOp o.opid fun o => { o with progress := max o.progress ((addr.val + 8) / 65536) })) ∧
  -- A corrected word is written back.
  (∀ (s : State) (addr : Fin 0x10000000), s.up →
    exec (.correctionWriteBack addr) s = .next (s.upd fun c => c.wroteBack addr.val)) ∧
  -- The delay between two chunks of a download ends.
  (∀ (s : State) (i : Fin 65536) (o : Op), s.up → s.chip.op i = some o → o.kind = .download → o.delay = true →
    exec (.periphDownloadDelayExpiry i) s = .next (s.upd fun c => let d := c.updOp i fun o => { o with delay := false }; if o.st = .running then d.dlSend i else d))

/-- Planning, ticks of the wire and the starting of transactions act (R165, R166, R170, R172, R173, R176, R223). What
building a plan, a join word, a port microframe start, an edge-word compare, a transaction start, an express insertion
and an LPM transaction do in a running port. -/
def Obligations.SchedulerRowsComplete : Prop :=
  -- The plan of a port is built for the microframe after next, once.
  (∀ (s : State) (p : Fin 128), s.up → s.chip.schedRuns = true → (s.chip.clu (p / 8)).asleep = false →
    ((s.chip.port p).sc.plans.any fun x => x.mfn == s.chip.mfn + 2#14) = false →
    exec (.planBuild p) s = .next (s.upd fun c => (c.updSch fun s => { s with running := true, owedPlans := s.owedPlans.filter fun k => k != p.val }).buildPlan p (c.mfn + 2#14))) ∧
  -- An asynchronous endpoint with work joins the window of its port.
  (∀ (s : State) (p : Fin 128) (h : Fin 8192) (e : Ep), s.up → s.chip.schedRuns = true →
    (s.chip.port p).st = .enabled → s.chip.epPort h = some p.val →
    ((s.chip.port p).sc.window.contains h.val) = false → (s.chip.port p).sc.window.length < 32 →
    s.chip.ep h = some e → e.periodic = false → e.gone = false → e.halted = false → (s.chip.chan h).isSome = true →
    exec (.joinWord p h) s = .next (s.upd fun c => (c.startWindow [h.val]).updSc p fun s => { s with window := s.window ++ [h.val] })) ∧
  -- A port microframe starts; a port that it enables wakes a dozing device.
  (∀ (s : State) (p : Fin 128) (excess : Bool), s.up → s.chip.cluRuns (p / 8) = true →
    exec (.portMicroframeStart p excess) s = .next (s.upd fun c => if (c.port p).st != .enabled && ((c.portStart p excess).port p).st == .enabled then (c.portStart p excess).dozeWake 8 else c.portStart p excess)) ∧
  -- The edge word of a cluster: the first locks it, one more than two cycles off unlocks it and is reported,
  -- any other leaves it locked.
  (∀ (s : State) (k : Fin 16) (off : Fin 15000), s.up → s.chip.mfnRuns = true → (s.chip.clu k).asleep = false →
    ((s.chip.clu k).locked = false →
    exec (.edgeWordCompare k off) s = .next (s.upd fun c => c.updClu k fun x => { x with locked := true })) ∧
    ((s.chip.clu k).locked = true → off.val ≤ 2 → exec (.edgeWordCompare k off) s = .next s) ∧
    ((s.chip.clu k).locked = true → 3 ≤ off.val →
    exec (.edgeWordCompare k off) s = .next (s.upd fun c => (c.updClu k fun x => { x with locked := false }).report (0x080 + k) Kind.protocol 0))) ∧
  -- The port engine takes up its next transaction.
  (∀ (s : State) (p : Fin 128) (t : Fin 60000), s.up → (s.chip.clu (p / 8)).asleep = false →
    exec (.transactionStart p t) s = .next (s.upd fun c => c.txnStart p t)) ∧
  -- An express OUT that fits is sent at once.
  (∀ (s : State) (p : Fin 128) (h : Fin 8192) (t : Fin 60000) (e : Ep) (ch : Chan), s.up →
    (s.chip.port p).st = .enabled → (s.chip.port p).tokHold = false → (s.chip.port p).sc.txn = none →
    (s.chip.port p).waiting = none → (s.chip.port p).takeover = false → s.chip.epPort h = some p.val →
    s.chip.ep h = some e → s.chip.chan h = some ch → ch.x.express = true → ch.x.d.dataOut = true → e.halted = false →
    ch.x.cause = none → s.chip.chanHeld h = false →
    (s.chip.fitsAt p t ((s.chip.reqFor p h e ch.x false).need + 90 + s.chip.itemsNeed p) = true ∨ (s.chip.port p).sc.items = [] ∧
    s.chip.fitsAt p t (s.chip.reqFor p h e ch.x false).need = true) →
    exec (.expressOutInsert p h t) s = .next (s.upd fun c => (c.updChan h fun x => { x with started := true }).send p h e (c.reqFor p h e ch.x false) none false)) ∧
  -- An LPM transaction: an EXT token, then the LPM token, and a response is awaited.
  (∀ (s : State) (p : Fin 128) (t : Fin 60000) (d : Dev), s.up → (s.chip.rootDev p).bind s.chip.dev = some d →
    s.chip.lpmReady p = true →
    s.chip.fitsAt p t (charge .ping (s.chip.hs p) 0 (tokenLen (s.chip.hs p) Pid.ext d.addr 0) 0 0 - Charge.tail .ping (s.chip.hs p)) = true →
    exec (.lpmTransaction p t) s = .next (s.upd fun c => let e := c.emit (.usb p (.token Pid.ext d.addr 0)); (e.emit (.usb p (.lpm d.addr (e.port p).besl d.remoteWake))).updSc p fun s => { s with tokens := true, txn := some { ep := 0xFFFF, kind := .lpm, async := true } }))

/-- Responses, timeouts and babble on the wire act (R142, R144, R204, R205, R207, R213, R214, R290). What a response
SYNC, a response timeout, a data packet, a handshake, EOF2, a descriptor timeout, a pool-wait abort and the AUTOREC
expiry do. -/
def Obligations.WireResponsesComplete : Prop :=
  -- A SYNC arrives: the response awaited has begun; with none awaited it is late.
  (∀ (s : State) (p : Fin 128), s.up → (s.chip.port p).st = .enabled →
    exec (.responseSync p) s = .next (s.upd fun c => c.updSc p fun x => match x.txn with | some t => if t.wait = .response then { x with txn := some { t with wait := .packet } } else x | none => { x with txn := some { ep := 0xFFFF, kind := .lpm, wait := .late } })) ∧
  -- A response timeout, a data packet and a handshake.
  (∀ (s : State) (p : Fin 128) (pid : Byte) (bs : List Byte) (q : RxQuality), s.up →
    exec (.responseTimeout p) s = .next (s.upd fun c => c.responseTimeout p) ∧
    exec (.dataPacketReceived p pid bs q) s = .next (s.upd fun c => c.dataPacket p pid.toNat bs q) ∧
    exec (.handshakeReceived p pid q) s = .next (s.upd fun c => c.handshake p pid.toNat q)) ∧
  -- EOF2 with the device still sending on an enabled port with no transaction: the babble is counted and
  -- reported, the port is DISABLED with its event, its tree is detached, and enumeration is told.
  (∀ (s : State) (p : Fin 128), s.up → (s.chip.port p).st = .enabled → (s.chip.port p).sc.txn = none →
    exec (.eof2Reached p true) s = .next (s.upd fun c => let c := (((c.countBabble p).report p Kind.babble (eof2 (c.port p).speed)).updSc p PortSch.quiet).updPort p fun x => { x with waiting := none, disabled100 := false, tokHold := false }; (((c.setPort p .disabled).portEvent p Ev.disabled).detachTree p 0x04).happen p 0 (.enum p 0 0))) ∧
  -- EOF2 with nothing on the wire has no effect.
  (∀ (s : State) (p : Fin 128), s.up → exec (.eof2Reached p false) s = .next (s.upd fun c => c)) ∧
  -- A descriptor whose TMO has run out ends as TIMEOUT.
  (∀ (s : State) (f : Fin 128) (n : Fin 64) (count : Word) (q : Wq) (x : Xfer), s.up → s.chip.wq f n = some q →
    (q.work.find? fun x => x.count == count) = some x → x.tmo = some 0 → x.result = none → s.chip.schedRuns = true →
    exec (.descriptorTimeout f n count) s = .next (s.upd fun c => c.causeEnd f n x St.timeout)) ∧
  -- A pool wait past its limit ends the descriptor as POOL_WAIT_ABORT.
  (∀ (s : State) (h : Fin 8192) (e : Ep) (f n : Nat) (x : Xfer) (q : Wq) (y : Xfer), s.up → s.chip.ep h = some e →
    e.waiting = true → e.waitLim ≠ 0 → s.chip.grantable h = false → s.chip.chan h = some (.raw f n x) →
    s.chip.wq f n = some q → exec (.poolWaitAbort h) s = .next (s.upd fun c => c.poolAborted h f n x)) ∧
  -- 100 ms after a port was DISABLED, with AUTOREC 1, it detects again.
  (∀ (s : State) (p : Fin 128), s.up → (s.chip.port p).st = .disabled →
    exec (.autorecExpiry p) s = .next (s.upd fun c => if (c.port p).autoRec then (c.updPort p fun x => { x with disabled100 := true }).redetect p else c.updPort p fun x => { x with disabled100 := true }))

/-- Commands to a port engine are carried out (R201, R202, R214, R216, R219, R220, R229, R230, R231, R508). RESET,
SUSPEND, RESUME, REARM, SPARE and RETURN reach the port engine, and each sets CMDERR where the port cannot take it;
the test mode is entered and left; AUTOREC is written. -/
def Obligations.PortCommandsComplete : Prop :=
  -- A command to a port in service, whose cluster runs, is carried out.
  (∀ (s : State) (p : Fin 128) (k : Bool), s.up → s.chip.regsLive = true → s.chip.cmdBlocked p = false →
    exec (.portReset p) s = .next (s.upd fun c => c.cmdReset p) ∧
    exec (.portSuspend p) s = .next (s.upd fun c => c.cmdSuspend p) ∧
    exec (.portResume p k) s = .next (s.upd fun c => c.cmdResume p k) ∧
    exec (.rearm p) s = .next (s.upd fun c => c.cmdRearm p) ∧
    exec (.spare p) s = .next (s.upd fun c => c.cmdSpare p) ∧
    exec (.returnCmd p) s = .next (s.upd fun c => c.cmdReturn p)) ∧
  -- RESET: an enabled port lets its transaction finish, a suspended port or one in L1 resets at once, a
  -- DISABLED port restarts detection.
  (∀ (s : State) (p : Fin 128), s.up → s.chip.regsLive = true → s.chip.cmdBlocked p = false →
    (s.chip.port p).busy = false →
    ((s.chip.port p).st = .enabled ∨ (s.chip.port p).st = .suspended ∨ (s.chip.port p).st = .l1 ∨ (s.chip.port p).st = .disabled) →
    exec (.portReset p) s = .next (s.upd fun c => if (c.port p).st = .enabled then c.portAsk p .reset else if (c.port p).st = .disabled then c.redetect p else c.resetNow p)) ∧
  -- RESET, SUSPEND and RESUME of a port that is busy set CMDERR and do nothing else.
  (∀ (s : State) (p : Fin 128) (k : Bool), s.up → s.chip.regsLive = true → s.chip.cmdBlocked p = false →
    (s.chip.port p).busy = true → ¬ ((s.chip.port p).st = .resuming ∧ (s.chip.port p).nowRws = true ∧
    (s.chip.port p).nowHost = false) → exec (.portReset p) s = .next (s.upd fun c => c.portEvent p Ev.cmdErr) ∧
    exec (.portSuspend p) s = .next (s.upd fun c => c.portEvent p Ev.cmdErr) ∧
    exec (.portResume p k) s = .next (s.upd fun c => c.portEvent p Ev.cmdErr)) ∧
  -- SUSPEND: an enabled port goes there after its transaction, a port in L1 after L1.
  (∀ (s : State) (p : Fin 128), s.up → s.chip.regsLive = true → s.chip.cmdBlocked p = false →
    (s.chip.port p).busy = false → ((s.chip.port p).st = .enabled ∨ (s.chip.port p).st = .l1) →
    exec (.portSuspend p) s = .next (s.upd fun c => if (c.port p).st = .enabled then c.portAsk p .suspend else c.updPort p fun x => { x with thenSuspend := true })) ∧
  -- RESUME of a suspended port: K is driven at once when the port has been suspended long enough, else later.
  (∀ (s : State) (p : Fin 128) (k : Bool), s.up → s.chip.regsLive = true → s.chip.cmdBlocked p = false →
    (s.chip.port p).busy = false → (s.chip.port p).st = .suspended →
    exec (.portResume p k) s = .next (s.upd fun c => let d := (c.updPort p fun x => { x with nowHost := true, nowRws := k }).setPort p .resuming; if (c.port p).resided then d.startK p else d)) ∧
  -- REARM of an ISOLATED port turns it on again; of another it sets CMDERR.
  (∀ (s : State) (p : Fin 128), s.up → s.chip.regsLive = true → s.chip.cmdBlocked p = false →
    exec (.rearm p) s = .next (s.upd fun c => if (c.port p).st = .isolated then (c.setPort p .off).enablePort p false else c.portEvent p Ev.cmdErr)) ∧
  -- SPARE and RETURN plan the swap of the port between its own engine and the spare.
  (∀ (s : State) (p : Fin 128), s.up → s.chip.regsLive = true → s.chip.cmdBlocked p = false →
    (s.chip.port p).busy = false → (s.chip.port p).takeover = false → s.chip.spareTaken p = false →
    (s.chip.port p).ownFailed = false →
    exec (.spare p) s = .next (s.upd fun c => if (c.port p).spare then c else c.planSwap p true) ∧
    exec (.returnCmd p) s = .next (s.upd fun c => if (c.port p).spare then c.planSwap p false else c)) ∧
  -- A command to a port out of service sets CMDERR.
  (∀ (s : State) (p : Fin 128) (k : Bool), s.up → s.chip.regsLive = true → s.chip.outOfService p = true →
    exec (.portReset p) s = .next (s.upd fun c => c.portEvent p Ev.cmdErr) ∧
    exec (.portSuspend p) s = .next (s.upd fun c => c.portEvent p Ev.cmdErr) ∧
    exec (.portResume p k) s = .next (s.upd fun c => c.portEvent p Ev.cmdErr) ∧
    exec (.rearm p) s = .next (s.upd fun c => c.portEvent p Ev.cmdErr) ∧
    exec (.spare p) s = .next (s.upd fun c => c.portEvent p Ev.cmdErr) ∧
    exec (.returnCmd p) s = .next (s.upd fun c => c.portEvent p Ev.cmdErr)) ∧
  -- A test mode 1 to 5 is entered from DISCONNECTED, SUSPENDED or DISABLED.
  (∀ (s : State) (p : Fin 128) (m : Fin 8), s.up → s.chip.regsLive = true → s.chip.cmdBlocked p = false → (1 ≤ m.val ∧
    m.val ≤ 5) →
    ((s.chip.port p).st = .disconnected ∨ (s.chip.port p).st = .suspended ∨ (s.chip.port p).st = .disabled) →
    exec (.testModeSet p m) s = .next (s.upd fun c => c.testEnter p m)) ∧
  -- TEST is left by a power cycle of the port.
  (∀ (s : State) (p : Fin 128), s.up → s.chip.regsLive = true → (s.chip.port p).st = .test →
    exec (.testModeClear p) s = .next (s.upd fun c => c.testLeave p)) ∧
  -- AUTOREC takes its value; set in a port that has been DISABLED for 100 ms, it detects again.
  (∀ (s : State) (p : Fin 128) (b : Bool), s.up → s.chip.regsLive = true →
    exec (.autorecWrite p b) s = .next (s.upd fun c => if b && (c.port p).st == .disabled && (c.port p).disabled100 then (c.updPort p fun x => { x with autoRec := b }).redetect p else c.updPort p fun x => { x with autoRec := b }))

/-- Timers and line events of a port act (R216, R220, R224, R227, R228, R232, R233, R234). What the ends of reset, of
the token hold, of resume, of debounce, of the chirp window and of L1, a line-state change, a chirp and the failover
events of an engine do. -/
def Obligations.PortTimersComplete : Prop :=
  -- The reset ends: the port is ENABLED at the speed found, its tokens held, and RESET_DONE is told.
  (∀ (s : State) (p : Fin 128), s.up → (s.chip.port p).st = .resetting →
    exec (.resetSe0End p) s = .next (s.upd fun c => let c := c.updPort p fun x => { x with speed := some (if x.pullup == 1 then .low else if x.chirped then .high else .full), chirped := false, chirpOver := false, tokHold := true, afterReset := true, idle := 0 }
    let c := ((c.emit (.usb p .idle)).setPort p .enabled).portEvent p Ev.resetDone
    (c.each (c.treeWqs p) fun c w => c.updWq w.1 w.2 fun q => { q with suspHold := false }).dozeWake 8)) ∧
  -- The token hold ends.
  (∀ (s : State) (p : Fin 128), s.up → (s.chip.port p).st = .enabled → (s.chip.port p).tokHold = true →
    exec (.tokenHoldEnd p) s = .next (s.upd fun c => let d := c.updPort p fun x => { x with tokHold := false, afterReset := false }; (if (c.port p).afterReset then d.afterPortReset p else d).portReach p)) ∧
  -- A resume delay ends: a suspended port may now be resumed, and a port that waits to resume drives K.
  (∀ (s : State) (p : Fin 128), s.up → ((s.chip.port p).st = .suspended →
    exec (.resumeDelayEnd p) s = .next (s.upd fun c => c.updPort p fun x => { x with resided := true })) ∧
    ((s.chip.port p).st = .resuming → (s.chip.port p).driveK = false → (s.chip.port p).kEnded = false →
    exec (.resumeDelayEnd p) s = .next (s.upd fun c => (c.updPort p fun x => { x with resided := true }).startK p))) ∧
  -- K ends after a resume, and after an L1 exit: the low-speed EOP is sent.
  (∀ (s : State) (p : Fin 128), s.up → (s.chip.port p).driveK = true → ((s.chip.port p).st = .resuming →
    exec (.resumeKEnd p) s = .next (s.upd fun c => (c.updPort p fun x => { x with driveK := false, kEnded := true }).emit (.usb p .lsEop))) ∧
    ((s.chip.port p).st = .l1Resuming →
    exec (.l1ResumeKEnd p) s = .next (s.upd fun c => (c.updPort p fun x => { x with driveK := false, kEnded := true }).emit (.usb p .lsEop)))) ∧
  -- The filtered line state changes.
  (∀ (s : State) (p : Fin 128) (l : Line) (dmHigh : Bool), s.up → s.chip.cluRuns (p / 8) = true →
    s.chip.outOfService p = false →
    exec (.lineStateChange p l dmHigh) s = .next (s.upd fun c => c.lineChange p l dmHigh)) ∧
  -- The debounce of a connecting port ends: it is reset.
  (∀ (s : State) (p : Fin 128), s.up → (s.chip.port p).st = .connecting → s.chip.cluRuns (p / 8) = true →
    exec (.debounceEnd p) s = .next (s.upd fun c => c.resetNow p)) ∧
  -- In the reset of a port with a full-speed pull-up, a chirp within the window is answered; with none, the
  -- window is over; and the host chirp stops.
  (∀ (s : State) (p : Fin 128), s.up → (s.chip.port p).st = .resetting → (s.chip.port p).pullup = 2 →
    ((s.chip.port p).chirped = false → (s.chip.port p).chirpOver = false →
    exec (.deviceChirp p) s = .next (s.upd fun c => (c.updPort p fun x => { x with chirped := true }).emit (.usb p .chirpK))) ∧
    ((s.chip.port p).chirped = false →
    exec (.chirpWindowEnd p) s = .next (s.upd fun c => c.updPort p fun x => { x with chirpOver := true })) ∧
    ((s.chip.port p).chirped = true →
    exec (.hostChirpStop p) s = .next (s.upd fun c => c.emit (.usb p .chirpStop)))) ∧
  -- A port in L1 with work, or that is to suspend, leaves it.
  (∀ (s : State) (p : Fin 128) (k : Bool), s.up → (s.chip.port p).st = .l1 →
    ((s.chip.port p).thenSuspend = true ∨ s.chip.treeIdle p = false) →
    exec (.l1Exit p k) s = .next (s.upd fun c => c.leaveL1 p true k)) ∧
  -- A state error or a missed checkpoint of the engine that serves a port is reported, and the spare takes
  -- over.
  (∀ (s : State) (p : Fin 128), s.up → s.chip.engineRuns p = true →
    exec (.engineStateError p) s = .next (s.upd fun c => (c.report p Kind.uncorrectable 0).takeOver p true) ∧
    exec (.checkpointTimeout p) s = .next (s.upd fun c => (c.report p Kind.timeout 0).takeOver p true)) ∧
  -- The spare has loaded the state of a port with no traffic: it serves it, and FAILOVER is told; a failed load
  -- loses the port.
  (∀ (s : State) (p : Fin 128) (ok : Bool), s.up → (s.chip.port p).takeover = true → (s.chip.port p).st ≠ .enabled →
    s.chip.spareServes p = none → s.chip.engineRuns p = true →
    exec (.spareLoadDone p ok) s = .next (s.upd fun c => if ok then ((c.updPort p fun x => { x with spare := true, loaded := true }).updPort p fun x => { x with takeover := false, loaded := false, failovers := satAdd 255 x.failovers 1, ckptMfn := c.mfn }).portEvent p Ev.failover else (c.report p Kind.uncorrectable 0).lostPort p))

/-- The port power link, its frames and its conversions act (R236, R239, R240, R241, R244, R245, R246, R253, R254,
R256, R508). What a frame, a return frame, a link timeout, a hold timeout and a conversion of the monitor do. -/
def Obligations.PortPowerLinkComplete : Prop :=
  -- A frame of the port power link starts.
  (∀ (s : State) (k : Fin 16), s.alive → exec (.pplFrameStart k) s = .next (s.upd fun c => c.pplFrame k)) ∧
  -- A return frame, valid or not.
  (∀ (s : State) (k : Fin 16) (w : BitVec 22), s.up → s.chip.cluRuns k = true → (s.chip.clu k).stopped = false →
    exec (.pplReturnFrame k w) s = .next (s.upd fun c => match pplReturn w with | some r => (c.pplValid k r.1 r.2.1 r.2.2).sleepJudge | none => c.pplInvalid k)) ∧
  -- The link is lost: counted, reported, raised, and the power of its ports removed.
  (∀ (s : State) (k : Fin 16), s.alive → s.chip.cluRuns k = true → (s.chip.clu k).lost = false →
    (s.chip.clu k).holding = false →
    exec (.pplLinkTimeout k) s = .next (s.upd fun c => let c := c.updClu k fun x => { x with lost := true, byReset := false, linkUp := false, good := 0, losses := satAdd 0xFFFF x.losses 1 }
    let c := (c.report (0x080 + k) Kind.linkDown 0).shPulse k
    c.each ((List.range 8).map fun i => 8 * k.val + i) fun c p => if (c.port p).pw.want then (c.removePower p 6).updPw p fun y => { y with poweredAtLoss := true } else c)) ∧
  -- A cluster that does not hold in time: its sleep is given up, or the entry of the device is.
  (∀ (s : State) (k : Fin 16), s.up → (s.chip.sleepJudge.clu k).stopped = false →
    ((s.chip.sleepJudge.clu k).slStep = 3 →
    exec (.holdTimeout k) s = .next (s.upd fun c => c.sleepJudge.cluAbort k 2)) ∧
    ((s.chip.sleepJudge.clu k).slStep ≠ 3 → s.chip.sleepJudge.pwr.st = .entering → s.chip.sleepJudge.pwr.step = 5 →
    (s.chip.sleepJudge.clu k).holding = true →
    exec (.holdTimeout k) s = .next (s.upd fun c => let d := c.sleepJudge; (d.updPwr fun x => { x with notHeld := d.awakeClus.filter fun j => !(d.clu j).stopped }).abortEntry 2))) ∧
  -- A conversion of channel 8 is the cluster's current, of channels 0 to 7 the voltage of a port; each is
  -- corrected by its calibration.
  (∀ (s : State) (k : Fin 16) (ch : Fin 9) (raw : Fin 16384), s.alive → s.chip.cluRuns k = true →
    exec (.monitorConversion k ch raw) s = .next (s.upd fun c => if ch.val = 8 then c.senseCurrent k (correct (c.monCal k 8) raw) else c.senseVolts (8 * k + ch) (correct (c.monCal k ch) raw)))

/-- Port power is enabled, retried, shed and removed (R236, R239, R240, R241, R244, R245, R246, R253, R254, R256,
R508). What a power-good timeout, an enable, a shed, a retry, the end of the time that gives the retries back, the
writes of PRT_PWRCTRL and a primary detection do. -/
def Obligations.PortPowerActionsComplete : Prop :=
  -- A port whose power has not come is a brown-out.
  (∀ (s : State) (p : Fin 128), s.alive → (s.chip.port p).pw.awaiting = true →
    exec (.powerGoodTimeout p) s = .next (s.upd fun c => ((c.updPw p fun y => { y with boCnt := satAdd 255 y.boCnt 1 }).report p Kind.undervolt 0).removePower p 3)) ∧
  -- An enable that is due is made.
  (∀ (s : State) (p : Fin 128) (r : Bool), s.alive → (s.chip.port p).pw.enableDue = some r →
    exec (.portPowerEnable p) s = .next (s.upd fun c => c.enablePort p r)) ∧
  -- While the cluster sheds load, one more port loses its power.
  (∀ (s : State) (k : Fin 16), s.alive → (s.chip.clu k).shedding = true → s.chip.cluRuns k = true →
    exec (.loadShedRepeat k) s = .next (s.upd fun c => c.shedOne k)) ∧
  -- A retry that is due is made.
  (∀ (s : State) (p : Fin 128), s.alive → (s.chip.port p).pw.retryDue = true →
    exec (.powerRetry p) s = .next (s.upd fun c => (c.updPw p fun y => { y with retryDue := false }).enablePort p true)) ∧
  -- Power that has lasted gives its retries back.
  (∀ (s : State) (p : Fin 128), s.alive → (s.chip.port p).pw.want = true → (s.chip.port p).pw.awaiting = false →
    exec (.retryCountClear p) s = .next (s.upd fun c => c.updPw p fun y => if y.want && !y.awaiting then { y with retried := 0 } else y)) ∧
  -- PWROFF and RETRY are written.
  (∀ (s : State) (p : Fin 128) (b : Bool), s.alive → s.chip.outOfService p = false →
    exec (.pwroffWrite p b) s = .next (s.upd fun c => c.pwrOffWrite p b) ∧
    exec (.prtPwrctrlRetry p) s = .next (s.upd fun c => (c.updPw p fun y => { y with retried := 0 }).enablePort p false)) ∧
  -- A port out of service sets CMDERR instead.
  (∀ (s : State) (p : Fin 128) (b : Bool), s.alive → s.chip.outOfService p = true →
    exec (.pwroffWrite p b) s = .next (s.upd fun c => c.portEvent p Ev.cmdErr) ∧
    exec (.prtPwrctrlRetry p) s = .next (s.upd fun c => c.portEvent p Ev.cmdErr)) ∧
  -- A primary detection on a port that advertises CDP, powered and with nothing connected, has DM driven;
  -- leaving the range ends it.
  (∀ (s : State) (p : Fin 128), s.alive → ((s.chip.port p).pw.cdpEn = true → (s.chip.port p).pw.ilimHi = true →
    (s.chip.port p).pw.en = true → ((s.chip.port p).st = .disconnected ∨ (s.chip.port p).st = .connecting) →
    (s.chip.port p).pw.cdpDrive = false →
    exec (.cdpDetect p) s = .next (s.upd fun c => ((c.updPw p fun y => { y with cdpSeen := true }).updPw p fun y => { y with cdpDrive := true }).emit (.usb p (.cdp true)))) ∧
    ((s.chip.port p).pw.cdpDrive = true →
    exec (.cdpDpRangeExit p) s = .next (s.upd fun c => (c.updPw p fun y => { y with cdpDrive := false }).emit (.usb p (.cdp false)))))

/-- Requests to ENUM and its timers act (R258, R259, R262, R266, R343). Each request of a function to ENUM for a
device it owns, the timeouts of the requests ENUM makes, and RECV for the messages of an instance. -/
def Obligations.EnumerationRowsComplete : Prop :=
  -- DESCRIBE answers the device record.
  (∀ (s : State) (f : Fin 128) (n : Fin 64) (count : Word) (q : Wq) (h : Nat) (i : Inst) (x : Xfer) (d : Dev),
    s.asks f n count q h i x .enum 0x01 → (s.chip.begun f n x).reqDev f x.d.argA = .inr d →
    exec (.enumDescribe f n count) s = .next (s.upd fun c => (c.begun f n x).svcAnswer (0x800 + f) f n x ((c.begun f n x).describe x.d.argA d))) ∧
  -- SET_CONFIG, SET_ALT, DEV_SUSPEND and DEV_RESUME become jobs of the device's root port.
  (∀ (s : State) (f : Fin 128) (n : Fin 64) (count : Word) (q : Wq) (h : Nat) (i : Inst) (x : Xfer) (d : Dev),
    s.asks f n count q h i x .enum 0x02 → (s.chip.begun f n x).reqDev f x.d.argA = .inr d →
    exec (.enumSetConfig f n count) s = .next (s.upd fun c => (c.begun f n x).enumAdd d.port (.request f n x.count))) ∧
  -- The same for SET_ALT.
  (∀ (s : State) (f : Fin 128) (n : Fin 64) (count : Word) (q : Wq) (h : Nat) (i : Inst) (x : Xfer) (d : Dev),
    s.asks f n count q h i x .enum 0x03 → (s.chip.begun f n x).reqDev f x.d.argA = .inr d →
    exec (.enumSetAlt f n count) s = .next (s.upd fun c => (c.begun f n x).enumAdd d.port (.request f n x.count))) ∧
  -- The same for DEV_SUSPEND.
  (∀ (s : State) (f : Fin 128) (n : Fin 64) (count : Word) (q : Wq) (h : Nat) (i : Inst) (x : Xfer) (d : Dev),
    s.asks f n count q h i x .enum 0x06 → (s.chip.begun f n x).reqDev f x.d.argA = .inr d →
    exec (.devSuspend f n count) s = .next (s.upd fun c => (c.begun f n x).enumAdd d.port (.request f n x.count))) ∧
  -- The same for DEV_RESUME.
  (∀ (s : State) (f : Fin 128) (n : Fin 64) (count : Word) (q : Wq) (h : Nat) (i : Inst) (x : Xfer) (d : Dev),
    s.asks f n count q h i x .enum 0x07 → (s.chip.begun f n x).reqDev f x.d.argA = .inr d →
    exec (.devResume f n count) s = .next (s.upd fun c => (c.begun f n x).enumAdd d.port (.request f n x.count))) ∧
  -- DEV_RESET becomes a reset job.
  (∀ (s : State) (f : Fin 128) (n : Fin 64) (count : Word) (q : Wq) (h : Nat) (i : Inst) (x : Xfer) (d : Dev),
    s.asks f n count q h i x .enum 0x08 → (s.chip.begun f n x).reqDev f x.d.argA = .inr d →
    exec (.devReset f n count) s = .next (s.upd fun c => (c.begun f n x).enumAdd d.port (.reset x.d.argA (some (f, n, x.count))))) ∧
  -- EP_RESET clears the endpoint here, or in the device too.
  (∀ (s : State) (f : Fin 128) (n : Fin 64) (count : Word) (q : Wq) (h : Nat) (i : Inst) (x : Xfer) (e : Ep) (d : Dev),
    s.asks f n count q h i x .enum 0x04 → s.chip.ep x.d.argA = some e → e.gone = false →
    (s.chip.begun f n x).reqDev f e.dev = .inr d →
    exec (.epReset f n count) s = .next (s.upd fun c => if x.d.argB % 2 = 0 then ((c.begun f n x).updEp x.d.argA fun e => { e with toggle := false, strikes := 0, ping := false, halted := false }).svcOk f n x else (c.begun f n x).enumAdd d.port (.request f n x.count))) ∧
  -- EP_CONFIG sets the weight.
  (∀ (s : State) (f : Fin 128) (n : Fin 64) (count : Word) (q : Wq) (h : Nat) (i : Inst) (x : Xfer) (e : Ep) (d : Dev),
    s.asks f n count q h i x .enum 0x05 → s.chip.ep x.d.argA = some e → e.gone = false →
    (s.chip.begun f n x).reqDev f e.dev = .inr d →
    exec (.epConfig f n count) s = .next (s.upd fun c => ((c.begun f n x).updEp x.d.argA fun e => { e with weight := x.d.argB % 32 }).svcOk f n x)) ∧
  -- RECV is answered from the messages that wait.
  (∀ (s : State) (f : Fin 128) (n : Fin 64) (count : Word) (q : Wq) (h : Nat) (i : Inst) (x : Xfer) (v : Svc),
    s.asks f n count q h i x v 0x80 →
    exec (.recv f n count) s = .next (s.upd fun c => ((c.begun f n x).flushWq f n).recvTry h)) ∧
  -- A request that ENUM makes of a device has not ended in time.
  (∀ (s : State) (p : Fin 128), s.up → exec (.enumRequestTimeout p) s = .next (s.upd fun c => c.enumTimeout p)) ∧
  -- A hub port has not ended its reset in time: it is reset again, twice at most, and then the step fails.
  (∀ (s : State) (p : Fin 128) (hub k a b : Nat) (w0 w1 : Word) (y : Bool) (rest : List EnumAct), s.up →
    s.chip.resetPos p = some (hub, k) →
    (s.chip.port p).run.acts = .req a b w0 w1 .resetEnd y :: rest →
    exec (.hubPortResetTimeout p) s = .next (s.upd fun c => if (c.port p).run.resets < 2 then ((((c.enumTimeout p).nextGen p).updRun p fun r => { r with resets := r.resets + 1 }).setActs p (hubResetActs hub k ++ rest)).happen p 0 (.enum p 6 0) else (((c.enumTimeout p).nextGen p).setActs p rest).enumHard p St.timeout 0)) ∧
  -- ENUM's messages of a function have waited long enough.
  (∀ (s : State) (f : Fin 128), s.up →
    exec (.enumMessageWaitEnd f) s = .next (s.upd fun c => (c.refillInst (0x800 + f)).recvTry (0x800 + f)))

/-- Requests to HIDX, its reports and its idle gap act (R346, R347, R348, R349, R350). Each HIDX request of a bound
interface, a report, and the gap that ends a scanned string. -/
def Obligations.HidxRowsComplete : Prop :=
  -- GET_RDESC answers the report descriptor.
  (∀ (s : State) (f : Fin 128) (n : Fin 64) (count : Word) (q : Wq) (h : Nat) (i : Inst) (x : Xfer),
    s.asks f n count q h i x .hidx 0x01 →
    exec (.hidxGetRdesc f n count) s = .next (s.upd fun c => (c.begun f n x).svcAnswer h f n x i.hidx.rdesc)) ∧
  -- MAP_LOAD takes a valid map, and refuses an invalid one at the offset at fault.
  (∀ (s : State) (f : Fin 128) (n : Fin 64) (count : Word) (q : Wq) (h : Nat) (i : Inst) (x : Xfer),
    s.asks f n count q h i x .hidx 0x02 →
    exec (.hidxMapLoad f n count) s = .next (s.upd fun c => match mapBad x.payload with | some o => (c.begun f n x).svcFail h f n x 0x0A o | none => ((c.begun f n x).updHidx h fun y => y.loadMap x.payload).svcOk f n x x.outLen)) ∧
  -- SET_MODE to a mode of the same protocol is at once; to another, SET_PROTOCOL is sent first.
  (∀ (s : State) (f : Fin 128) (n : Fin 64) (count : Word) (q : Wq) (h : Nat) (i : Inst) (x : Xfer),
    s.asks f n count q h i x .hidx 0x03 → (x.d.argA ≠ 0 → (s.chip.begun f n x).bootKeyboard i = true) →
    (s.chip.begun f n x).unreachable h = false →
    exec (.hidxSetMode f n count) s = .next (s.upd fun c => if (x.d.argA != 0) = (i.hidx.mode != .report) then ((c.begun f n x).setMode h x).svcOk f n x else (c.begun f n x).instCtl h 0 (reqTag 3 x.count) i.dev (setup0 0x21 0x0B (if x.d.argA != 0 then 0 else 1), setup1 i.iface 0))) ∧
  -- KEYMAP_LOAD takes a key map, or goes back to the built-in one.
  (∀ (s : State) (f : Fin 128) (n : Fin 64) (count : Word) (q : Wq) (h : Nat) (i : Inst) (x : Xfer),
    s.asks f n count q h i x .hidx 0x04 →
    exec (.hidxKeymapLoad f n count) s = .next (s.upd fun c => ((c.begun f n x).updHidx h fun y => { y with keymap := if x.d.length = 0 then none else some x.payload }).svcOk f n x x.outLen)) ∧
  -- SEND_REPORT without an interrupt OUT endpoint is a SET_REPORT.
  (∀ (s : State) (f : Fin 128) (n : Fin 64) (count : Word) (q : Wq) (h : Nat) (i : Inst) (x : Xfer),
    s.asks f n count q h i x .hidx 0x05 → (s.chip.begun f n x).unreachable h = false →
    (s.chip.begun f n x).instEp h .intr false = none →
    exec (.hidxSendReport f n count) s = .next (s.upd fun c => (c.begun f n x).instCtl h 0 (reqTag 5 x.count) i.dev (setup0 0x21 0x09 (x.d.argA * 256 + x.d.argB), setup1 i.iface x.d.length) x.payload)) ∧
  -- An output report goes over an interrupt OUT endpoint, its ID first.
  (∀ (s : State) (f : Fin 128) (n : Fin 64) (count : Word) (q : Wq) (h : Nat) (i : Inst) (x : Xfer) (e : Nat),
    s.asks f n count q h i x .hidx 0x05 → (s.chip.begun f n x).unreachable h = false → x.d.argA = 2 →
    (s.chip.begun f n x).instEp h .intr false = some e →
    exec (.hidxSendReport f n count) s = .next (s.upd fun c => (c.begun f n x).instSend h 0 (reqTag 5 x.count) e (mkDesc 4 ((if x.d.argB = 0 then [] else [BitVec.ofNat 8 x.d.argB]) ++ x.payload).length 0#32 0#32) ((if x.d.argB = 0 then [] else [BitVec.ofNat 8 x.d.argB]) ++ x.payload))) ∧
  -- GET_REPORT asks the device.
  (∀ (s : State) (f : Fin 128) (n : Fin 64) (count : Word) (q : Wq) (h : Nat) (i : Inst) (x : Xfer),
    s.asks f n count q h i x .hidx 0x06 → (s.chip.begun f n x).unreachable h = false →
    exec (.hidxGetReport f n count) s = .next (s.upd fun c => (c.begun f n x).instCtl h 0 (reqTag 6 x.count) i.dev (setup0 0xA1 0x01 (x.d.argA * 256 + x.d.argB), setup1 i.iface x.d.length))) ∧
  -- A report that an active instance has received is taken up.
  (∀ (s : State) (h : Fin 2048) (e : Nat), s.up → s.chip.serves h .hidx = true →
    s.chip.packetOn h .intr (fun _ => true) = some e →
    exec (.hidxInputReport h) s = .next (s.upd fun c => c.hidxPacket h e)) ∧
  -- The gap after the last character ends the string.
  (∀ (s : State) (h : Fin 2048) (i : Inst), s.up → s.chip.inst h = some i → i.svc = .hidx → i.hidx.idleRun = true →
    i.hidx.text ≠ [] → exec (.scanIdleGap h) s = .next (s.upd fun c => c.endString h true false))

/-- Requests to CCID, its notices and its timers act (R353, R354, R356, R357, R359). Each CCID request of a reader
that can be reached, by the state of its slot, and the notices, responses and timeouts of a reader. -/
def Obligations.CcidRowsComplete : Prop :=
  -- POWER_ON activates the card; an active one is powered off first.
  (∀ (s : State) (f : Fin 128) (n : Fin 64) (count : Word) (q : Wq) (h : Nat) (i : Inst) (x : Xfer),
    s.asks f n count q h i x .ccid 0x01 → (s.chip.begun f n x).unreachable h = false →
    (s.chip.begun f n x).slot h x.d.argA = s.chip.slot h x.d.argA →
    exec (.ccidPowerOn f n count) s = .next (s.upd fun c => if ((c.begun f n x).slot h x.d.argA).st = .absent then (c.begun f n x).svcFail h f n x 0x04 x.d.argA else if ((c.begun f n x).slot h x.d.argA).st = .activating then (c.begun f n x).svcFail h f n x 0x08 0 else if ((c.begun f n x).slot h x.d.argA).job != .none then (c.begun f n x).updSlot h x.d.argA fun z => { z with todo := z.todo ++ [(f.val, n.val, x.count)] } else let c := (c.begun f n x).updSlot h x.d.argA fun z => { z with req := some (f, n, x.count) }; if (s.chip.slot h x.d.argA).st = .active then (c.updSlot h x.d.argA fun z => { z with st := .activating }).powerOff h x.d.argA 2 else c.activate h x.d.argA)) ∧
  -- POWER_OFF.
  (∀ (s : State) (f : Fin 128) (n : Fin 64) (count : Word) (q : Wq) (h : Nat) (i : Inst) (x : Xfer),
    s.asks f n count q h i x .ccid 0x02 → (s.chip.begun f n x).unreachable h = false →
    exec (.ccidPowerOff f n count) s = .next (s.upd fun c => if ((c.begun f n x).slot h x.d.argA).st = .absent then (c.begun f n x).svcFail h f n x 0x04 x.d.argA else if ((c.begun f n x).slot h x.d.argA).job != .none then (c.begun f n x).updSlot h x.d.argA fun z => { z with todo := z.todo ++ [(f.val, n.val, x.count)] } else ((c.begun f n x).updSlot h x.d.argA fun z => { z with req := some (f, n, x.count) }).powerOff h x.d.argA 0)) ∧
  -- XFR to an active card.
  (∀ (s : State) (f : Fin 128) (n : Fin 64) (count : Word) (q : Wq) (h : Nat) (i : Inst) (x : Xfer),
    s.asks f n count q h i x .ccid 0x03 → (s.chip.begun f n x).unreachable h = false →
    exec (.ccidXfr f n count) s = .next (s.upd fun c => if (((c.begun f n x).slot h x.d.argA).job != .none) && ((c.begun f n x).slot h x.d.argA).st == .active then (c.begun f n x).updSlot h x.d.argA fun z => { z with todo := z.todo ++ [(f.val, n.val, x.count)] } else if ((c.begun f n x).slot h x.d.argA).st = .absent then (c.begun f n x).svcFail h f n x 0x04 x.d.argA else if ((c.begun f n x).slot h x.d.argA).st != .active then (c.begun f n x).svcFail h f n x 0x0B x.d.argA else (c.begun f n x).startXfr h x.d.argA f n x)) ∧
  -- SLOT_STATUS answers the state and the protocol.
  (∀ (s : State) (f : Fin 128) (n : Fin 64) (count : Word) (q : Wq) (h : Nat) (i : Inst) (x : Xfer),
    s.asks f n count q h i x .ccid 0x04 →
    exec (.ccidSlotStatus f n count) s = .next (s.upd fun c => (c.begun f n x).svcOk f n x 0 0#32 (mkWord [(((c.begun f n x).slot h x.d.argA).st.code, 0), (((c.begun f n x).slot h x.d.argA).proto, 8)]))) ∧
  -- SET_OPTS of one slot or of all.
  (∀ (s : State) (f : Fin 128) (n : Fin 64) (count : Word) (q : Wq) (h : Nat) (i : Inst) (x : Xfer),
    s.asks f n count q h i x .ccid 0x05 →
    exec (.ccidSetOpts f n count) s = .next (s.upd fun c => ((c.begun f n x).each (if x.d.argA = 0xFFFF then List.range i.slots else [x.d.argA]) fun c k => c.updSlot h k fun z => { z with autoPower := x.d.argB % 2 == 1, preferT1 := x.d.argB / 2 % 2 == 1, noPps := x.d.argB / 4 % 2 == 1 }).svcOk f n x)) ∧
  -- ESCAPE is passed to the reader.
  (∀ (s : State) (f : Fin 128) (n : Fin 64) (count : Word) (q : Wq) (h : Nat) (i : Inst) (x : Xfer),
    s.asks f n count q h i x .ccid 0x06 → (s.chip.begun f n x).unreachable h = false →
    exec (.ccidEscape f n count) s = .next (s.upd fun c => if ((c.begun f n x).slot h x.d.argA).job != .none then (c.begun f n x).updSlot h x.d.argA fun z => { z with todo := z.todo ++ [(f.val, n.val, x.count)] } else ((c.begun f n x).updSlot h x.d.argA fun z => { z with req := some (f, n, x.count) }).ccidCmd h x.d.argA .escape 0x6B (0, 0, 0) x.payload)) ∧
  -- A slot change notice.
  (∀ (s : State) (h : Fin 2048) (e : Nat), s.up → s.chip.serves h .ccid = true →
    s.chip.packetOn h .intr (fun b => b == 0x50) = some e →
    exec (.ccidSlotNotification h) s = .next (s.upd fun c => c.ccidNotice h e)) ∧
  -- A hardware error notice.
  (∀ (s : State) (h : Fin 2048) (e : Nat), s.up → s.chip.serves h .ccid = true →
    s.chip.packetOn h .intr (fun b => b == 0x51) = some e →
    exec (.ccidHardwareError h) s = .next (s.upd fun c => c.ccidNotice h e)) ∧
  -- What the reader has answered is taken up.
  (∀ (s : State) (h : Fin 2048) (i : Inst), s.up → s.chip.inst h = some i → i.svc = .ccid → i.st ≠ .detached →
    i.st ≠ .closing → exec (.ccidResponse h) s = .next (s.upd fun c => c.ccidInbox h)) ∧
  -- A command's time runs out; the answer to an abort does not come.
  (∀ (s : State) (h : Fin 2048) (k : Fin 8), s.up → s.chip.hasSlot h k = true →
    exec (.ccidCommandTimeout h k) s = .next (s.upd fun c => if (c.slot h k).job != .voltWait then c.ccidTimeout h k false else c) ∧
    exec (.ccidAbortTimeout h k) s = .next (s.upd fun c => if (c.slot h k).job == .abort then c.abortEnd h k else c) ∧
    exec (.ccidVoltageRetryWait h k) s = .next (s.upd fun c => if (c.slot h k).job == .voltWait then c.powerOn h k else c))

/-- Requests to STRM and HLTH, stream jobs and received data act (R362, R363, R364, R365, R369). Each STRM request of
an instance that supports it, a stream job, received data and notices, and the HLTH requests. -/
def Obligations.StrmAndHlthRowsComplete : Prop :=
  -- TX sends its bytes, after a job that runs.
  (∀ (s : State) (f : Fin 128) (n : Fin 64) (count : Word) (q : Wq) (h : Nat) (i : Inst) (x : Xfer) (e : Nat),
    s.asks f n count q h i x .strm 0x01 → (s.chip.begun f n x).unreachable h = false →
    (s.chip.begun f n x).instEp h .bulk false = some e →
    exec (.strmTx f n count) s = .next (s.upd fun c => if i.strm.job.isSome then (c.begun f n x).updXfer f n x.count fun y => { y with svcPhase := 1 } else (c.begun f n x).instSend h 0 (reqTag 1 x.count) e (mkDesc 2 x.payload.length 0#32 0#32) x.payload)) ∧
  -- SET_LINE of a CDC device.
  (∀ (s : State) (f : Fin 128) (n : Fin 64) (count : Word) (q : Wq) (h : Nat) (i : Inst) (x : Xfer),
    s.asks f n count q h i x .strm 0x02 → i.strm.cdc = true → (s.chip.begun f n x).unreachable h = false →
    exec (.strmSetLine f n count) s = .next (s.upd fun c => (c.begun f n x).instCtl h 0 (reqTag 2 x.count) i.dev (setup0 0x21 0x20 0, setup1 i.iface 7) (natBytes 4 x.d.argC.toNat ++ [BitVec.ofNat 8 (x.d.argA / 4096), BitVec.ofNat 8 (x.d.argA / 256 % 16), BitVec.ofNat 8 (x.d.argA % 256)]))) ∧
  -- SET_CTRL.
  (∀ (s : State) (f : Fin 128) (n : Fin 64) (count : Word) (q : Wq) (h : Nat) (i : Inst) (x : Xfer),
    s.asks f n count q h i x .strm 0x03 → i.strm.cdc = true → (s.chip.begun f n x).unreachable h = false →
    exec (.strmSetCtrl f n count) s = .next (s.upd fun c => (c.begun f n x).instCtl h 0 (reqTag 3 x.count) i.dev (setup0 0x21 0x22 x.d.argA, setup1 i.iface 0))) ∧
  -- BREAK.
  (∀ (s : State) (f : Fin 128) (n : Fin 64) (count : Word) (q : Wq) (h : Nat) (i : Inst) (x : Xfer),
    s.asks f n count q h i x .strm 0x04 → i.strm.cdc = true → (s.chip.begun f n x).unreachable h = false →
    exec (.strmBreak f n count) s = .next (s.upd fun c => (c.begun f n x).instCtl h 0 (reqTag 4 x.count) i.dev (setup0 0x21 0x23 x.d.argA, setup1 i.iface 0))) ∧
  -- PORT_STATUS of a printer.
  (∀ (s : State) (f : Fin 128) (n : Fin 64) (count : Word) (q : Wq) (h : Nat) (i : Inst) (x : Xfer),
    s.asks f n count q h i x .strm 0x05 → i.strm.cdc = false → (s.chip.begun f n x).unreachable h = false →
    exec (.strmPortStatus f n count) s = .next (s.upd fun c => (c.begun f n x).instCtl h 0 (reqTag 5 x.count) i.dev (setup0 0xA1 0x01 0, setup1 i.iface 1))) ∧
  -- DEVICE_ID answers what was read at the bind; a printer that gave none fails it with UNSUPPORTED.
  (∀ (s : State) (f : Fin 128) (n : Fin 64) (count : Word) (q : Wq) (h : Nat) (i : Inst) (x : Xfer),
    s.asks f n count q h i x .strm 0x06 → i.strm.cdc = false →
    exec (.strmDeviceId f n count) s = .next (s.upd fun c => if i.strm.devId.isEmpty then (c.begun f n x).svcFail h f n x 0x09 0 else (c.begun f n x).svcAnswer h f n x i.strm.devId)) ∧
  -- SOFT_RESET of a printer.
  (∀ (s : State) (f : Fin 128) (n : Fin 64) (count : Word) (q : Wq) (h : Nat) (i : Inst) (x : Xfer),
    s.asks f n count q h i x .strm 0x07 → i.strm.cdc = false → (s.chip.begun f n x).unreachable h = false →
    exec (.strmSoftReset f n count) s = .next (s.upd fun c => (c.begun f n x).instCtl h 0 (reqTag 7 x.count) i.dev (setup0 0x21 0x02 0, setup1 i.iface 0))) ∧
  -- RX_CFG applies to the next chunk.
  (∀ (s : State) (f : Fin 128) (n : Fin 64) (count : Word) (q : Wq) (h : Nat) (i : Inst) (x : Xfer),
    s.asks f n count q h i x .strm 0x08 →
    exec (.strmRxCfg f n count) s = .next (s.upd fun c => ((c.begun f n x).updStrm h fun y => if y.rx.isEmpty then { y with rxIdle := x.d.argA, rxChunk := x.d.argB } else { y with nextRx := some (x.d.argA, x.d.argB) }).svcOk f n x)) ∧
  -- A STREAM_JOB starts, or waits for the job that runs.
  (∀ (s : State) (f : Fin 128) (n : Fin 64) (count : Word) (q : Wq) (h : Nat) (i : Inst) (x : Xfer), s.up →
    s.chip.wq f n = some q → q.instOf = some h → s.chip.inst h = some i → s.chip.xfer f n count = some x →
    x.count = count → x.svcRun = false → x.fetched i.svc i.slots = true → i.svc = .strm → x.d.ty = some .streamJob →
    i.st ≠ .detached →
    exec (.streamJob f n count) s = .next (s.upd fun c => if i.strm.job.isSome then (c.begun f n x).updXfer f n x.count fun y => { y with svcPhase := 1 } else (c.begun f n x).startStream h f n x)) ∧
  -- Received data is gathered.
  (∀ (s : State) (h : Fin 2048) (e : Nat), s.up → s.chip.serves h .strm = true →
    s.chip.packetOn h .bulk (fun _ => true) = some e →
    exec (.strmRxData h) s = .next (s.upd fun c => c.strmData h e)) ∧
  -- A serial state notice.
  (∀ (s : State) (h : Fin 2048) (e : Nat), s.up → s.chip.serves h .strm = true →
    s.chip.packetOn h .intr (fun _ => true) = some e →
    exec (.serialState h) s = .next (s.upd fun c => c.strmNotice h e)) ∧
  -- The idle time ends a chunk.
  (∀ (s : State) (h : Fin 2048) (i : Inst), s.up → s.chip.inst h = some i → i.svc = .strm → i.strm.rxTimer = true →
    exec (.strmRxidleExpiry h) s = .next (s.upd fun c => c.sendRx h i.strm.rxChunk)) ∧
  -- A job that makes no progress is stalled.
  (∀ (s : State) (h : Fin 2048) (i : Inst), s.up → s.chip.inst h = some i → i.svc = .strm → i.strm.job.isSome = true →
    exec (.jobStall h) s = .next (s.upd fun c => c.jobStall h)) ∧
  -- SET_OPTS of HLTH applies from the next heartbeat.
  (∀ (s : State) (f : Fin 128) (n : Fin 64) (count : Word) (q : Wq) (h : Nat) (i : Inst) (x : Xfer),
    s.asks f n count q h i x .hlth 0x01 →
    exec (.hlthSetOpts f n count) s = .next (s.upd fun c => ((c.begun f n x).updHlth h fun y => { y with nextOpts := some (x.d.argA, x.d.argB % 16, x.d.argB / 16 % 2 == 1, x.d.argB / 256) }).svcOk f n x)) ∧
  -- SNAPSHOT answers the snapshot.
  (∀ (s : State) (f : Fin 128) (n : Fin 64) (count : Word) (q : Wq) (h : Nat) (i : Inst) (x : Xfer),
    s.asks f n count q h i x .hlth 0x02 →
    exec (.hlthSnapshot f n count) s = .next (s.upd fun c => ((c.begun f n x).snapshot h).2.svcAnswer h f n x ((c.begun f n x).snapshot h).1))

/-- The mover, the pool and the channel settings act (R280, R281, R286, R292, R302). What the issue of a mover
request, the return of a read, a cell grant and a write of the channel settings do. -/
def Obligations.MoverAndPoolRowsComplete : Prop :=
  -- The mover issues its next request.
  (∀ (s : State), s.up → s.chip.fabricRuns = true →
    exec (.moverRequestIssue none) s = .next (s.upd fun c => c.moverIssue)) ∧
  -- A read of host memory returns: it leaves the list and what it was for goes on.
  (∀ (s : State) (k : Fin 512) (bs : List Byte) (r : MovRead), s.up → s.chip.grn.reads[k.val]? = some r →
    (s.chip.fn r.fn).home = none → bs.length = r.len →
    exec (.moverReadReturn k bs) s = .next (s.upd fun c => (c.updGrn fun g => { g with reads := g.reads.eraseIdx k }).readReturn r bs)) ∧
  -- A free cell goes to the next that waits.
  (∀ (s : State) (h : Nat), s.up → s.chip.nextWaiter = some h →
    exec .cellGrant s = .next (s.upd fun c => match c.chan h with | some ch => if ch.x.d.dataIn then c.supplyEp h else c.lendOut h | none => c.lendOut h)) ∧
  -- Settings that are allowed are taken by the channel selected.
  (∀ (s : State) (mark : Bool) (w : Word) (e y : Ep), s.up → s.chip.ep s.chip.grn.sel = some e →
    (if mark then e.setMarks (if e.type = .control then s.chip.grn.ctlDir else e.isIn) (bits w 24 16) (bits w 8 0) else e.setQuota (bits w 23 16) (bits w 31 24)) = some y →
    exec (.channelSettingsWrite mark w) s = .next (s.upd fun c => c.updEp c.grn.sel fun _ => y)) ∧
  -- With no channel selected, CFGERR is set.
  (∀ (s : State) (mark : Bool) (w : Word), s.up → s.chip.ep s.chip.grn.sel = none →
    exec (.channelSettingsWrite mark w) s = .next (s.upd fun c => c.updGrn fun g => { g with cfgerr := true }))

/-- Task placement, lanes and releases act (R190, R306, R307, R308, R315, R316, R318, R319, R324). What the placement,
the start, the end and the release of a task, the contexts' moves, the watchdog, timers and deadlines do. -/
def Obligations.TaskRowsComplete : Prop :=
  -- One ready task is placed.
  (∀ (s : State), s.up → exec .taskPlacement s = .next (s.upd fun c => c.place)) ∧
  -- A context that is being copied, or fetched back, has come.
  (∀ (s : State) (i : Fin 16384) (seq : Fin 65536) (t : Task), s.up → s.chip.taskAt i seq = some t →
    exec (.contextCopyDone i seq) s = .next (s.upd fun c => if t.ctx = 1 then c.updTask t.id fun t => { t with ctx := 0 } else c) ∧
    exec (.contextFetchBack i seq) s = .next (s.upd fun c => if t.ctx = 2 then c.updTask t.id fun t => { t with ctx := 0 } else c)) ∧
  -- A lane starts the first of its queue: it serves it, or its context or its record is lost.
  (∀ (s : State) (l : Fin 32) (t : Task), s.up → s.chip.laneTask l = none → (s.chip.lane l).off ≠ 2 →
    firstBy (fun a b => a.placedAt < b.placedAt) (s.chip.laneQueue l) = some t → t.ctx = 0 →
    exec (.laneTaskStart l .good) s = .next (s.upd fun c => c.updTask t.id fun t => { t with st := .inService }) ∧
    exec (.laneTaskStart l .contextLost) s = .next (s.upd fun c => match t.flow with | some i => (c.report (0x0B0 + l) Kind.uncorrectable 0).loseFlow i | none => c) ∧
    exec (.laneTaskStart l .recordLost) s = .next (s.upd fun c => let c := (c.report (0x0B0 + l) Kind.uncorrectable 0).updTask t.id fun t => { t with st := .done, marker := true }; match t.flow with | some i => c.clearPrev i t.seq | none => c.updDsp fun d => { d with tasks := d.tasks.filter fun u => u.id != t.id })) ∧
  -- The task in service ends: it is counted, a lane going off goes off, and a cancelled task frees the next of
  -- its flow.
  (∀ (s : State) (l : Fin 32) (t : Task), s.up → s.chip.laneTask l = some t →
    exec (.taskDone l) s = .next (s.upd fun c => let c := (c.updTask t.id fun t => { t with st := .done, marker := t.cancelled }).updLane l fun x => { x with tasks := satAdd 0xFFFFFFFF x.tasks 1, off := if x.off = 1 then 2 else x.off }; match t.flow with | some i => if t.cancelled then c.clearPrev i t.seq else c | none => c) ∧
    exec (.laneWatchdog l) s = .next (s.upd fun c => ((c.failTask l).report (0x0B0 + l) Kind.timeout 0).updDsp fun d => { d with wdogs := satAdd 255 d.wdogs 1 })) ∧
  -- The oldest task of a flow is released.
  (∀ (s : State) (i : Fin 16384), s.up → exec (.taskRelease (some i)) s = .next (s.upd fun c => c.releaseTask i)) ∧
  -- A task of no flow is released.
  (∀ (s : State) (t : Task), s.up → (s.chip.dsp.tasks.find? fun t => t.flow.isNone && t.st == .done) = some t →
    exec (.taskRelease none) s = .next (s.upd fun c => (c.updDsp fun d => { d with tasks := d.tasks.filter fun u => u.id != t.id }).serveWaiting)) ∧
  -- The timer of a waiting task expires.
  (∀ (s : State) (i : Fin 16384) (seq : Fin 65536) (t : Task), s.up → s.chip.taskAt i seq = some t → t.timer = true →
    t.st = .waiting →
    exec (.timerExpiry i seq) s = .next (s.upd fun c => (c.updTask t.id fun t => { t with timer := false }).decTask t.id)) ∧
  -- A deadline, a fetch that ends and a periodic tick.
  (∀ (s : State) (f : Fin 128) (n : Fin 64) (count : Word) (h : Fin 2048), s.up →
    exec (.deadlineExpiry f n count) s = .next (s.upd fun c => c.deadline f n count) ∧
    exec (.serviceBufferFetchDone f n count) s = .next (s.upd fun c => c.payloadIn f n count) ∧
    exec (.periodicTick h) s = .next (s.upd fun c => c.tickDue h))

/-- Claims, completions and the settings of event sources act (R376, R378, R379, R380, R383, R384, R386, R388). What
the claims, COMPLETE and the writes of source, shared-source, vector and control settings do, and the inputs of shared
sources. -/
def Obligations.EventRowsComplete : Prop :=
  -- CLAIM answers the highest source of the function and activates it.
  (∀ (s : State) (f : Fin 128), s.alive → s.chip.tst.safe = false →
    exec (.evtClaimRead f) s = .next (s.upd fun c => (c.claim f none).2.emit (.readData (wordBytes (c.claim f none).1)))) ∧
  -- VCLAIM answers the highest of a vector that the function has, else 0.
  (∀ (s : State) (f : Fin 128) (v : Fin 64), s.alive → s.chip.tst.safe = false →
    exec (.evtVclaimRead f v) s = .next (s.upd fun c => if v < (c.fn f).vectors then (c.claim f (some v)).2.emit (.readData (wordBytes (c.claim f (some v)).1)) else c.emit (.readData (wordBytes 0#32)))) ∧
  -- COMPLETE, source settings and control.
  (∀ (s : State) (f : Fin 128) (i : Fin 32) (w : Word), s.up →
    exec (.evtCompleteWrite f w) s = .next (s.upd fun c => c.complete f (bits w 7 0)) ∧
    exec (.evtSourceConfigWrite f i w) s = .next (s.upd fun c => c.srcConfig f i w) ∧
    exec (.evtGdisWrite f w) s = .next (s.upd fun c => c.evtCtrl f w)) ∧
  -- Shared-source settings and routes, under the lock of their block.
  (∀ (s : State) (n : Fin 64) (w : Word) (r : Option Word), s.up →
    exec (.evtSharedCfgWrite n w r) s = .next (s.upd fun c => c.shConfig s.locks.evt n w r) ∧
    exec (.evtSharedRouteWrite n w) s = .next (s.upd fun c => c.shRoute s.locks.evt n w)) ∧
  -- The coalescing of a vector that the register file of the function has.
  (∀ (s : State) (f : Fin 128) (v : Fin 64) (w : Word), s.up → (f.val = 0 ∨ v.val < 16) →
    exec (.evtVcoalWrite f v w) s = .next (s.upd fun c => c.vcoal f v w)) ∧
  -- A coalescing timer runs out: the vector is judged.
  (∀ (s : State) (f : Fin 128) (v : Fin 64), s.alive → (s.chip.vec f v).timer = true →
    exec (.coalescingTimerExpiry f v) s = .next (s.upd fun c => c.vecJudge f v true)) ∧
  -- A GPIO input of a clocked fabric.
  (∀ (s : State) (n : Fin 16) (b : Bool), s.up → s.chip.fabricClocked = true →
    exec (.gpioInputChange n b) s = .next (s.upd fun c => c.wakeInput (16 + n) b)) ∧
  -- A latched input while the fabric is not clocked.
  (∀ (s : State) (n : Fin 64) (b : Bool), s.up → s.chip.fabricClocked = false → isLatched n = true →
    exec (.aonLatchSet n b) s = .next (s.upd fun c => c.wakeInput n b))

/-- Frames and records that the network brings act (R400, R408, R410, R413, R414, R415, R416). What an accepted frame
without a listed type, a DATA, ACK, OPEN and CLOSE frame, and each record of a DATA frame do on a port that receives.
-/
def Obligations.NetworkReceiveRowsComplete : Prop :=
  -- A frame that is accepted and is no listed frame of the protocol: dropped and counted where it names no
  -- association, counted as a bad record where it does.
  (∀ (s : State) (i : Fin 2) (f : EthFrame) (hdr : Word), s.up → s.chip.rxRuns i = true →
    (bits hdr 7 0 == 1 && decide (1 ≤ bits hdr 11 8) && decide (bits hdr 11 8 ≤ 6)) = false →
    exec (.ethernetFrameReceived i f hdr) s = .next (s.upd fun c => let r := c.rxFrame i f; if r.1 ≠ .accepted then r.2 else match r.2.slotOf i (hdr.extractLsb' 16 16) with | none => r.2.updEth i fun p => p.drop 2 | some k => r.2.updAssoc k fun a => { a with badRec := satAdd 0xFFFF a.badRec 1 })) ∧
  -- A DATA frame of an association: its acknowledgement is taken, and in sequence its records are applied in
  -- order and acknowledged.
  (∀ (s : State) (i : Fin 2) (f : RxFrame) (k g : Nat) (c' : Chip), s.up → s.chip.rxRuns i = true →
    s.chip.rxAssoc i f = (some k, c') → ((c'.takeAck k f.ack).assoc k).rxSeq = f.seq →
    ((c'.takeAck k f.ack).assoc k).fn = some g →
    exec (.crqData i f) s = .next (s.upd fun _ =>
    let c := (((c'.takeAck k f.ack).takeWin k f).portOf k i)
    let c := if (c.assoc k).st = .stalled then c.assocSt k .opened else c
    let c := c.updAssoc k fun a => { a with rxSeq := a.rxSeq + 1#32, rxUnacked := a.rxUnacked + 1 }
    let c := c.applyRecs k g f.seq f.recs
    c.ackIf k (f.ackreq || decide (16 ≤ (c.assoc k).rxUnacked) || ((c.assoc k).ackDly == 0 && (c.assoc k).rxUnacked != 0)))) ∧
  -- An ACK frame of an association.
  (∀ (s : State) (i : Fin 2) (f : RxFrame) (k : Nat) (c' : Chip), s.up → s.chip.rxRuns i = true →
    s.chip.rxAssoc i f = (some k, c') →
    exec (.crqAck i f) s = .next (s.upd fun _ => ((c'.takeAck k f.ack).takeWin k f).ackIf k f.ackreq) ∧
    exec (.crqClose i f) s = .next (s.upd fun _ => (c'.takeAck k f.ack).assocDormant k false)) ∧
  -- An OPEN frame that its association accepts opens it.
  (∀ (s : State) (i : Fin 2) (f : RxFrame) (k g : Nat), s.up → s.chip.rxRuns i = true →
    (s.chip.rxFrame i f.eth).1 = .accepted → (s.chip.rxFrame i f.eth).2.slotOf i f.assoc = some k →
    ((s.chip.rxFrame i f.eth).2.assoc k).tagOk f.eth = true → (((s.chip.rxFrame i f.eth).2.assoc k).macReq = true →
    f.eth.sec ≠ none) →
    (((s.chip.rxFrame i f.eth).2.assoc k).peer = 0 ∨ ((s.chip.rxFrame i f.eth).2.assoc k).peer = f.eth.sa.toNat) →
    ((s.chip.rxFrame i f.eth).2.assoc k).fn = some g →
    exec (.crqOpen i f) s = .next (s.upd fun c => ((c.rxFrame i f.eth).2.updEth i fun p => { p with rxcnt := satAdd 0xFFFFFFFF p.rxcnt 1 }).opening k g i f)) ∧
  -- Each record of the last DATA frame of an association that is OPEN or STALLED is applied to its function.
  (∀ (s : State) (a : Fin 32) (j : Fin 65536) (f : Nat), s.up → s.chip.netRuns = true → (s.chip.assoc a).live = true →
    (s.chip.assoc a).fn = some f →
    (∀ q body, exec (.doorbellRecord a j q body) s = .next (s.upd fun c => (c.applyRec a f j ((c.assoc a).rxSeq - 1#32) (recIn 0x01#8 q 0#32 body)).2)) ∧
    (∀ q arg, exec (.cqconsRecord a j q arg) s = .next (s.upd fun c => (c.applyRec a f j ((c.assoc a).rxSeq - 1#32) (recIn 0x02#8 q arg [])).2)) ∧
    (∀ arg body, exec (.writeRecord a j arg body) s = .next (s.upd fun c => (c.applyRec a f j ((c.assoc a).rxSeq - 1#32) (recIn 0x03#8 0#8 arg body)).2)) ∧
    (∀ arg len tag, exec (.readRecord a j arg len tag) s = .next (s.upd fun c => (c.applyRec a f j ((c.assoc a).rxSeq - 1#32) (recIn 0x04#8 0#8 arg (natBytes 2 len ++ natBytes 2 tag ++ natBytes 4 0))).2)) ∧
    (∀ arg tag, exec (.regrdRecord a j arg tag) s = .next (s.upd fun c => (c.applyRec a f j ((c.assoc a).rxSeq - 1#32) (recIn 0x05#8 0#8 arg (natBytes 2 tag ++ natBytes 6 0))).2)) ∧
    ∀ arg w, exec (.regwrRecord a j arg w) s = .next (s.upd fun c => (c.applyRec a f j ((c.assoc a).rxSeq - 1#32) (recIn 0x06#8 0#8 arg (wordBytes w ++ natBytes 4 0))).2))

/-- Sending, link timers and security associations of the network act (R401, R412, R417, R418, R422). What a send
opportunity, the link status and its timers, a retransmission timeout, an ACK delay, an association timeout and the
settings of security associations do. -/
def Obligations.NetworkTimersAndSettingsComplete : Prop :=
  -- An association may send.
  (∀ (s : State) (k : Fin 32), s.up → exec (.dataFrameSend k) s = .next (s.upd fun c => c.dataSend k)) ∧
  -- The link status of an enabled port changes; the timer runs while it differs from the link.
  (∀ (s : State) (i : Fin 2) (ok : Bool), s.up → s.chip.netRuns = true → (s.chip.eth i).en = true →
    exec (.pcsLinkStatusChange i ok) s = .next (s.upd fun c => c.updEth i fun p => { p with pcsOk := ok, timer := ok != p.link })) ∧
  -- The link goes down: counted, shown, reported, and its associations fail over or stall.
  (∀ (s : State) (i : Fin 2), s.up → (s.chip.eth i).timer = true → (s.chip.eth i).link = true →
    (s.chip.eth i).pcsOk = false →
    exec (.linkDownTimer i) s = .next (s.upd fun c => let c := c.updEth i fun p => { p with link := false, timer := false, downs := satAdd 0xFFFF p.downs 1 }
    let c := (c.shInput (35 + i) false).report (netSrc i) Kind.linkDown 0
    c.each (c.assocsWhere fun a => a.live && a.curPort == i.val) fun c k => c.failOrStall k)) ∧
  -- The link comes up: what was stalled on the other goes over.
  (∀ (s : State) (i : Fin 2), s.up → (s.chip.eth i).timer = true → (s.chip.eth i).link = false →
    (s.chip.eth i).pcsOk = true →
    exec (.linkUpTimer i) s = .next (s.upd fun c => let c := (c.updEth i fun p => { p with link := true, timer := false }).shInput (35 + i) true
    c.each (c.assocsWhere fun a => a.st == .stalled && a.curPort != i.val) fun c k => if !(c.eth (c.assoc k).curPort).link && c.canFail k then c.failover k else c)) ∧
  -- The unacknowledged frames are sent again, at a doubled interval; past the limit the association fails over,
  -- or stalls.
  (∀ (s : State) (k : Fin 32), s.up → (s.chip.assoc k).retx = true → (s.chip.assoc k).live = true →
    (s.chip.assoc k).unacked ≠ [] →
    exec (.retransmissionTimeout k) s = .next (s.upd fun c => let d := c.updAssoc k fun a => { a with expiries := satAdd 0xFFFF a.expiries 1, tries := a.tries + 1, backoff := min 8 (2 * a.backoff) }
    if (c.assoc k).retryLimit ≤ (c.assoc k).tries + 1 then (if d.canFail k then d.failover k else ((d.resend k).assocStall k).updAssoc k fun a => { a with backoff := 8 }) else d.resend k)) ∧
  -- An acknowledgement that is due is sent.
  (∀ (s : State) (k : Fin 32), s.up → (s.chip.assoc k).live = true → (s.chip.assoc k).rxUnacked ≠ 0 →
    exec (.ackDelayExpiry k) s = .next (s.upd fun c => c.ackNow k)) ∧
  -- A stalled association becomes DORMANT.
  (∀ (s : State) (k : Fin 32), s.up → (s.chip.assoc k).st = .stalled →
    exec (.assoctmoExpiry k) s = .next (s.upd fun c => c.assocDormant k false)) ∧
  -- The security associations are written.
  (∀ (s : State) (i : Fin 2) (b : Bool) (w : Word), s.up → s.chip.regsLive = true →
    exec (.saInstall i) s = .next (s.upd fun c => c.saInstall i) ∧
    exec (.saEnable i b) s = .next (s.upd fun c => c.saEnable i b) ∧
    exec (.sadataWrite i w) s = .next (s.upd fun c => c.saData i w))

/-- The steps of power entry act (R447, R448, R451, R452, R453, R454, R455, R456, R460). What the drain timeout, the
PCIe link states, the expiry of the wait for L1.2, the signatures and the closing window do. -/
def Obligations.PowerEntryRowsComplete : Prop :=
  -- The drain of an entry has run out: what is left is cancelled.
  (∀ (s : State), s.up → s.chip.sleepJudge.pwr.st = .entering → s.chip.sleepJudge.pwr.step = 2 →
    exec (.entryDrainTimeout none) s = .next (s.upd fun c => ((c.sleepJudge.cancelOn fun _ => true).updPwr fun x => { x with step := 3 }).entryJudge)) ∧
  -- The same of a cluster.
  (∀ (s : State) (k : Fin 16), s.up → (s.chip.sleepJudge.clu k).slStep = 1 →
    exec (.entryDrainTimeout (some k)) s = .next (s.upd fun c => ((c.sleepJudge.cancelOn (inClu k)).updClu k fun x => { x with slStep := 2 }).cluJudge k)) ∧
  -- The PCIe link changes its state.
  (∀ (s : State) (l : LinkSt), s.up → s.chip.tst.linkHeld = false →
    (s.chip.tst.postdone = true ∨ 4 < s.chip.tst.stage) →
    exec (.pcieLinkStateChange l) s = .next (s.upd fun c => let c := c.dmaChange fun c => { c with pci := { c.pci with link := l, holdLink := c.pci.holdLink && l != LinkSt.l0 } }
    let c := if l = .l0 then c.wakeRelease else c
    (if c.pwr.st = .nap ∧
    c.pwr.hostOn ∧
    l = .l12 then c.updPwr fun x => { x with hostOn := false, hostGated := true } else c).entryJudge)) ∧
  -- The link has not reached L1.2 in time: NAP goes on with the host island clocked; DEEP is given up.
  (∀ (s : State), s.up → s.chip.entryJudge.pwr.st = .entering → s.chip.entryJudge.pwr.step = 7 →
    (s.chip.entryJudge.pwr.target = .nap →
    exec .napwaitExpiry s = .next (s.upd fun c => c.entryJudge.updPwr fun x => { x with hostOn := true, step := 8 })) ∧
    (s.chip.entryJudge.pwr.target = .deep →
    exec .deepwaitExpiry s = .next (s.upd fun c => c.entryJudge.abortEntry 3))) ∧
  -- The signatures are there: the closing window opens.
  (∀ (s : State), s.up → s.chip.entryJudge.pwr.st = .entering → s.chip.entryJudge.pwr.step = 8 →
    (s.chip.entryJudge.pwr.gates = true → s.chip.entryJudge.cal.busy = none) →
    exec (.signaturesDone none) s = .next (s.upd fun c => c.entryJudge.updPwr fun x => { x with step := 9, window := true })) ∧
  -- The cluster sleeps; a wake that came meanwhile wakes it again.
  (∀ (s : State) (k : Fin 16), s.up → (s.chip.clu k).slStep = 4 →
    exec (.signaturesDone (some k)) s = .next (s.upd fun c => let d := (c.updClu k fun x => { x with asleep := true, slStep := 0, locked := false, slWake := false }).updPwr fun x => { x with clusleep := x.clusleep ||| 2 ^ k.val }
    if (c.clu k).slWake then d.cluWake k else d)) ∧
  -- A signature that does not come is reported, and its contents are taken as lost.
  (∀ (s : State), s.up → s.chip.pwr.st = .entering → s.chip.pwr.step = 8 → s.chip.pwr.gates = true → (∀ n : Fin 16,
    n.val ≠ 0 →
    exec (.signatureTimeout (.group n)) s = .next (s.upd fun c => (c.updPwr fun x => { x with sigLostG := x.sigLostG ++ [n.val] }).aonReport 0x130 Kind.readyTimeout (0x0E0 + n))) ∧
    ∀ cls n,
    exec (.signatureTimeout (.island cls n)) s = .next (s.upd fun c => (c.updPwr fun x => { x with sigLostI := x.sigLostI ++ [islNum cls n] }).aonReport 0x130 Kind.readyTimeout cls)) ∧
  -- The closing window ends with no level wake: the device is in the state it was entering.
  (∀ s : State, s.up → s.chip.pwr.st = .entering → s.chip.pwr.window = true → s.chip.pwr.target ≠ .doze →
    s.chip.levelWakes s.chip.pwr.target = [] →
    exec .closingWindowEnd s = .next (s.upd fun c =>
    let d := c.updPwr fun x => { x with st := c.pwr.target, step := 0, target := .active, lastRes := 1, entries := satAdd 0xFFFF x.entries 1, window := false, ungated := [], reg3Off := c.pwr.target == .deep && x.armed.isEmpty, levels := x.levels.filter fun b => b == 3 }
    (d.each [0, 1] fun c i => c.updEth i fun p => { p with link := false, pcsOk := false, timer := false }).lnyJudge))

/-- The wake events act (R447, R448, R451, R452, R453, R454, R455, R456, R460). What an armed port event, the wake
timer, PWR_EXIT, CLKREQ# and PERST# do. -/
def Obligations.WakeEventsComplete : Prop :=
  -- An armed port's event is a wake.
  (∀ (s : State) (p : Fin 128) (k : Bool), s.up → s.chip.pwr.armed.contains p.val = true →
    (s.chip.clu (p / 8)).asleep = false → (s.chip.clu (p / 8)).slStep = 0 →
    ((s.chip.wakeOn 1 false (some p.val) k).clu (p / 8)) = s.chip.clu (p / 8) →
    exec (.portWakeEvent p k) s = .next (s.upd fun c => c.wakeOn 1 false (some p.val) k)) ∧
  -- The wake timer reaches 0.
  (∀ (s : State), s.up → s.chip.pwr.wakeTmr ≠ 0#32 →
    exec .wakeTimerZero s = .next (s.upd fun c => (c.updPwr fun x => { (x.keep 3).woke [3] with wakeTmr := 0#32 }).wakeOn 3 false)) ∧
  -- The wake timer, PWR_EXIT and CLKREQ#.
  (∀ (s : State) (w : Word), s.up →
    exec (.pwrWaketmrWrite w) s = .next (s.upd fun c => c.updPwr fun x => { x with wakeTmr := w, levels := x.levels.filter (· ≠ 3) }) ∧
    exec .pwrExitWrite s = .next (s.upd fun c => c.dozeWake 7) ∧
    exec .clkreqAssert s = .next (s.upd fun c => c.wakeOn 5 false)) ∧
  -- PERST# falls: a conventional reset, or in a sleep only a hold.
  (∀ (s : State), s.up → s.chip.pwr.st ≠ .wakeFail → s.chip.tst.linkHeld = false →
    exec .perstAssert s = .next (s.upd fun c => if c.perstHolds then (({ c with pci := { c.pci with perst := true, holdPerst := true } }).updPwr fun x => { x with levels := x.levels.filter (· ≠ 4) }).entryJudge else let c := c.conventional; { c with pci := { c.pci with perst := true, link := .down } })) ∧
  -- PERST# rises.
  (∀ (s : State), s.up → s.chip.pci.perst = true →
    exec .perstDeassert s = .next (s.upd fun c => ((c.dmaChange fun c => { c with pci := { c.pci with perst := false, holdPerst := false } }).wakeRelease).wakeOn 4 false))

/-- The regulators, the oscillator and the PLLs of an exit act (R457, R459, R460, R462, R464, R465, R466, R468). What
each ready signal and timeout of the exit from a sleep does up to the PLLs, in the step that waits for it. -/
def Obligations.PowerExitClocksComplete : Prop :=
  -- A regulator is good: the next is started.
  (∀ (s : State) (r : Fin 4), s.up → (s.chip.pwr.st = .exiting) → s.chip.pwr.step = 1 → s.chip.pwr.regWait = false →
    s.chip.pwr.reg = r.val → (r.val < 2 ∨ r.val = 2 ∧ s.chip.pwr.reg3Off = true) →
    exec (.regulatorPowerGood r) s = .next (s.upd fun c => (c.updPwr fun x => { x with pgLow := x.pgLow.filter (· ≠ r.val) }).updPwr fun x => { x with reg := r.val + 1 })) ∧
  -- The last one is good: the oscillator is next, and a WAKE# that is owed is driven.
  (∀ (s : State) (r : Fin 4), s.up → (s.chip.pwr.st = .exiting) → s.chip.pwr.step = 1 → s.chip.pwr.regWait = false →
    s.chip.pwr.reg = r.val → 2 ≤ r.val → (r.val = 2 → s.chip.pwr.reg3Off = false) →
    exec (.regulatorPowerGood r) s = .next (s.upd fun c => let c := (c.updPwr fun x => { x with pgLow := x.pgLow.filter (· ≠ r.val) }).updPwr fun x => { x with step := 2 }; if c.pwr.wakeDue then (c.updPwr fun x => { x with wakeDue := false, wakeN := true }).emit (.wakeN true) else c)) ∧
  -- A regulator that does not come has failed.
  (∀ (s : State) (r : Fin 4), s.up → (s.chip.pwr.st = .exiting) → s.chip.pwr.step = 1 → s.chip.pwr.regWait = false →
    s.chip.pwr.reg = r.val → exec (.regulatorTimeout r) s = .next (s.upd fun c => c.regFail r)) ∧
  -- It is started again.
  (∀ (s : State), s.up → s.chip.pwr.st = .exiting → s.chip.pwr.step = 1 → s.chip.pwr.regWait = true →
    exec .regulatorRetry s = .next (s.upd fun c => c.updPwr Pwr.regStart)) ∧
  -- The oscillator is stable, or is not in time.
  (∀ (s : State), s.up → s.chip.pwr.st = .exiting → s.chip.pwr.step = 2 →
    exec .oscOk s = .next (s.upd fun c => c.pllStart) ∧ exec .oscTimeout s = .next (s.upd fun c => c.mgmtOnly 2)) ∧
  -- The core PLL locks.
  (∀ (s : State), s.up → s.chip.pwr.st = .exiting → s.chip.pwr.step = 3 →
    exec (.pllLock none) s = .next (s.upd fun c => (c.updPwr fun x => { x with corePll := true }).exitGo)) ∧
  -- A cluster PLL locks.
  (∀ (s : State) (k : Fin 16), s.up → s.chip.pwr.st = .exiting → s.chip.pwr.step = 3 →
    s.chip.pwr.pllWait.contains k.val = true →
    exec (.pllLock (some k)) s = .next (s.upd fun c => (c.updPwr fun x => { x with pllWait := x.pllWait.filter (· ≠ k.val) }).exitGo)) ∧
  -- The core PLL is tried once more; then the device is management-only.
  (∀ (s : State), s.up → s.chip.pwr.st = .exiting → s.chip.pwr.step = 3 → s.chip.pwr.corePll = false →
    exec (.pllLockTimeout none) s = .next (s.upd fun c => if c.pwr.pllTries = 0 then c.updPwr fun x => { x with pllTries := 1, retries := satAdd 15 x.retries 1 } else c.mgmtOnly 3)) ∧
  -- A cluster PLL is tried once more; then its cluster stays off.
  (∀ (s : State) (k : Fin 16), s.up → s.chip.pwr.st = .exiting → s.chip.pwr.step = 3 →
    s.chip.pwr.pllWait.contains k.val = true →
    exec (.pllLockTimeout (some k)) s = .next (s.upd fun c => if c.pwr.pllAgain.contains k.val then (c.cluStays k).exitGo else c.updPwr fun x => { x with pllAgain := x.pllAgain ++ [k.val], retries := satAdd 15 x.retries 1 }))

/-- The DRAM and the islands of an exit act (R457, R459, R460, R462, R464, R465, R466, R468). What each ready signal
and timeout of the DRAM and the islands does, the gating of an idle island in DOZE, the end of WAKE# and a fall of
power good. -/
def Obligations.PowerExitIslandsComplete : Prop :=
  -- The DRAM is ready: the islands are next.
  (∀ (s : State) (lost : Bool), s.up → s.chip.dramCheck.pwr.st = .exiting → s.chip.dramCheck.pwr.step = 4 →
    exec (.dramRdy lost) s = .next (s.upd fun c => (c.dramCheck.updPwr fun x => { x with step := 5, sigLostI := if lost && !x.sigLostI.contains (islNum 6 0) then x.sigLostI ++ [islNum 6 0] else x.sigLostI, islWait := c.dramCheck.exitIslands, islAgain := [] }).exitGo)) ∧
  -- The DRAM is tried again, then with its contents given up, then the device goes to its safe state.
  (∀ (s : State), s.up → s.chip.pwr.st = .exiting → s.chip.pwr.step = 4 →
    exec .dramRdyTimeout s = .next (s.upd fun c => let n := c.pwr.dramTries + 1
    let d := c.updPwr fun x => { x with dramTries := n }
    if n = 1 then d.updPwr fun x => { x with retries := satAdd 15 x.retries 1 } else if n = 2 then ((d.report 0x0E0 Kind.readyTimeout 0).updPwr fun x => { x with dramLost := true }).updPwr fun x => { x with failStep := 4 } else d.enterSafe 6)) ∧
  -- An island is ready, with what it has lost.
  (∀ (s : State) (cls : Fin 9) (k : Fin 144) (lost : List (Fin 9)) (groups : List (Fin 16)), s.up →
    s.chip.islAwaited (islNum cls k) = true → cls.val ≠ 8 → s.chip.pwr.st = .exiting →
    exec (.islRdy cls k lost groups) s = .next (s.upd fun c => (c.updPwr fun x => { x with sigLostI := (x.sigLostI ++ ((lost.map Fin.val).filter fun x => x == cls.val || (cls.val == 5 && x == 4)).map fun j => islNum j k).eraseDups, sigLostG := (x.sigLostG ++ (groups.map Fin.val).filter fun g => g != 0).eraseDups }).islOver (islNum cls k))) ∧
  -- An island is tried once more.
  (∀ (s : State) (cls : Fin 9) (k : Fin 144), s.up → s.chip.islAwaited (islNum cls k) = true →
    s.chip.pwr.islAgain.contains (islNum cls k) = false →
    exec (.islRdyTimeout cls k) s = .next (s.upd fun c => c.updPwr fun x => { x with islAgain := x.islAgain ++ [islNum cls k], retries := if c.pwr.st = .exiting then satAdd 15 x.retries 1 else x.retries })) ∧
  -- At the second timeout an engine, a cluster or the network is given up; for another island the device goes
  -- to its safe state.
  (∀ (s : State) (cls : Fin 9) (k : Fin 144), s.up → s.chip.islAwaited (islNum cls k) = true →
    s.chip.pwr.islAgain.contains (islNum cls k) = true → s.chip.pwr.st = .exiting →
    exec (.islRdyTimeout cls k) s = .next (s.upd fun c => let c := (c.aonReport 0x120 Kind.readyTimeout cls).updPwr fun x => { x with failStep := 5 }
    match cls.val with
    | 0 => (c.engineLost k).islOver (islNum cls k)
    | 1 => (c.cluStays k).exitGo
    | 8 => ({ c with net := { c.net with dead := true } }).islOver (islNum cls k)
    | 7 => c.enterSafe 5 0x120 Kind.readyTimeout true
    | _ => c.enterSafe 5 0x120 Kind.readyTimeout)) ∧
  -- An idle island is gated again in DOZE.
  (∀ (s : State) (cls : Fin 9), s.up → s.chip.pwr.st = .doze → cls.val ≠ 8 →
    exec (.dozeIslandIdle cls) s = .next (s.upd fun c => c.updPwr fun x => { x with ungated := x.ungated.filter (· ≠ cls.val) })) ∧
  -- WAKE# is released.
  (∀ (s : State), s.alive → exec .wakeOutTimeout s = .next (s.upd fun c => c.wakeRelease)) ∧
  -- Power good falls in a running device: it is reported.
  (∀ (s : State) (r : Fin 4), s.up → (s.chip.pwr.st = .active ∨ s.chip.pwr.st = .doze) →
    exec (.pgFall r) s = .next (s.upd fun c => (c.updPwr fun x => { x with pgLow := x.pgLow.filter (· ≠ r.val) ++ [r.val] }).aonReport 0x120 Kind.undervolt r))

/-- Fault messages, windows, reactions and clears act (R192, R193, R475, R479, R480, R485). What the acceptance of a
message, the expiries and the writes of the fault collector do, and a lockstep mismatch and its recovery. -/
def Obligations.FaultRowsComplete : Prop :=
  -- The collector takes its next message.
  (∀ (s : State), s.alive → s.chip.fabricClocked = true →
    exec .faultMessageAccept s = .next (s.upd fun c => c.acceptNext)) ∧
  -- The window of a source ends: its count is 0.
  (∀ (s : State) (i : Fin 1024), s.alive → (s.chip.fltSrc i).win = true →
    exec (.faultWindowExpiry i) s = .next (s.upd fun c => c.updFltSrc i fun x => { x with count := 0, win := false })) ∧
  -- The reaction to a severe source that was not cleared is made, and recorded as ESCALATED.
  (∀ (s : State) (i : Fin 1024), s.alive → (s.chip.fltSrc i).react = true → (s.chip.fltSrc i).severe = true →
    exec (.reactionTimerExpiry i) s = .next (s.upd fun c => let c := ((c.react i (c.fltSrc i).action).updFltSrc i fun x => { x with react := false, escalated := true })
    let c := c.record i { kind := Kind.escalated, addr := (s.chip.fltSrc i).action } false (c.fltSrc i).count
    (c.tellOwner i Kind.escalated).judgeFaults)) ∧
  -- A clear of a source, of all, and an action.
  (∀ (s : State) (w : Word), s.up → s.chip.fabricRuns = true →
    exec (.faultSourceClear w) s = .next (s.upd fun c => c.srcStat w) ∧
    exec .clearall s = .next (s.upd fun c => c.clearAll) ∧
    exec (.faultActionWrite w) s = .next (s.upd fun c => c.srcAct s.locks.flt w)) ∧
  -- A lockstep mismatch stops the scheduler, starts its recovery and is reported.
  (∀ (s : State) (a : BitVec 40), s.up → s.chip.mfnRuns = true →
    exec (.lockstepMismatch a) s = .next (s.upd fun c => ({ c with sch := { c.sch with recovering := true, running := false, step := 1, at_ := c.mfn } }).report 0x0A1 Kind.lockstep a.toNat)) ∧
  -- The reload is done; contexts that could not be read are lost.
  (∀ (s : State) (l : List (Fin 16 × Fin 2048)), s.up → s.chip.sch.recovering = true → s.chip.sch.step < 4 →
    exec (.lockstepReloadDone l) s = .next (s.upd fun c => (c.updSch fun s => { s with step := 4 }).each l fun c e => c.contextLost e.1 e.2)) ∧
  -- A recovery that does not come: the safe state.
  (∀ (s : State), s.up → s.chip.sch.recovering = true → s.chip.sch.step < 4 →
    exec .lockstepResetTimeout s = .next (s.upd fun c => (c.report 0x0A0 Kind.uncorrectable 0).enterSafe 4 0x0A0 Kind.uncorrectable))

/-- Power-on, RESET_N, supplies, self-test stages and boot act (R495, R496, R539, R550, R551, R593, R611, R612, R614).
What power-on leaves, what RESET_N does, what a fall of a supply loses, and what a self-test stage, the boot image, a
staged image, a calibration write and a thermal sample do. -/
def Obligations.ResetAndBootRowsComplete : Prop :=
  -- Power-on: everything is at reset with RESET_N low; the calibration store and the fuses keep theirs, VBUS
  -- and PERST# are levels, the straps are read, and nothing is waiting to be undone.
  (∀ (s : State) (strap : Fin 8) (testen : Bool),
    exec (.powerOn strap testen) s = .next { otp := s.otp, pending := s.pending, chip := { out := s.chip.out, free := s.chip.free, cal := { slots := s.chip.cal.slots }, tth := { strap := strap.val }, lny := { vbus := s.chip.lny.vbus }, pci := { perst := s.chip.pci.perst }, aon := { testen := testen, resetN := true } } }) ∧
  -- RESET_N low for at least 2 cycles of a powered device: it is taken as its length and the state decide;
  -- taken, the device is reset and stays so.
  (∀ (s : State) (n : Fin 65536), s.chip.aon.off = false → 2 ≤ n.val →
    exec (.resetNAssert n) s = .next (let t := s.upd fun c => c.fresh.2; if s.chip.resetTaken n then t.deviceReset.upd fun c => { c with aon := { c.aon with resetN := true } } else t)) ∧
  -- RESET_N is released.
  (∀ s : State, s.chip.aon.off = false →
    exec .resetNRelease s = .next (s.upd fun c => { c with aon := { c.aon with resetN := false } })) ∧
  -- A fall of VDD_DRAM is remembered; of VDD_RET or VDD_AON, all but the fuses and the calibration store is
  -- lost, and with VDD_AON the test access port too.
  (∀ s : State,
    exec (.supplyFall .dram) s = .next (s.upd fun c => { c with aon := { c.aon with dramFell := true } }) ∧
    ∀ r : Rail, r ≠ .dram →
    exec (.supplyFall r) s = .next { otp := s.otp, pending := s.pending, jtag := if r = .aon then {} else s.jtag, chip := { out := s.chip.out, free := s.chip.free, cal := { slots := s.chip.cal.slots }, lny := { vbus := s.chip.lny.vbus }, pci := { perst := s.chip.pci.perst }, aon := { off := true, resetN := s.chip.aon.resetN } } }) ∧
  -- A stage of the self-test ends.
  (∀ (s : State) (found : PostFound), s.up → s.chip.tst.postdone = false → s.chip.pwr.st = .active →
    exec (.postStageDone found) s = .next (s.upd fun c => c.postStage s.otp found)) ∧
  -- The boot image has been read.
  (∀ (s : State) (flash : List Byte) (quad : Bool), s.up → s.chip.boot.rereading = false →
    s.chip.tst.postdone = false → s.chip.boot.read = false → 7 ≤ s.chip.tst.stage →
    exec (.bootImageReadDone flash quad) s = .next (s.upd fun c => c.bootRead s.otp.keyHash flash quad)) ∧
  -- It has been read again.
  (∀ (s : State) (flash : List Byte) (quad : Bool), s.up → s.chip.boot.rereading = true →
    exec (.bootImageReadDone flash quad) s = .next (s.upd fun c => c.reread flash)) ∧
  -- An image has been checked: it is staged and its command succeeds, or the command ends with the error.
  (∀ (s : State) (who : MaintWho) (e : Nat) (x : Option Image), s.up → s.chip.boot.staging = some (who, e, x) →
    exec .imageStageDone s = .next (s.upd fun c => let d := { c with boot := { c.boot with staged := x, staging := none } }; if x.isSome then d.maintDone who 0x15 0x0B Ad.success else d.maintDone who 0x15 0x0B Ad.image (BitVec.ofNat 32 e))) ∧
  -- A write of the calibration store ends.
  (∀ (s : State) (who : MaintWho) (t : Nat) (body : List Byte) (ok : Bool), s.alive →
    s.chip.cal.busy = some (who, t, body) →
    exec (.calWriteDone ok) s = .next (s.upd fun c => c.calDone who t body ok)) ∧
  -- A temperature below 115 °C: it is shown; shared source 32 rises at the warning threshold and falls 5 °C
  -- below.
  (∀ (s : State) (t : BitVec 11), s.alive → t.toInt < 460 → s.chip.fabricClocked = true →
    exec (.thermalSample t) s = .next (s.upd fun c =>
    let d := { c with aon := { c.aon with temp := t } }
    if (d.sh 32).src.input = false ∧
    4 * (c.aon.warnTh : Int) ≤ t.toInt then (d.shInput 32 true).report 0x180 Kind.thermalWarn 0
    else if (d.sh 32).src.input = true ∧
    t.toInt ≤ 4 * (c.aon.warnTh : Int) - 20 then d.shInput 32 false else d))

/-- Burns of the fuses and the steps of a reshape act (R68, R504, R549, R595). What the three burn requests and their
ends do, and what the acceptance of a reshape, the cut of a moved port and its handover do. -/
def Obligations.BurnAndReshapeRowsComplete : Prop :=
  -- A burn of the repair fuses starts, or finds too few records free.
  (∀ (s : State) (w : Word), s.up → s.locks.tst = false → bits w 31 24 = 0xA5 → bit w 0 = true →
    s.chip.tst.fuseBusy = false → s.chip.burnable = true →
    exec (.fuseBurn w) s = .next (s.upd fun c => if 256 < s.otp.used + c.tst.unburnt then { c with tst := { c.tst with fuseErr := true } } else { c with tst := { c.tst with fuseBusy := true } })) ∧
  -- It ends: the soft repairs are records, and burnt.
  (∀ s : State, s.alive → s.chip.tst.fuseBusy = true →
    exec .fuseBurnDone s = .next { s with otp := { s.otp with used := s.otp.used + s.chip.tst.unburnt }, chip := { s.chip with tst := { s.chip.tst with fuseBusy := false, sramBurnt := s.chip.tst.sramSoft } } }) ∧
  -- A burn of the key hash starts, or is refused with ERR.
  (∀ (s : State) (w : Word), s.up → bit w 0 = true →
    exec (.keyHashProg w) s = .next (s.upd fun c => let d := { c with boot := { c.boot with keyErr := c.boot.keyErr && !bit w 1 } }; if bits w 31 24 ≠ 0xC3 ∨ c.boot.keyBusy = true ∨ s.otp.keyHash.isSome = true ∨ c.burnable = false then { d with boot := { d.boot with keyErr := true } } else { d with boot := { d.boot with keyBusy := true, keyBurn := (List.range 8).map (Tab.get (fun _ => 0#32) c.boot.keyStage) } })) ∧
  -- It ends: the hash is programmed; one that is programmed already stays.
  (∀ s : State, s.alive → s.chip.boot.keyBusy = true →
    exec .keyHashBurnDone s = .next { s with otp := { s.otp with keyHash := s.otp.keyHash.or (some s.chip.boot.keyBurn) }, chip := { s.chip with boot := { s.chip.boot with keyBusy := false, keyBurn := [] } } }) ∧
  -- A burn of the debug lock starts, or is refused with ERR.
  (∀ (s : State) (w : Word), s.up → bit w 0 = true →
    exec (.debugLockBurn w) s = .next (s.upd fun c => let d := { c with aon := { c.aon with dbgErr := c.aon.dbgErr && !bit w 3 } }; if bits w 31 24 ≠ 0x96 ∨ c.aon.dbgBusy = true ∨ s.otp.dbgLock = true ∨ c.burnable = false then { d with aon := { d.aon with dbgErr := true } } else { d with aon := { d.aon with dbgBusy := true } })) ∧
  -- It ends: debug is locked, and the test access port is at its reset with IDCODE.
  (∀ s : State, s.alive → s.chip.aon.dbgBusy = true →
    exec .debugLockBurnDone s = .next { s with otp := { s.otp with dbgLock := true }, jtag := {}, chip := { s.chip with aon := { s.chip.aon with dbgBusy := false } } }) ∧
  -- A running reshape that nothing blocks is accepted.
  (∀ (s : State) (i : Fin 65536) (o : Op), s.alive → s.chip.op i = some o → s.chip.pwr.st ≠ .entering →
    o.kind = .reshape → o.st = .running → s.chip.reshapeBlocked o = false → s.chip.inMove o = false →
    exec (.reshapeAcceptance i) s = .next (s.upd fun c => c.reshapeAccept i)) ∧
  -- The cut of a moved port, once its microframe has come.
  (∀ (s : State) (p : Fin 128) (o : Op) (k : Mfn), s.alive → s.chip.mover p = some o → o.cut = some k →
    mfnAfter s.chip.mfn k < 8192 → exec (.portMoveCut p) s = .next (s.upd fun c => c.moveCut p)) ∧
  -- The handover of a cut port whose queues are empty.
  (∀ (s : State) (p : Fin 128) (o : Op), s.alive → s.chip.mover p = some o → (s.chip.own p).cut = true →
    s.chip.portWqs p = [] → exec (.portMoveHandover p) s = .next (s.upd fun c => c.handover p))

/-- The commands of the service port are carried out and answered (R525, R526, R527, R529). READ, WRITE, HISTORY,
CLEAR, POWER, RETRY, RESET, IDENTIFY, CAL_EXPORT, CAL_WRITE, IMAGE_STAGE and IMAGE_APPLY of the service port, when the
command that waits is of that opcode and writes are enabled where it changes state. -/
def Obligations.LanyardCommandsComplete : Prop :=
  -- READ of aligned dwords in the register space whose registers run.
  (∀ (s : State) (m : LnyCmd), s.asksLny 0x01 m → m.arg0.toNat % 4 = 0 → (1 ≤ m.arg1.toNat ∧ m.arg1.toNat ≤ 4096) →
    m.arg0.toNat + 4 * m.arg1.toNat ≤ 0x2000000 →
    ((List.range m.arg1.toNat).any fun i => !s.chip.regRuns (m.arg0.toNat + 4 * i)) = false →
    exec .lnyRead s = .next (s.upd fun c => let r := c.wakeFabric.readDwords s.locks s.otp m.arg0.toNat m.arg1.toNat; r.2.lnyDone Ad.success 0#32 0#32 (wordsBytes r.1.reverse))) ∧
  -- WRITE to a block that the service port may write.
  (∀ (s : State) (m : LnyCmd), s.asksLny 0x02 m → m.arg0.toNat % 4 = 0 → m.arg0.toNat < 0x2000000 →
    [0x04, 0x05, 0x1B].contains (m.arg0.toNat / 0x10000) = true → s.chip.regRuns m.arg0.toNat = true →
    exec .lnyWrite s = .next ((s.upd fun c => c.wakeFabric.lnyDone Ad.success).bar0Write 0 m.arg0.toNat m.arg1)) ∧
  -- HISTORY answers all 32 slots.
  (∀ (s : State) (m : LnyCmd), s.asksLny 0x03 m →
    exec .lnyHistory s = .next (s.upd fun c => c.lnyDone Ad.success (mkWord [(b2n c.hist.valid, 31), (c.hist.seq, 0)]) 0#32 ((List.range 32).map c.histSlot).flatten)) ∧
  -- CLEAR of a source, or of all.
  (∀ (s : State) (m : LnyCmd), s.asksLny 0x04 m →
    exec .lnyClear s = .next (s.upd fun c => match c.wakeFabric.clearNamed m.arg0.toNat with | some d => d.lnyDone Ad.success | none => c.lnyDone Ad.invalidParam)) ∧
  -- POWER with a state and a cluster that are allowed.
  (∀ (s : State) (m : LnyCmd), s.asksLny 0x05 m → bits m.arg0 7 3 = 0 → bits m.arg0 31 12 = 0 →
    powerParamBad (bits m.arg0 2 0) (bits m.arg0 11 8) = false →
    s.chip.powerRefused (bits m.arg0 2 0) (bits m.arg0 11 8) = false →
    exec .lnyPower s = .next (s.upd fun c => c.lnyBegun.powerStart .lanyard (bits m.arg0 2 0) (bits m.arg0 11 8))) ∧
  -- RETRY of a failed exit.
  (∀ (s : State) (m : LnyCmd), s.asksLny 0x06 m →
    exec .lnyRetry s = .next (s.upd fun c => if c.powerRetry.1 = Ad.success then (c.lnyDone c.powerRetry.1).powerRetry.2 else c.lnyDone c.powerRetry.1)) ∧
  -- RESET with its key: the device is reset once the response has gone.
  (∀ (s : State) (m : LnyCmd), s.asksLny 0x07 m → m.arg0 = 0x5A5A#32 →
    exec .lnyReset s = .next (let t := s.upd fun c => (c.lnyDone Ad.success).updLny fun x => { x with resetDue := true }; if s.chip.lny.vbus then t else t.deviceReset)) ∧
  -- IDENTIFY answers the record of PF0.
  (∀ (s : State) (m : LnyCmd), s.asksLny 0x08 m →
    exec .lnyIdentify s = .next (s.upd fun c => c.lnyDone Ad.success 0#32 0#32 (c.identity 0))) ∧
  -- CAL_EXPORT answers the whole store.
  (∀ (s : State) (m : LnyCmd), s.asksLny 0x09 m →
    exec .lnyCalExport s = .next (s.upd fun c => c.lnyDone Ad.success 0#32 0#32 ((List.range 4096).map c.calByte))) ∧
  -- CAL_WRITE of an allowed body starts.
  (∀ (s : State) (m : LnyCmd), s.asksLny 0x0A m → calBodyOk m.arg0.toNat m.data = true →
    s.chip.calWorn m.arg0.toNat = false → s.chip.calRefused s.locks = false →
    exec .lnyCalWrite s = .next (s.upd fun c => c.lnyBegun.calStart .lanyard m.arg0.toNat m.data)) ∧
  -- IMAGE_STAGE starts to check the image.
  (∀ (s : State) (m : LnyCmd), s.asksLny 0x0B m → s.chip.imageRuns = true → s.chip.stageRefused = false →
    exec .lnyImageStage s = .next (s.upd fun c => c.lnyBegun.stageStart .lanyard s.otp.keyHash m.data)) ∧
  -- IMAGE_APPLY of staged sections.
  (∀ (s : State) (m : LnyCmd), s.asksLny 0x0C m → s.chip.imageRuns = true → s.chip.applyBad m.arg0.toNat = false →
    s.chip.applyRefused = false →
    exec .lnyImageApply s = .next (s.upd fun c => (c.imageApply m.arg0.toNat).lnyDone Ad.success))

/-- The bus of the service port acts (R520, R522, R523, R524, R529, R558). VBUS, reset, suspend and resume, control
transfers, OUT and IN packets and PING of the service port. -/
def Obligations.LanyardBusRowsComplete : Prop :=
  -- VBUS changes in a powered device: it is shown, the pull-up is judged, and a reset whose response has not
  -- gone takes effect when VBUS falls.
  (∀ (s : State) (b : Bool), s.alive → s.chip.aon.off = false →
    exec (.lnyVbusChange b) s = .next (let t := s.upd fun c => ((c.wakeInput 38 b).updLny fun x => { x with vbus := b }).lnyJudge; if s.chip.lny.resetDue && !b then t.deviceReset else t)) ∧
  -- A bus reset: the default state at the speed that was negotiated.
  (∀ (s : State) (hs : Bool), s.alive → s.chip.lnyConnected = true → s.chip.aon.testen = false →
    exec (.lnyBusReset hs) s = .next (s.upd fun c => c.updLny fun x => { x.unplug with speed := if hs && !x.fsOnly && c.pwr.st != .mgmtOnly then 3 else 2, testMode := x.testMode })) ∧
  -- Suspend and resume.
  (∀ (s : State), s.alive → s.chip.lnyBus = true →
    exec .lnyBusSuspend s = .next (s.upd fun c => c.updLny fun x => { x with suspended := true }) ∧
    exec .lnyBusResume s = .next (s.upd fun c => c.updLny fun x => { x with suspended := false })) ∧
  -- A control read: the data, at most the length asked, or STALL.
  (∀ (s : State) (rt rq : Byte) (v i len : Fin 65536), s.alive → s.chip.lnyBus = true → s.chip.lny.suspended = false →
    0x80 ≤ rt.toNat →
    exec (.lnySetup rt rq v i len) s = .next (s.upd fun c => match c.lny.get rt.toNat rq.toNat v i with | some bs => c.emit (.lny 0 true (bs.take len)) | none => c.emit (.lnyHs 0 "STALL"))) ∧
  -- A control write without data.
  (∀ (s : State) (rt rq : Byte) (v i : Fin 65536), s.alive → s.chip.lnyBus = true → s.chip.lny.suspended = false →
    rt.toNat < 0x80 →
    exec (.lnySetup rt rq v i 0) s = .next (s.upd fun c => match c.lny.put (Config.freeNat c.fresh.1) rt.toNat rq.toNat v i with | some y => ({ c.fresh.2 with lny := y }).emit (.lny 0 true []) | none => c.emit (.lnyHs 0 "STALL"))) ∧
  -- A good OUT packet: STALL where halted, ACK and nothing where it repeats, NAK where both buffers are full,
  -- else it is taken.
  (∀ (s : State) (ep : Fin 16) (d : Bool) (bs : List Byte), s.alive → s.chip.lnyBulk ep = true →
    bs.length ≤ s.chip.lny.mps →
    exec (.lnyOutData ep d bs true) s = .next (s.upd fun c => if c.lny.halted.contains ep.val then c.emit (.lnyHs ep "STALL") else if d != c.lny.tog.contains ep.val then c.emit (.lnyHs ep "ACK") else if 2 ≤ c.lny.outHeld ep then c.emit (.lnyHs ep "NAK") else ((c.emit (.lnyHs ep (if c.lny.speed = 3 ∧
    c.lny.outHeld ep = 1 then "NYET" else "ACK"))).updLny fun x => ((x.outTake ep bs).flip ep).loop).lnyGo)) ∧
  -- One with a bad CRC is counted only.
  (∀ (s : State) (ep : Fin 16) (d : Bool) (bs : List Byte), s.alive → s.chip.lnyBulk ep = true →
    bs.length ≤ s.chip.lny.mps →
    exec (.lnyOutData ep d bs false) s = .next (s.upd fun c => c.updLny fun x => { x with crcErr := satAdd 0xFFFF x.crcErr 1 })) ∧
  -- PING.
  (∀ (s : State) (ep : Fin 16), s.alive → s.chip.lnyBulk ep = true → s.chip.lny.speed = 3 →
    exec (.lnyPing ep) s = .next (s.upd fun c => c.emit (.lnyHs ep (if c.lny.halted.contains ep.val then "STALL" else if c.lny.outHeld ep < 2 then "ACK" else "NAK")))) ∧
  -- An IN token: STALL, NAK, or the packet; acknowledged, it is gone, and a reset that waited for it is made.
  (∀ (s : State) (ep : Fin 16) (ack : Bool), s.chip.lnyBulk ep = true →
    (s.chip.lny.halted.contains (0x80 + ep.val) = true →
    exec (.lnyInToken ep ack) s = .next (s.upd fun c => c.emit (.lnyHs ep "STALL"))) ∧
    (s.chip.lny.halted.contains (0x80 + ep.val) = false → s.chip.lny.inData ep = none →
    exec (.lnyInToken ep ack) s = .next (s.upd fun c => c.emit (.lnyHs ep "NAK"))) ∧ ∀ bs,
    s.chip.lny.halted.contains (0x80 + ep.val) = false → s.chip.lny.inData ep = some bs →
    exec (.lnyInToken ep ack) s = .next (let t := s.upd fun c => c.emit (.lny ep (c.lny.tog.contains (0x80 + ep.val)) bs); if ack then let u := t.upd fun c => c.updLny fun x => (x.inTaken ep).flip (0x80 + ep.val); if u.chip.lny.resetDue && u.chip.lny.in1.isEmpty then u.deviceReset else u else t))

/-- The Tether answers its reads and carries out POWER and WAKE (R454, R531, R532, R533, R534, R535). The address,
STATUS, SELECT, REGDATA, RESULT, POWER and WAKE, each with its status in RESULT. -/
def Obligations.TetherReadsAndPowerComplete : Prop :=
  -- The address is acknowledged, and is a wake where it is armed.
  (∀ (s : State) (a : Fin 128), s.alive → a.val = s.chip.tth.addr → s.chip.pwr.window = false →
    exec (.tetherAddressMatch a) s = .next (s.upd fun c => let d := c.emit (.tthAck true); if d.pwr.tetherWake then d.wakeOn 0 true else d)) ∧
  -- STATUS answers its 8 bytes.
  (∀ (s : State), s.tthTakes noPec false →
    exec .tthStatus s = .next (s.upd fun c => let c := c.tthTook 0x01; (c.emit (.tth c.tthStatus)).tthEnd Ad.success)) ∧
  -- SELECT sets the offset.
  (∀ (s : State) (w : Word) (pec : Option Bool), s.tthTakes pec false →
    exec (.tthSelect w pec) s = .next (s.upd fun c => let c := c.tthTook 0x02; if w.toNat % 4 ≠ 0 ∨ 0x2000000 ≤ w.toNat then c.tthEnd Ad.invalidParam else (c.updTth fun x => { x with sel := w.toNat }).tthEnd Ad.success)) ∧
  -- REGDATA reads 8 dwords and advances the offset.
  (∀ (s : State), s.tthTakes noPec false →
    exec .tthRegdataRead s = .next (s.upd fun c => let c := c.tthTook 0x03; let r := c.tthDwords s.locks s.otp c.tth.sel 8; ((r.2.emit (.tth (wordsBytes r.1))).updTth Tth.advance).tthEnd (if (List.range 8).any fun i => !c.regRuns (c.tth.sel + 4 * i) then 0x0B else Ad.success))) ∧
  -- REGDATA writes a register of the blocks it may write.
  (∀ (s : State) (w : Word) (pec : Option Bool), s.tthTakes pec true →
    (s.chip.tth.sel / 0x10000 = 0x04 ∨ s.chip.tth.sel / 0x10000 = 0x1D) → s.chip.tth.sel ≠ 0x1D000C →
    exec (.tthRegdataWrite w pec) s = .next (let s := s.upd fun c => c.tthTook 0x03; (s.upd fun c => c.tthEnd Ad.success).bar0Write 0 s.chip.tth.sel w)) ∧
  -- RESULT answers the last command and its status.
  (∀ (s : State), s.alive → s.chip.pwr.window = false →
    exec .tthResult s = .next (s.upd fun c => c.emit (.tth [BitVec.ofNat 8 c.tth.lastCmd, BitVec.ofNat 8 c.tth.lastStat, 0, 0]))) ∧
  -- POWER starts an entry.
  (∀ (s : State) (st k : Byte) (pec : Option Bool), s.tthTakes pec true →
    exec (.tthPower st k pec) s = .next (s.upd fun c => let c := c.tthTook 0x10; if powerParamBad st.toNat k.toNat then c.tthEnd Ad.invalidParam else if c.powerRefused st.toNat k.toNat then c.tthEnd Ad.badState else c.powerStart .tether st.toNat k.toNat)) ∧
  -- WAKE wakes.
  (∀ (s : State) (pec : Option Bool), s.tthTakes pec false →
    exec (.tthWake pec) s = .next (s.upd fun c => let c := c.tthTook 0x11; (c.wakeOn 0 true).tthEnd Ad.success))

/-- The Tether carries out its other commands (R454, R531, R532, R533, R534, R535). RETRY, CLEAR, DOORBELL, MAILBOX
and RESET with their status in RESULT, the alert response, the two timeouts and the host's write of the mailbox. -/
def Obligations.TetherActionsComplete : Prop :=
  -- RETRY.
  (∀ (s : State) (pec : Option Bool), s.tthTakes pec true →
    exec (.tthRetry pec) s = .next (s.upd fun c => let c := c.tthTook 0x12; c.powerRetry.2.tthEnd c.powerRetry.1)) ∧
  -- CLEAR of a source, or of all.
  (∀ (s : State) (n : Fin 65536) (pec : Option Bool), s.tthTakes pec true →
    exec (.tthClear n pec) s = .next (s.upd fun c => let c := c.tthTook 0x13; if !c.lnyFabric then c.tthEnd 0x0B else match c.wakeFabric.clearNamed n with | some d => d.tthEnd Ad.success | none => c.tthEnd Ad.invalidParam)) ∧
  -- DOORBELL raises shared source 37, or waits for the fabric.
  (∀ (s : State) (w : Word) (pec : Option Bool), s.tthTakes pec false →
    exec (.tthDoorbell w pec) s = .next (s.upd fun c => let c := c.tthTook 0x14; let d := c.updTth fun x => { x with doorbell := w }; (if d.lnyFabric then d.wakeFabric.shPulse 37 else d.updTth fun x => { x with dbWaits := true }).tthEnd Ad.success)) ∧
  -- MAILBOX is read: it is empty, and ALERT# ends unless a fault holds it.
  (∀ (s : State), s.tthTakes noPec false →
    exec .tthMailboxRead s = .next (s.upd fun c => let c := c.tthTook 0x15; let d := (c.emit (.tth (wordBytes c.tth.mailbox))).updTth fun x => { x with mbfull := false }; (if d.faultN then d else d.alert false).tthEnd Ad.success)) ∧
  -- RESET with its key resets the device.
  (∀ (s : State) (b : Byte) (pec : Option Bool), s.tthTakes pec true →
    exec (.tthReset b pec) s = .next (let s := s.upd fun c => c.tthTook 0x16; if b = 0x5A#8 then s.deviceReset else s.upd fun c => c.tthEnd Ad.invalidParam)) ∧
  -- The alert response answers the address and ends the alert.
  (∀ (s : State), s.alive → s.chip.tth.alertLow = true →
    exec .tthAlertResponse s = .next (s.upd fun c => (c.emit (.tth [BitVec.ofNat 8 (c.tth.addr * 2)])).alert false)) ∧
  -- A register of REGDATA does not answer in time: the dwords before it, then ones; whether it was read is
  -- free.
  (∀ (s : State) (k : Fin 8), s.tthTakes noPec false → regAlwaysOn (s.chip.tth.sel + 4 * k.val) = false →
    s.chip.regRuns (s.chip.tth.sel + 4 * k.val) = true →
    exec (.tthFabricTimeout k) s = .next (s.upd fun c => let c := c.tthTook 0x03; let r := c.tthDwords s.locks s.otp c.tth.sel k; let d := if Config.freeNat r.2.fresh.1 % 2 = 1 then (r.2.fresh.2.tthDword s.locks s.otp (s.chip.tth.sel + 4 * k.val)).2 else r.2.fresh.2; ((d.emit (.tth (wordsBytes (r.1 ++ List.replicate (8 - k) 0xFFFFFFFF#32)))).updTth Tth.advance).tthEnd 0x0D)) ∧
  -- An SCL timeout is counted.
  (∀ (s : State), s.alive →
    exec .tthSclTimeout s = .next (s.upd fun c => c.updTth fun x => { x with timeouts := satAdd 0xFF x.timeouts 1 })) ∧
  -- The host writes the mailbox.
  (∀ (s : State) (w : Word), s.up → s.chip.hostReach = true →
    exec (.mailboxWrite w) s = .next (s.upd fun c => c.mailbox w))

/-- Edges of TCK step the test access port (R590, R594, R595). In a powered device with TRST_N high, a rising edge
captures or shifts and steps the controller by TMS, a falling edge drives TDO and updates the instruction; TRST_N low
resets the port; only a scan of the debug data register has no meaning here. -/
def Obligations.TestPortEdgesComplete : Prop :=
  -- TRST_N low resets the port.
  (∀ (s : State) (r tms tdi : Bool), s.chip.aon.off = false →
    exec (.tckEdge r tms tdi false) s = .next { s with jtag := {} }) ∧
  -- A rising edge.
  (∀ (s : State) (tms tdi : Bool), s.chip.aon.off = false → s.jtag.debugScan s.otp.dbgLock true = false →
    exec (.tckEdge true tms tdi true) s = .next { s with jtag := s.jtag.rise s.otp.dbgLock tms tdi }) ∧
  -- A falling edge; what the boundary register shifts out is free.
  (∀ (s : State) (tms tdi : Bool), s.chip.aon.off = false →
    exec (.tckEdge false tms tdi true) s = .next { s with jtag := s.jtag.fall s.otp.dbgLock (Config.freeNat s.chip.fresh.1 % 2 == 1), chip := s.chip.fresh.2 }) ∧
  -- A scan of the data register of an unlocked debug instruction is the only refusal.
  (∀ (s : State) (tms tdi : Bool), s.chip.aon.off = false → s.jtag.debugScan s.otp.dbgLock true = true →
    exec (.tckEdge true tms tdi true) s = .refused .debugAccess) ∧
  -- Five rising edges with TMS high reach Test-Logic-Reset from every state, and IDCODE is the instruction.
  (∀ (j : Jtag) (l : Bool) (a b c d e : Bool),
    ((((((j.rise l true a).rise l true b).rise l true c).rise l true d).rise l true e)).tap = .reset ∧
    ((((((j.rise l true a).rise l true b).rise l true c).rise l true d).rise l true e)).ir = 1)

/-- A step runs the command at the front of the queue (95_what_each_step_holds.md). When a command c is at the front
of the queue, step is exec of c on the state with the rest of the queue. On an empty queue the block idles, which is
the model's own choice (log 1). -/
def Obligations.StepRunsTheFrontCommand : Prop :=
  -- The command at the front is run with the rest of the queue.
  (∀ (s : State) (c : Instr) (rest : List Instr), s.pending = c :: rest →
    step s = exec c { s with pending := rest }) ∧
  -- On an empty queue the state stays as it is (the model's choice, log 1).
  (∀ s : State, s.pending = [] → step s = .next s)

/-- No command stops but the scan of the debug data register (R594). Every command on every state answers a next
state, with the queue as it was; but for a rising edge of TCK, with TRST_N high and power on VDD_AON, that captures or
shifts the data register of a debug instruction, whose meaning the spec keeps for Haldist: it is refused under the
name debugAccess (R594). -/
def Obligations.OnlyADebugScanStops : Prop :=
  -- A next state with the queue as it was, or the refusal of a debug scan.
  (∀ (c : Instr) (s : State), (∃ t, exec c s = .next t ∧
    t.pending = s.pending) ∨ ∃ tms tdi, c = .tckEdge true tms tdi true ∧ s.chip.aon.off = false ∧
    s.jtag.debugScan s.otp.dbgLock true = true ∧ exec c s = .refused .debugAccess)

/-- Commands other than the listed ones leave the locks, the fuses and the test access port (R17, R504, R549, R594,
R595). A command that is no register write, no write of the service port or the Tether, no end of a burn, no edge of
TCK and no device reset leaves every LOCK bit, every fuse, the test access port and the queue as they are. -/
def Obligations.OtherCommandsLeaveLocksFusesAndTap : Prop :=
  -- The frame of those commands.
  (∀ (c : Instr) (s t : State), beyondChip c = false → exec c s = .next t → t.locks = s.locks ∧ t.otp = s.otp ∧
    t.jtag = s.jtag ∧ t.pending = s.pending)

/-- A device in reset or without power takes no command but those that reach it (R469, R590, R593, R612). While
RESET_N is low or the power is lost, every command leaves the state as it is, but for RESET_N itself, the supplies,
VBUS of the service port and the test access port. -/
def Obligations.DeadDeviceIgnoresCommands : Prop :=
  -- Nothing else reaches it.
  (∀ (c : Instr) (s : State), s.chip.dead = true → reachesDead c = false → exec c s = .next s)

/-- A LOCK bit stays set until a device reset (R17). A step leaves every LOCK bit that is set, or it runs a device
reset, after which none is set. Function reset and FLR are no such step. A write of 1 to a LOCK bit sets it, and a
device reset by power-on or by a RESET_N low of 10 always-on cycles clears it. -/
def Obligations.LockBitsStaySet : Prop :=
  -- Every step keeps them, or is a device reset.
  (∀ s t : State, step s = .next t → s.locks.within t.locks ∨ (t.locks = {} ∧ ∃ c, s.pending.head? = some c ∧
    resetsDevice c = true)) ∧
  -- Neither FLR nor function reset is one.
  (∀ f : Fin 128, resetsDevice (.vfFlr f) = false ∧ resetsDevice .pf0Flr = false ∧
    resetsDevice .functionReset = false ∧ resetsDevice (.functionResetComplete f) = false) ∧
  -- A write of 1 sets the bit of its block.
  (∀ (l : Locks) (w : Word), bit w 31 = true → (l.write 0x040000 w).pwr = true ∧ (l.write 0x050000 w).flt = true ∧
    (l.write 0x060000 w).evt = true ∧ (l.write 0x080000 w).sch = true ∧ (l.write 0x160000 w).grn = true ∧
    (l.write 0x180000 w).dsp = true ∧ (l.write 0x188000 w).svc = true ∧ (l.write 0x1A0000 w).net = true ∧
    (l.write 0x1B0000 w).tst = true ∧ (l.write 0x1C0000 w).cal = true ∧ (l.write 0x1D0000 w).tth = true) ∧
  -- The write of PF0 reaches it.
  (∀ (s : State) (o : Nat) (w : Word), (s.bar0Write 0 o w).locks = s.locks.write o w) ∧
  -- A device reset clears them.
  (∀ (s t : State) (a : Fin 8) (b : Bool), exec (.powerOn a b) s = .next t → t.locks = {}) ∧
  -- And so does RESET_N.
  (∀ (s t : State) (n : Fin 65536), s.chip.aon.off = false → 10 ≤ n.val → exec (.resetNAssert n) s = .next t →
    t.locks = {})

/-- What is burned stays burned (R504, R549, R595). No step unburns a fuse: the count of burned repair records does
not fall, a key hash that is programmed stays the same hash, and the debug lock stays burned, across every reset. -/
def Obligations.BurnedFusesStayBurned : Prop :=
  -- Every step keeps them.
  (∀ s t : State, step s = .next t → s.otp.within t.otp)

/-- The test access port stays as R594 has it (R594, R595). Every step keeps this: in Test-Logic-Reset IDCODE is
selected and no pad is taken; the covered pads are taken only while EXTEST, CLAMP or HIGHZ is in force and the debug
lock is not burned; both instruction registers have 8 bits. -/
def Obligations.TapStaysLegal : Prop :=
  -- Every step keeps it.
  (∀ s t : State, s.jtag.legal s.otp.dbgLock → step s = .next t → t.jtag.legal t.otp.dbgLock)

/-- What the state right after reset satisfies (R17, R594). At reset no LOCK bit is set, the test access port is as
R594 has it, and no command waits. That the fuses are blank is the model's choice (log 9). -/
def Obligations.ResetStateHoldsTheInvariants : Prop :=
  -- At reset.
  (State.reset.locks = {} ∧ State.reset.jtag.legal State.reset.otp.dbgLock ∧ State.reset.pending = [] ∧
    State.reset.otp = {})

/-- The registers read their reset values right after reset (R43, R44, R555, R615, R60, R197, R231, R268, R301, R328,
R371, R398). The registers listed, of every block but those whose reset value is a strap or a fuse, read the value
that the register tables of the spec give for reset. GBL_BOOT.UNLOCKED rests on blank key hash fuses (log 9). -/
def Obligations.ResetValuesRead : Prop :=
  -- Offset in the BAR0 of PF0, and value: GBL_ID, GBL_MFN, GBL_BOOT, GBL_DBG, GBL_TEMP, FN_ID, FN_CTRL,
  -- FN_PORTS0, EVT_VCOAL0, SCH_CTRL, SCH_PORT5_CFG, PRT_CTRL of port 0, PRT_LPM, PRT_ENGINE of port 5,
  -- PRT_CONN, PRT_PWRCFG, CLU_MONCFG, GRN_CTRL, GRN_PART, GRN_CELLS, GRN_FREE, GRN_SPILLFREE, GRN_SCRUBCFG,
  -- DSP_CTRL, DSP_STATUS, DSP_LANEMAP, DSP_FLOWS, SVC_CTRL, SVC_BUFFREE, EVT_SH_CTRL, PWR_CFG, FLT_KINDSEV0,
  -- FLT_KINDSEV1, TST_STATUS, TST_PORTOK0, TTH_CTRL, LNY_CTRL.
  (∀ e ∈ [(0x000000,
    0x1F9D8002), (0x000004, 0x00000000), (0x000020, 0x83000000), (0x000090, 0x00000000), (0x000094, 0x00690000), (0x010000, 0x01288000), (0x010004, 0x00000000), (0x010020, 0xFFFFFFFF), (0x011200, 0x00000001), (0x080000, 0x0000BB80), (0x0810A0, 0x00050001), (0x100000, 0x00018000), (0x10000C, 0x00004002), (0x10281C, 0x00050000), (0x100100, 0x00000100), (0x100108, 0x00003301), (0x140010, 0x00000002), (0x160000, 0x00000003), (0x160004, 0x00CC0012), (0x160008, 0x00033000), (0x16000C, 0x00033000), (0x160018, 0x00000800), (0x16002C, 0x000A0004), (0x180000, 0x00000014), (0x180004, 0x00000020), (0x180008, 0xFFFFFFFF), (0x180014, 0x00000080), (0x188000, 0x00000008), (0x188008, 0x00003C00), (0x060000, 0x00000002), (0x040008, 0x0A640A02), (0x050008, 0x00028C00), (0x05000C, 0x00000000), (0x1B0004, 0x01000000), (0x1B0020, 0xFFFFFFFF), (0x1D0000, 0x00000003), (0x1D1000, 0x00000003)], (State.reset.chip.bar0Read State.reset.locks State.reset.otp 0 e.1).1 = BitVec.ofNat 32 e.2)

/-- GBL_ID reads the vendor, the ports and the stepping (R43). In every state GBL_ID, at offset 0x0000 of PF0's BAR0,
reads VENDOR 0x1F9D in bits 31:16, PORTS 0x80 in bits 15:8 and STEP 0x02 in bits 7:0; a write of it changes nothing.
-/
def Obligations.GblIdReads : Prop :=
  -- Reads.
  (∀ (c : Chip) (l : Locks) (t : Otp), bits (c.bar0Read l t 0 0x0000).1 31 16 = 0x1F9D ∧
    bits (c.bar0Read l t 0 0x0000).1 15 8 = 0x80 ∧ bits (c.bar0Read l t 0 0x0000).1 7 0 = 0x02) ∧
  -- Writes.
  (∀ (s : State) (w : Word), s.bar0Write 0 0x0000 w = s)

/-- Every arrival adds one to ARRIVALS, and a claim returns and clears it (R375). Each arrival at a private or shared
source adds 1 to its ARRIVALS, up to 255, whatever its state and ENABLE. A claim returns the counter in bits 23:16 and
clears it. ARRIVALS and PRIO stay within their 8 and 4 bits, which the hypotheses of the claims say. -/
def Obligations.ArrivalsAreCounted : Prop :=
  -- A pulse at a private source.
  (∀ (c : Chip) (f i : Nat), ((c.raise f i).src f i).arrivals = min 255 ((c.src f i).arrivals + 1)) ∧
  -- An entry at a private level source.
  (∀ (c : Chip) (f i : Nat), i < 17 → ((c.entryArrive f i).src f i).arrivals = min 255 ((c.src f i).arrivals + 1)) ∧
  -- A rise of the level of source 18.
  (∀ (c : Chip) (f : Nat), (c.src f 18).input = false →
    ((c.setLevel f 18 true).src f 18).arrivals = min 255 ((c.src f 18).arrivals + 1)) ∧
  -- A pulse at a shared source.
  (∀ (c : Chip) (i : Nat), ((c.shPulse i).sh i).src.arrivals = min 255 ((c.sh i).src.arrivals + 1)) ∧
  -- A change of a shared input that is an arrival under its sense.
  (∀ (c : Chip) (i : Nat) (b : Bool), (c.sh i).sense.arrives (c.sh i).src.input b = true →
    ((c.shInput i b).sh i).src.arrivals = min 255 ((c.sh i).src.arrivals + 1)) ∧
  -- A claim of a private source.
  (∀ (c : Chip) (f : Nat) (v : Option Nat) (a : Cand), Cand.best (c.candidates f v) = some a → a.shared = false →
    (c.src f a.num).arrivals ≤ 255 → (c.src f a.num).prio ≤ 15 →
    bits (c.claim f v).1 23 16 = (c.src f a.num).arrivals ∧ ((c.claim f v).2.src f a.num).arrivals = 0) ∧
  -- A claim of a shared source.
  (∀ (c : Chip) (f : Nat) (v : Option Nat) (a : Cand), Cand.best (c.candidates f v) = some a → a.shared = true →
    (c.sh a.num).src.arrivals ≤ 255 → (c.sh a.num).src.prio ≤ 15 →
    bits (c.claim f v).1 23 16 = (c.sh a.num).src.arrivals ∧ ((c.claim f v).2.sh a.num).src.arrivals = 0)

/-- A claim takes the claimable source that ranks highest (R386). A claim with nothing claimable returns 0 and changes
nothing. Otherwise it takes a claimable source that ranks above every other: higher PRIO first, then private before
shared, then the lower number; the source becomes ACTIVE, and for a shared one CLAIMER is the function. -/
def Obligations.ClaimTakesTheHighestRanked : Prop :=
  -- Nothing claimable.
  (∀ (c : Chip) (f : Nat) (v : Option Nat), c.candidates f v = [] → c.claim f v = (0#32, c)) ∧
  -- One ranks above all others.
  (∀ (c : Chip) (f : Nat) (v : Option Nat), c.candidates f v ≠ [] → ∃ a, Cand.best (c.candidates f v) = some a ∧
    a ∈ c.candidates f v ∧ ∀ b ∈ c.candidates f v, b ≠ a → a.above b = true) ∧
  -- It becomes ACTIVE.
  (∀ (c : Chip) (f : Nat) (v : Option Nat) (a : Cand), Cand.best (c.candidates f v) = some a →
    if a.shared then ((c.claim f v).2.sh a.num).src.st = .active ∧
    ((c.claim f v).2.sh a.num).claimer = f else ((c.claim f v).2.src f a.num).st = .active)

/-- A completion that ends nothing is counted and changes nothing else (R389). A completion write that names no source
which is ACTIVE or ACTIVE_PENDING and was claimed by the writer adds 1 to STRAY, up to 0xFFFF, and changes no source
and no vector. -/
def Obligations.StrayCompletionsCount : Prop :=
  -- STRAY.
  (∀ (c : Chip) (f id : Nat), ¬ (id < 32 ∧ (c.src f id).st.isActive = true) → ¬ (0x40 ≤ id ∧ id < 0x80 ∧
    (c.sh (id - 0x40)).src.st.isActive = true ∧ (c.sh (id - 0x40)).claimer = f) →
    ((c.complete f id).fn f).evt.stray = min 0xFFFF ((c.fn f).evt.stray + 1) ∧ (∀ g i,
    (c.complete f id).src g i = c.src g i) ∧ (∀ i, (c.complete f id).sh i = c.sh i) ∧ ∀ g v,
    (c.complete f id).vec g v = c.vec g v)

/-- A PCOUNT write publishes entries, does nothing, or stops the WQ (R94, R98). A PCOUNT write to a DOORBELL WQ that
is neither stopped nor being deleted: no advance has no effect; an advance within the room of the ring becomes the
observed count; any other stops the WQ with BADCOUNT. A write to a PUSH WQ that does not advance keeps its marks, and
one past the room stops it too (log: the marks of a write without an advance). -/
def Obligations.ProducerCountRule : Prop :=
  -- DOORBELL.
  (∀ (c : Chip) (f n : Nat) (p : Word) (ws : List Word) (q : Wq), c.wq f n = some q → q.stopped = false →
    q.deleting = none → q.mode = .doorbell →
    let adv := (p - q.pobs).toNat; let room := (q.ccount + BitVec.ofNat 32 (2 ^ q.log2) - q.pobs).toNat; (adv = 0 →
    c.slotWrite f n p ws = c) ∧ (0 < adv → adv ≤ room →
    c.slotWrite f n p ws = c.putWq f n { q with pobs := p, slotBuf := [] }) ∧ (room < adv →
    c.slotWrite f n p ws = c.wqStop f n 1)) ∧
  -- PUSH.
  (∀ (c : Chip) (f n : Nat) (p : Word) (ws : List Word) (q : Wq), c.wq f n = some q → q.stopped = false →
    q.deleting = none → q.mode = .push →
    let d := c.putWq f n (q.buffer 0x04 ws); let adv := (p - q.pobs).toNat; let room := (q.ccount + BitVec.ofNat 32 (2 ^ q.log2) - q.pobs).toNat; (adv = 0 →
    c.slotWrite f n p ws = d) ∧ (room < adv → c.slotWrite f n p ws = d.wqStop f n 1))

/-- PHASE flips from lap to lap, and the slot comes round (R85, R86, R87). On a ring of 2^n entries the entry 2^n
counts later stands in the same slot with the opposite PHASE, also where the count wraps; the first lap has PHASE 0.
-/
def Obligations.PhaseFlipsEachLap : Prop :=
  -- From lap to lap.
  (∀ (n : Nat) (c : Word), n ≤ 16 → slotOf n (c + BitVec.ofNat 32 (2 ^ n)) = slotOf n c ∧
    phaseOf n (c + BitVec.ofNat 32 (2 ^ n)) = 1 - phaseOf n c) ∧
  -- The first lap.
  (∀ (n : Nat) (c : Word), c.toNat < 2 ^ n → phaseOf n c = 0)

/-- The first check that fails ends an admin command with its status (R425, R429). An admin command that is carried
out ends with the status and DETAIL of the first check that fails; the mode bars and the right of the issuer come
before the parameters. The command changes nothing else. -/
def Obligations.AdminChecksInOrder : Prop :=
  -- Not PF0 for a command of PF0.
  (∀ (c : Chip) (f op : Nat) (d : List Word) (k : List Word → List (Option (Nat × Word))) (g : List Word → Chip →
    Chip), (c.fn f).aq.running = some d → (c.fn f).aq.begun = false → bits (dw d 0) 7 0 = op → pf0Only op = true →
    f ≠ 0 → c.admin f op k g = c.adminDone f Ad.access) ∧
  -- The first of the others.
  (∀ (c : Chip) (f op : Nat) (d : List Word) (k : List Word → List (Option (Nat × Word))) (g : List Word → Chip →
    Chip) (st : Nat) (w : Word), (c.fn f).aq.running = some d → (c.fn f).aq.begun = false → bits (dw d 0) 7 0 = op →
    (pf0Only op = true → f = 0) → c.enteringBars op = false → (k d).findSome? id = some (st, w) →
    c.admin f op k g = c.adminDone f st w)

/-- In the safe state BAR writes have no effect, and reads return ones (R501). In the safe state a BAR write leaves
the state, and a BAR read returns 0xFFFFFFFF but for GBL_STATE and the TST block. -/
def Obligations.SafeStateAnswersTheHost : Prop :=
  -- Writes.
  (∀ (s : State) (f : Fin 128) (bar4 : Bool) (off : Fin 0x2000000) (len : Fin 4097) (w hi : Word),
    s.chip.tst.safe = true → exec (.registerWrite f bar4 off len w hi) s = .next s) ∧
  -- Reads.
  (∀ (c : Chip) (l : Locks) (t : Otp) (f o : Nat) (bar4 : Bool), c.tst.safe = true → ¬ (f = 0 ∧ bar4 = false ∧
    (o = 0x0008 ∨ o / 0x10000 = 0x1B)) → (c.hostRead l t f bar4 o).1 = 0xFFFFFFFF#32)

/-- What a device reset keeps (R17, R489, R517, R536, R591, R593). A device reset leaves the fuses, the test access
port and the queue of commands; it keeps the fault history, the slots of the calibration store, the count of
self-tests and the Tether's strap; every LOCK bit, and the registers of power, scheduler, pool, dispatcher, services,
network and fault collector are as at reset. Which of the rest survives is the model's reading (the docstring of
Chip.deviceReset cites its rules). -/
def Obligations.DeviceResetKeeps : Prop :=
  -- Kept.
  (∀ s : State, s.deviceReset.otp = s.otp ∧ s.deviceReset.jtag = s.jtag ∧ s.deviceReset.pending = s.pending ∧
    s.deviceReset.locks = {} ∧ s.deviceReset.chip.hist = s.chip.hist ∧
    s.deviceReset.chip.cal.slots = s.chip.cal.slots ∧ s.deviceReset.chip.tst.count = s.chip.tst.count ∧
    s.deviceReset.chip.tth.strap = s.chip.tth.strap) ∧
  -- As at reset.
  (∀ s : State, s.deviceReset.chip.pwr = State.reset.chip.pwr ∧ s.deviceReset.chip.sch = State.reset.chip.sch ∧
    s.deviceReset.chip.grn = State.reset.chip.grn ∧ s.deviceReset.chip.dsp = State.reset.chip.dsp ∧
    s.deviceReset.chip.svc = State.reset.chip.svc ∧ s.deviceReset.chip.net = State.reset.chip.net ∧
    s.deviceReset.chip.flt = State.reset.chip.flt ∧ s.deviceReset.chip.fns = State.reset.chip.fns ∧
    s.deviceReset.chip.wqs = [] ∧ s.deviceReset.chip.cqs = [] ∧ s.deviceReset.chip.mfn = 0)

/-- The settings of every fault source after a device reset (R483). After a device reset each source has the N, W, T
and ACTION of the table of R483, and FNMINOR 0. -/
def Obligations.FaultSettingsAtReset : Prop :=
  -- By class of source.
  (∀ (s : State) (k : Nat), FltSrc.listed k = true → let x := s.deviceReset.chip.fltSrc k; x.fnminor = false ∧
    (k < 0x80 → (x.n, x.w, x.t, x.action) = (16, 10000000, 1000000, 1)) ∧ (0x80 ≤ k ∧ k < 0x90 →
    (x.n, x.w, x.t, x.action) = (64, 1000000, 100000, 4)) ∧ (0x90 ≤ k ∧ k < 0xA0 →
    (x.n, x.w, x.t, x.action) = (1, 1000000, 10000, 2)) ∧ (k = 0xA1 →
    (x.n, x.w, x.t, x.action) = (4, 1000000, 10000, 5)) ∧ (0xB0 ≤ k ∧ k < 0xD0 →
    (x.n, x.w, x.t, x.action) = (4, 1000000, 10000, 2)) ∧ (k = 0xD0 ∨ k = 0x100 →
    (x.n, x.w, x.t, x.action) = (16, 1000000, 1000000, 0)) ∧ (0xE0 ≤ k ∧ k < 0xF0 ∨ k = 0x190 →
    (x.n, x.w, x.t, x.action) = (255, 1000000, 1000000, 0)) ∧ (0x110 ≤ k ∧ k < 0x190 →
    (x.n, x.w, x.t, x.action) = (1, 1000000, 1000000, 0)))

/-- A kind in KINDSEV makes its source SEVERE at the first event (R477). A message whose kind is in KINDSEV makes its
source SEVERE, whatever N is and whatever came before. KINDSEV is what FLT_KINDSEV0 and FLT_KINDSEV1 hold: bit k for
kind k. At reset it holds RETENTION_LOST, READY_TIMEOUT, SELFTEST_FAIL and THERMAL_CRIT, and no other kind. -/
def Obligations.KindSevMakesSevere : Prop :=
  -- At the first event.
  (∀ (c : Chip) (src : Nat) (m : FltMsg), c.flt.kindSev m.kind = true → ((c.accept src m).fltSrc src).severe = true) ∧
  -- The registers.
  (∀ (c : Chip) (l : Locks) (t : Otp) (k : Nat), (k < 32 → c.flt.kindSev k = bit (c.bar0Val l t 0 0x50008) k) ∧
    (32 ≤ k → k < 64 → c.flt.kindSev k = bit (c.bar0Val l t 0 0x5000C) (k - 32))) ∧
  -- At reset.
  (∀ k : Nat, k < 64 → (State.reset.chip.flt.kindSev k = true ↔
    k = Kind.retentionLost ∨ k = Kind.readyTimeout ∨ k = Kind.selftestFail ∨ k = Kind.thermalCrit))

/-- A worn slot of the calibration store is not written again (R540). A calibration write that names a slot whose
WRITES has reached 1,000 fails with RESOURCE, from the admin queue of PF0 and from the service port, and leaves every
slot as it was. -/
def Obligations.WornSlotIsKept : Prop :=
  -- From the admin queue.
  (∀ (s : State) (payload : List Byte) (d : List Word), s.up → s.carries 0 0x14 d →
    calLen (bits (dw d 5) 7 0) = some (admLen d) →
    calBodyOk (bits (dw d 5) 7 0) ((s.chip.fresh.2.hostReadData 0 (admAddr d) (admLen d) payload).take (admLen d)) = true →
    1000 ≤ (s.chip.calSlot (bits (dw d 5) 7 0)).writes →
    exec (.calWrite payload) s = .next (s.upd fun c => c.fresh.2.adminDone 0 Ad.resource) ∧
    (s.chip.fresh.2.adminDone 0 Ad.resource).cal = s.chip.cal) ∧
  -- From the service port.
  (∀ (s : State) (m : LnyCmd), s.asksLny 0x0A m → calBodyOk m.arg0.toNat m.data = true →
    1000 ≤ (s.chip.calSlot m.arg0.toNat).writes → exec .lnyCalWrite s = .next (s.upd fun c => c.lnyDone Ad.resource) ∧
    (s.chip.lnyDone Ad.resource).cal = s.chip.cal)

/-- A homed function's window holds what is written to it (R404). A write of the device within the window of a homed
function: the bytes written read back, every other byte of the window is as before, the window keeps its size and its
memory its one form. -/
def Obligations.HomedWindowHoldsWhatIsWritten : Prop :=
  -- Read after write.
  (∀ (c : Chip) (f : Nat) (a : Addr) (bs : List Byte) (h : Home), (c.fn f).home = some h →
    h.within a.toNat bs.length = true → ∃ k, ((c.hostWrite f a bs).fn f).home = some k ∧
    k.read a.toNat bs.length = bs ∧ k.size = h.size ∧ (∀ i, i < a.toNat ∨ a.toNat + bs.length ≤ i →
    Memory.get k.mem i = Memory.get h.mem i) ∧ (Memory.wf h.mem = true → Memory.wf k.mem = true))

/-- The instructions of the test access port, unlocked and locked (R594, R595). The codes of R594: IDCODE,
SAMPLE/PRELOAD, EXTEST, CLAMP, HIGHZ, debug access and BYPASS; with the debug lock burned every code but IDCODE acts
as BYPASS. IDCODE reads 0x20128001. -/
def Obligations.DebugLockBypasses : Prop :=
  -- Locked.
  (∀ k : Nat, tapInstr true k = if k = 0x01 then .idcode else .bypass) ∧
  -- Unlocked.
  (∀ k : Nat, k < 256 →
    tapInstr false k = if k = 0x01 then .idcode else if k = 0x02 ∨ k = 0x03 then .boundary else if k = 0x04 then .clamp else if k = 0x05 then .highz else if 0x80 ≤ k ∧
    k ≤ 0xFE then .debug else .bypass) ∧
  -- The pads are taken by EXTEST, CLAMP and HIGHZ alone.
  (∀ (l : Bool) (k : Nat), takesPads l k = true ↔ l = false ∧ (k = 0x03 ∨ k = 0x04 ∨ k = 0x05))

/-- The IDCODE register shifts out bit by bit, from bit 0 (R594). After Capture-DR with IDCODE selected, and k rising
edges with TMS low and any TDI in Shift-DR, k up to 31, the falling edge that follows puts bit k of 0x20128001 on TDO.
-/
def Obligations.IdcodeShiftsOut : Prop :=
  -- After k bits.
  (∀ (j : Jtag) (l f tdi0 : Bool) (bs : List Bool), j.tap = .capDr → j.ir = 1 → bs.length ≤ 31 →
    ((bs.foldl (fun j b => j.rise l false b) (j.rise l false tdi0)).fall l f).tdo = some (0x20128001 / 2 ^ bs.length % 2 == 1))

/-- Registers of plain fields read back what is written (R61, R269, R398, R494, R557, R18). With no LOCK bit set, a
write of PF0 to FN_CTRL, FLT_KINDSEV0 and 1, FLT_SRCSEL, EVT_SH_CTRL, CLU_LIMIT or TTH_CTRL reads back in the bits
that the register has, and 0 elsewhere. -/
def Obligations.RegistersReadBack : Prop :=
  -- By register.
  (∀ (c : Chip) (t : Otp) (w : Word),
    (c.pfWrite {} t 0x10004 w).bar0Val {} t 0 0x10004 = BitVec.ofNat 32 (w.toNat % 2) ∧
    (c.pfWrite {} t 0x50008 w).bar0Val {} t 0 0x50008 = w ∧ (c.pfWrite {} t 0x5000C w).bar0Val {} t 0 0x5000C = w ∧
    (c.pfWrite {} t 0x50020 w).bar0Val {} t 0 0x50020 = BitVec.ofNat 32 (w.toNat % 1024) ∧
    (c.pfWrite {} t 0x60000 w).bar0Val {} t 0 0x60000 = BitVec.ofNat 32 (w.toNat % 16) ∧ (∀ k, k < 16 →
    (c.pfWrite {} t (0x14000C + 0x1000 * k) w).bar0Val {} t 0 (0x14000C + 0x1000 * k) = BitVec.ofNat 32 (w.toNat % 16384)) ∧
    (c.pfWrite {} t 0x1D0000 w).bar0Val {} t 0 0x1D0000 = BitVec.ofNat 32 (w.toNat % 8))

/-- A locked register keeps its RWL fields (R15, R17). With the LOCK bit of its block set, a write of PF0 to a
register that has RWL fields alone changes nothing. -/
def Obligations.LockedRegistersKeep : Prop :=
  -- By block.
  (∀ (c : Chip) (l : Locks) (t : Otp) (w : Word), (l.flt = true → c.pfWrite l t 0x50008 w = c ∧
    c.pfWrite l t 0x5000C w = c) ∧ (l.evt = true → c.pfWrite l t 0x60000 w = c) ∧ (l.sch = true →
    c.pfWrite l t 0x80000 w = c) ∧ (l.grn = true → c.pfWrite l t 0x160000 w = c ∧ c.pfWrite l t 0x16002C w = c) ∧
    (l.dsp = true → c.pfWrite l t 0x180000 w = c) ∧ (l.svc = true → c.pfWrite l t 0x188000 w = c) ∧ (l.tst = true →
    c.pfWrite l t 0x1B0030 w = c) ∧ (l.tth = true → c.pfWrite l t 0x1D0000 w = c ∧ c.pfWrite l t 0x1D1000 w = c) ∧
    (l.pwr = true → c.pfWrite l t 0x40008 w = c))
end

