-- ==== Sys2Proof/Machine/CfgSpace.lean ====
section
/-!
DEFINITION. What configuration space reads, in the fields that the spec gives (R1, R46, R50 to R53, R74). No command of the
table reads it; the rest of each header and capability is PCIe's, and stands nowhere in the model.
-/
namespace Sys2Proof.Machine

/-- A capability of the list of R51. -/
inductive Capability where
  | powerManagement | msix | pciExpress | aer | ari | serialNumber | sriov | secondaryPcie | dataLinkFeature
  | physicalLayer16 | laneMargining | l1PmSubstates
  deriving DecidableEq, Repr

/-- The offset of a capability, the same in PF0 and in a VF (R51). -/
def Capability.offset : Capability → Nat
  | .powerManagement => 0x040
  | .msix => 0x050
  | .pciExpress => 0x070
  | .aer => 0x100
  | .ari => 0x148
  | .serialNumber => 0x150
  | .sriov => 0x160
  | .secondaryPcie => 0x1A0
  | .dataLinkFeature => 0x1D0
  | .physicalLayer16 => 0x1E0
  | .laneMargining => 0x210
  | .l1PmSubstates => 0x240

/-- Function `f` carries the capability: PF0 all of them, a VF those that R51 marks. -/
def Capability.carried (f : Nat) : Capability → Bool
  | .msix | .pciExpress | .aer | .ari => true
  | _ => f == 0

/-- The registers and fields of configuration space that the spec gives. -/
inductive CfgField where
  | vendorId | deviceId | revisionId | classCode | headerType | subsystemVendorId | subsystemId | capabilitiesPointer
  | interruptPin | msixTableSize | transactionsPending | deviceSerialNumber
  | initialVfs | totalVfs | numVfs | vfEnable | vfMse | firstVfOffset | vfStride | vfDeviceId | supportedPageSizes
  | systemPageSize | functionDependencyLink | vfMigrationCapable
  | busMasterEnable | msixEnable | functionMask
  deriving DecidableEq, Repr

/-- The value of a field of PF0's own capabilities and header, which a VF has not. -/
def Chip.cfgPf0 (c : Chip) : CfgField → Option Nat
  | .subsystemVendorId => some 0x1F9D
  | .subsystemId => some c.boot.subsys
  | .capabilitiesPointer => some 0x40
  | .deviceSerialNumber => some Config.serialNumber.toNat
  | .initialVfs | .totalVfs => some 127
  | .numVfs => some c.pci.numVfs
  | .vfEnable => some (b2n c.pci.vfEnable)
  | .vfMse => some (b2n c.pci.vfMse)
  | .firstVfOffset | .vfStride => some 1
  | .vfDeviceId => some 0x0129
  | .supportedPageSizes => some 0x553
  | .systemPageSize => some c.pci.sysPage
  | .functionDependencyLink | .vfMigrationCapable => some 0
  | _ => none

/-- What function `f` reads for a field (R1, R46, R50 to R53, R74). A VF's Vendor ID and Device ID read 0xFFFF. The
value of MSI-X Table Size is the number of entries. None: the function has no such field, or the spec does not give
its value. (DESIGN CHOICE, log 225) -/
def Chip.cfgField (c : Chip) (f : Nat) (x : CfgField) : Option Nat :=
  match x with
  | .vendorId => some (if f = 0 then 0x1F9D else 0xFFFF)
  | .deviceId => some (if f = 0 then 0x0128 else 0xFFFF)
  | .revisionId => some 0x02
  | .classCode => some 0x0C0380
  | .headerType | .interruptPin => some 0
  | .msixTableSize => some (if f = 0 then 64 else 16)
  | .transactionsPending => some (b2n (c.fn f).transPend)
  | .busMasterEnable => some (b2n (c.fn f).bme)
  | .msixEnable => some (b2n (c.fn f).msixEn)
  | .functionMask => some (b2n (c.fn f).fmask)
  | y => if f = 0 then c.cfgPf0 y else none

/-- A function's own memory BARs: their number, size in bytes, and whether prefetchable (R37, R39, R40, R42, R50, R52).
All are 64-bit. -/
def ownBars (f : Nat) : List (Nat × Nat × Bool) :=
  [(0, if f = 0 then 32 * 2 ^ 20 else 64 * 2 ^ 10, false), (2, 16 * 2 ^ 10, true), (4, 8 * 2 ^ 10, false)]

/-- The size of a function's BAR: of a VF's, the larger of its own and the System Page Size (R52). -/
def Chip.barSize (c : Chip) (f own : Nat) : Nat := if f = 0 then own else max own (c.pci.sysPage * 4096)

end Sys2Proof.Machine
end

