-- ==== Sys2Proof/Laws/CfgSpace.lean ====
section
/-!
SUPPORT. The capabilities of configuration space stand at offsets of their own, and a VF has no SR-IOV fields (R51, R52).
-/
namespace Sys2Proof.Machine

theorem Capability.offset_inj (x y : Capability) (h : x.offset = y.offset) : x = y := by
  cases x <;> cases y <;> first | rfl | cases h

/-- What only PF0 has: no field that PF0's own part gives is read in a VF. -/
theorem Chip.cfgField_vf (c : Chip) (f : Nat) (x : CfgField) (v : Nat) (hf : f ≠ 0) (h : c.cfgPf0 x = some v) :
    c.cfgField f x = none := by
  cases x <;> simp_all [Chip.cfgPf0, Chip.cfgField]

end Sys2Proof.Machine
end

