-- ==== Sys2Proof/Laws/Tab.lean ====
section
/-!
SUPPORT. What a table reads as after a write, and that a write keeps the canonical form.
-/
namespace Sys2Proof.Machine.Tab

variable {α : Type}

theorem get_erase_same (d : Nat → α) (t : Tab α) (k : Nat) : get d (erase t k) k = d k := by
  induction t with
  | nil => rfl
  | cons e r ih =>
    obtain ⟨j, a⟩ := e
    by_cases h : j = k
    · simp [erase, h, ih]
    · simp [erase, h, get, ih]

theorem get_erase_ne (d : Nat → α) (t : Tab α) {k j : Nat} (h : j ≠ k) :
    get d (erase t k) j = get d t j := by
  induction t with
  | nil => rfl
  | cons e r ih =>
    obtain ⟨i, a⟩ := e
    by_cases hi : i = k
    · subst hi
      simp [erase, get, ih, Ne.symm h]
    · rcases eq_or_ne i j with rfl | hj
      · simp [erase, hi, get]
      · simp [erase, hi, get, hj, ih]

theorem find_erase_same (t : Tab α) (k : Nat) : find (erase t k) k = none := by
  induction t with
  | nil => rfl
  | cons e r ih =>
    obtain ⟨j, a⟩ := e
    by_cases h : j = k
    · simp [erase, h, ih]
    · simp [erase, h, find, ih]

theorem find_erase_ne (t : Tab α) {k j : Nat} (h : j ≠ k) : find (erase t k) j = find t j := by
  induction t with
  | nil => rfl
  | cons e r ih =>
    obtain ⟨i, a⟩ := e
    by_cases hi : i = k
    · subst hi
      simp [erase, find, ih, Ne.symm h]
    · rcases eq_or_ne i j with rfl | hj
      · simp [erase, hi, find]
      · simp [erase, hi, find, hj, ih]

theorem get_eq_find (d : Nat → α) (t : Tab α) (k : Nat) : get d t k = (find t k).getD (d k) := by
  induction t with
  | nil => rfl
  | cons e r ih =>
    obtain ⟨j, a⟩ := e
    by_cases h : j = k <;> simp [get, find, h, ih]

theorem find_insert_same (t : Tab α) (k : Nat) (v : α) (h : find t k = none) :
    find (insert t k v) k = some v := by
  induction t with
  | nil => simp [insert, find]
  | cons e r ih =>
    obtain ⟨j, a⟩ := e
    by_cases hj : j = k
    · simp [find, hj] at h
    · simp only [find, hj, if_false] at h
      by_cases hl : k < j <;> simp [insert, hl, find, hj, ih h]

theorem find_insert_ne (t : Tab α) {k j : Nat} (v : α) (h : j ≠ k) :
    find (insert t k v) j = find t j := by
  induction t with
  | nil => simp [insert, find, Ne.symm h]
  | cons e r ih =>
    obtain ⟨i, a⟩ := e
    by_cases hl : k < i
    · simp [insert, hl, find, Ne.symm h]
    · rcases eq_or_ne i j with rfl | hi
      · simp [insert, hl, find]
      · simp [insert, hl, find, hi, ih]

/-- A read after a write to the same number gives the value written. -/
@[simp] theorem get_set_same [DecidableEq α] (d : Nat → α) (t : Tab α) (k : Nat) (v : α) :
    get d (set d t k v) k = v := by
  unfold set
  split
  · rw [get_erase_same]; exact (Eq.symm ‹_›)
  · rw [get_eq_find, find_insert_same _ _ _ (find_erase_same t k)]; rfl

/-- A write leaves every other number alone. -/
theorem get_set_ne [DecidableEq α] (d : Nat → α) (t : Tab α) {k j : Nat} (v : α) (h : j ≠ k) :
    get d (set d t k v) j = get d t j := by
  unfold set
  split
  · exact get_erase_ne d t h
  · rw [get_eq_find, find_insert_ne _ v h, find_erase_ne t h, ← get_eq_find]

@[simp] theorem get_upd_same [DecidableEq α] (d : Nat → α) (t : Tab α) (k : Nat) (f : α → α) :
    get d (upd d t k f) k = f (get d t k) := get_set_same ..

theorem get_upd_ne [DecidableEq α] (d : Nat → α) (t : Tab α) {k j : Nat} (f : α → α) (h : j ≠ k) :
    get d (upd d t k f) j = get d t j := get_set_ne d t _ h

@[simp] theorem find_put_same (t : Tab α) (k : Nat) (v : α) : find (put t k v) k = some v :=
  find_insert_same _ _ _ (find_erase_same t k)

theorem find_put_ne (t : Tab α) {k j : Nat} (v : α) (h : j ≠ k) : find (put t k v) j = find t j := by
  rw [put, find_insert_ne _ v h, find_erase_ne t h]

@[simp] theorem get_nil (d : Nat → α) (k : Nat) : get d [] k = d k := rfl
@[simp] theorem find_nil (k : Nat) : find ([] : Tab α) k = none := rfl

theorem mem_erase {t : Tab α} {k : Nat} {e : Nat × α} (h : e ∈ erase t k) : e ∈ t ∧ e.1 ≠ k := by
  induction t with
  | nil => simp [erase] at h
  | cons x r ih =>
    obtain ⟨j, a⟩ := x
    by_cases hj : j = k
    · rw [erase, if_pos hj] at h
      exact ⟨List.mem_cons_of_mem _ (ih h).1, (ih h).2⟩
    · rw [erase, if_neg hj] at h
      rcases List.mem_cons.1 h with rfl | h
      · exact ⟨List.mem_cons_self .., hj⟩
      · exact ⟨List.mem_cons_of_mem _ (ih h).1, (ih h).2⟩

theorem sorted_erase {t : Tab α} (k : Nat) (h : (keys t).Pairwise (· < ·)) :
    (keys (erase t k)).Pairwise (· < ·) := by
  induction t with
  | nil => exact h
  | cons x r ih =>
    obtain ⟨j, a⟩ := x
    simp only [keys, List.map_cons, List.pairwise_cons] at h
    by_cases hj : j = k
    · rw [erase, if_pos hj]; exact ih h.2
    · rw [erase, if_neg hj]
      simp only [keys, List.map_cons, List.pairwise_cons]
      refine ⟨fun b hb => ?_, ih h.2⟩
      obtain ⟨e, he, rfl⟩ := List.mem_map.1 hb
      exact h.1 _ (List.mem_map_of_mem (mem_erase he).1)

theorem mem_insert {t : Tab α} {k : Nat} {v : α} {e : Nat × α} (h : e ∈ insert t k v) :
    e = (k, v) ∨ e ∈ t := by
  induction t with
  | nil => simpa [insert] using h
  | cons x r ih =>
    obtain ⟨j, a⟩ := x
    by_cases hl : k < j
    · rw [insert, if_pos hl] at h
      exact List.mem_cons.1 h
    · rw [insert, if_neg hl] at h
      rcases List.mem_cons.1 h with h | h
      · exact .inr (h ▸ List.mem_cons_self ..)
      · exact (ih h).imp_right (List.mem_cons_of_mem _)

theorem sorted_insert {t : Tab α} {k : Nat} (v : α) (h : (keys t).Pairwise (· < ·))
    (hk : ∀ e ∈ t, e.1 ≠ k) : (keys (insert t k v)).Pairwise (· < ·) := by
  induction t with
  | nil => simp [insert, keys]
  | cons x r ih =>
    obtain ⟨j, a⟩ := x
    have hx := h
    simp only [keys, List.map_cons, List.pairwise_cons] at hx
    by_cases hl : k < j
    · rw [insert, if_pos hl]
      simp only [keys, List.map_cons, List.pairwise_cons, List.mem_cons]
      refine ⟨?_, hx.1, hx.2⟩
      rintro b (rfl | hb)
      · exact hl
      · exact lt_trans hl (hx.1 b hb)
    · rw [insert, if_neg hl]
      simp only [keys, List.map_cons, List.pairwise_cons]
      refine ⟨fun b hb => ?_, ih hx.2 fun e he => hk e (List.mem_cons_of_mem _ he)⟩
      obtain ⟨e, he, rfl⟩ := List.mem_map.1 hb
      rcases mem_insert he with rfl | he
      · have := hk _ (List.mem_cons_self ..)
        simp only at this ⊢
        omega
      · exact hx.1 _ (List.mem_map_of_mem he)

/-- Every write keeps the canonical form. -/
theorem wf_set [DecidableEq α] {d : Nat → α} {t : Tab α} (k : Nat) (v : α) (h : wf d t = true) :
    wf d (set d t k v) = true := by
  simp only [wf, Bool.and_eq_true, decide_eq_true_eq, List.all_eq_true] at h ⊢
  unfold set
  split
  · exact ⟨sorted_erase k h.1, fun e he => h.2 e (mem_erase he).1⟩
  · refine ⟨sorted_insert v (sorted_erase k h.1) fun e he => (mem_erase he).2, fun e he => ?_⟩
    rcases mem_insert he with rfl | he
    · assumption
    · exact h.2 e (mem_erase he).1

theorem wf_upd [DecidableEq α] {d : Nat → α} {t : Tab α} (k : Nat) (f : α → α) (h : wf d t = true) :
    wf d (upd d t k f) = true := wf_set k _ h

end Sys2Proof.Machine.Tab
end

