-- ==== Sys2Proof/Laws/State.lean ====
section
/-!
SUPPORT. What each update of the chip changes, and that it changes no other part of the chip.
-/
namespace Sys2Proof.Machine

variable (c : Chip)

/-! ### What is left alone -/

@[simp] theorem Chip.updFn_frame (f : Nat) (g : Fun → Fun) :
    (c.updFn f g).mfn = c.mfn ∧ (c.updFn f g).out = c.out ∧ (c.updFn f g).free = c.free ∧ (c.updFn f g).pci = c.pci ∧
    (c.updFn f g).arbPtr = c.arbPtr ∧ (c.updFn f g).aqPtr = c.aqPtr ∧ (c.updFn f g).stock = c.stock ∧
    (c.updFn f g).owners = c.owners ∧ (c.updFn f g).wqs = c.wqs ∧ (c.updFn f g).cqs = c.cqs ∧
    (c.updFn f g).dbigns = c.dbigns ∧ (c.updFn f g).evsh = c.evsh ∧ (c.updFn f g).flt = c.flt ∧
    (c.updFn f g).hist = c.hist ∧ (c.updFn f g).net = c.net ∧ (c.updFn f g).ports = c.ports ∧
    (c.updFn f g).clus = c.clus ∧ (c.updFn f g).sch = c.sch ∧ (c.updFn f g).dsp = c.dsp ∧ (c.updFn f g).svc = c.svc ∧
    (c.updFn f g).grn = c.grn ∧ (c.updFn f g).handles = c.handles ∧ (c.updFn f g).ops = c.ops ∧
    (c.updFn f g).devs = c.devs ∧ (c.updFn f g).eps = c.eps ∧ (c.updFn f g).insts = c.insts ∧
    (c.updFn f g).pwr = c.pwr ∧ (c.updFn f g).tst = c.tst ∧ (c.updFn f g).lny = c.lny ∧ (c.updFn f g).tth = c.tth ∧
    (c.updFn f g).cal = c.cal ∧ (c.updFn f g).boot = c.boot ∧ (c.updFn f g).aon = c.aon ∧
    (c.updFn f g).faultN = c.faultN :=
  ⟨rfl, rfl, rfl, rfl, rfl, rfl, rfl, rfl, rfl, rfl, rfl, rfl, rfl, rfl, rfl, rfl, rfl, rfl, rfl, rfl, rfl, rfl, rfl, rfl, rfl, rfl, rfl, rfl, rfl, rfl, rfl, rfl, rfl, rfl⟩

@[simp] theorem Chip.updEvt_frame (f : Nat) (g : EvtBank → EvtBank) :
    (c.updEvt f g).mfn = c.mfn ∧ (c.updEvt f g).out = c.out ∧ (c.updEvt f g).free = c.free ∧
    (c.updEvt f g).pci = c.pci ∧ (c.updEvt f g).arbPtr = c.arbPtr ∧ (c.updEvt f g).aqPtr = c.aqPtr ∧
    (c.updEvt f g).stock = c.stock ∧ (c.updEvt f g).owners = c.owners ∧ (c.updEvt f g).wqs = c.wqs ∧
    (c.updEvt f g).cqs = c.cqs ∧ (c.updEvt f g).dbigns = c.dbigns ∧ (c.updEvt f g).evsh = c.evsh ∧
    (c.updEvt f g).flt = c.flt ∧ (c.updEvt f g).hist = c.hist ∧ (c.updEvt f g).net = c.net ∧
    (c.updEvt f g).ports = c.ports ∧ (c.updEvt f g).clus = c.clus ∧ (c.updEvt f g).sch = c.sch ∧
    (c.updEvt f g).dsp = c.dsp ∧ (c.updEvt f g).svc = c.svc ∧ (c.updEvt f g).grn = c.grn ∧
    (c.updEvt f g).handles = c.handles ∧ (c.updEvt f g).ops = c.ops ∧ (c.updEvt f g).devs = c.devs ∧
    (c.updEvt f g).eps = c.eps ∧ (c.updEvt f g).insts = c.insts ∧ (c.updEvt f g).pwr = c.pwr ∧
    (c.updEvt f g).tst = c.tst ∧ (c.updEvt f g).lny = c.lny ∧ (c.updEvt f g).tth = c.tth ∧
    (c.updEvt f g).cal = c.cal ∧ (c.updEvt f g).boot = c.boot ∧ (c.updEvt f g).aon = c.aon ∧
    (c.updEvt f g).faultN = c.faultN :=
  ⟨rfl, rfl, rfl, rfl, rfl, rfl, rfl, rfl, rfl, rfl, rfl, rfl, rfl, rfl, rfl, rfl, rfl, rfl, rfl, rfl, rfl, rfl, rfl, rfl, rfl, rfl, rfl, rfl, rfl, rfl, rfl, rfl, rfl, rfl⟩

@[simp] theorem Chip.updSrc_frame (f i : Nat) (g : Src → Src) :
    (c.updSrc f i g).mfn = c.mfn ∧ (c.updSrc f i g).out = c.out ∧ (c.updSrc f i g).free = c.free ∧
    (c.updSrc f i g).pci = c.pci ∧ (c.updSrc f i g).arbPtr = c.arbPtr ∧ (c.updSrc f i g).aqPtr = c.aqPtr ∧
    (c.updSrc f i g).stock = c.stock ∧ (c.updSrc f i g).owners = c.owners ∧ (c.updSrc f i g).wqs = c.wqs ∧
    (c.updSrc f i g).cqs = c.cqs ∧ (c.updSrc f i g).dbigns = c.dbigns ∧ (c.updSrc f i g).evsh = c.evsh ∧
    (c.updSrc f i g).flt = c.flt ∧ (c.updSrc f i g).hist = c.hist ∧ (c.updSrc f i g).net = c.net ∧
    (c.updSrc f i g).ports = c.ports ∧ (c.updSrc f i g).clus = c.clus ∧ (c.updSrc f i g).sch = c.sch ∧
    (c.updSrc f i g).dsp = c.dsp ∧ (c.updSrc f i g).svc = c.svc ∧ (c.updSrc f i g).grn = c.grn ∧
    (c.updSrc f i g).handles = c.handles ∧ (c.updSrc f i g).ops = c.ops ∧ (c.updSrc f i g).devs = c.devs ∧
    (c.updSrc f i g).eps = c.eps ∧ (c.updSrc f i g).insts = c.insts ∧ (c.updSrc f i g).pwr = c.pwr ∧
    (c.updSrc f i g).tst = c.tst ∧ (c.updSrc f i g).lny = c.lny ∧ (c.updSrc f i g).tth = c.tth ∧
    (c.updSrc f i g).cal = c.cal ∧ (c.updSrc f i g).boot = c.boot ∧ (c.updSrc f i g).aon = c.aon ∧
    (c.updSrc f i g).faultN = c.faultN :=
  ⟨rfl, rfl, rfl, rfl, rfl, rfl, rfl, rfl, rfl, rfl, rfl, rfl, rfl, rfl, rfl, rfl, rfl, rfl, rfl, rfl, rfl, rfl, rfl, rfl, rfl, rfl, rfl, rfl, rfl, rfl, rfl, rfl, rfl, rfl⟩

@[simp] theorem Chip.updVec_frame (f v : Nat) (g : Vec → Vec) :
    (c.updVec f v g).mfn = c.mfn ∧ (c.updVec f v g).out = c.out ∧ (c.updVec f v g).free = c.free ∧
    (c.updVec f v g).pci = c.pci ∧ (c.updVec f v g).arbPtr = c.arbPtr ∧ (c.updVec f v g).aqPtr = c.aqPtr ∧
    (c.updVec f v g).stock = c.stock ∧ (c.updVec f v g).owners = c.owners ∧ (c.updVec f v g).wqs = c.wqs ∧
    (c.updVec f v g).cqs = c.cqs ∧ (c.updVec f v g).dbigns = c.dbigns ∧ (c.updVec f v g).evsh = c.evsh ∧
    (c.updVec f v g).flt = c.flt ∧ (c.updVec f v g).hist = c.hist ∧ (c.updVec f v g).net = c.net ∧
    (c.updVec f v g).ports = c.ports ∧ (c.updVec f v g).clus = c.clus ∧ (c.updVec f v g).sch = c.sch ∧
    (c.updVec f v g).dsp = c.dsp ∧ (c.updVec f v g).svc = c.svc ∧ (c.updVec f v g).grn = c.grn ∧
    (c.updVec f v g).handles = c.handles ∧ (c.updVec f v g).ops = c.ops ∧ (c.updVec f v g).devs = c.devs ∧
    (c.updVec f v g).eps = c.eps ∧ (c.updVec f v g).insts = c.insts ∧ (c.updVec f v g).pwr = c.pwr ∧
    (c.updVec f v g).tst = c.tst ∧ (c.updVec f v g).lny = c.lny ∧ (c.updVec f v g).tth = c.tth ∧
    (c.updVec f v g).cal = c.cal ∧ (c.updVec f v g).boot = c.boot ∧ (c.updVec f v g).aon = c.aon ∧
    (c.updVec f v g).faultN = c.faultN :=
  ⟨rfl, rfl, rfl, rfl, rfl, rfl, rfl, rfl, rfl, rfl, rfl, rfl, rfl, rfl, rfl, rfl, rfl, rfl, rfl, rfl, rfl, rfl, rfl, rfl, rfl, rfl, rfl, rfl, rfl, rfl, rfl, rfl, rfl, rfl⟩

@[simp] theorem Chip.updMsix_frame (f v : Nat) (g : MsixEntry → MsixEntry) :
    (c.updMsix f v g).mfn = c.mfn ∧ (c.updMsix f v g).out = c.out ∧ (c.updMsix f v g).free = c.free ∧
    (c.updMsix f v g).pci = c.pci ∧ (c.updMsix f v g).arbPtr = c.arbPtr ∧ (c.updMsix f v g).aqPtr = c.aqPtr ∧
    (c.updMsix f v g).stock = c.stock ∧ (c.updMsix f v g).owners = c.owners ∧ (c.updMsix f v g).wqs = c.wqs ∧
    (c.updMsix f v g).cqs = c.cqs ∧ (c.updMsix f v g).dbigns = c.dbigns ∧ (c.updMsix f v g).evsh = c.evsh ∧
    (c.updMsix f v g).flt = c.flt ∧ (c.updMsix f v g).hist = c.hist ∧ (c.updMsix f v g).net = c.net ∧
    (c.updMsix f v g).ports = c.ports ∧ (c.updMsix f v g).clus = c.clus ∧ (c.updMsix f v g).sch = c.sch ∧
    (c.updMsix f v g).dsp = c.dsp ∧ (c.updMsix f v g).svc = c.svc ∧ (c.updMsix f v g).grn = c.grn ∧
    (c.updMsix f v g).handles = c.handles ∧ (c.updMsix f v g).ops = c.ops ∧ (c.updMsix f v g).devs = c.devs ∧
    (c.updMsix f v g).eps = c.eps ∧ (c.updMsix f v g).insts = c.insts ∧ (c.updMsix f v g).pwr = c.pwr ∧
    (c.updMsix f v g).tst = c.tst ∧ (c.updMsix f v g).lny = c.lny ∧ (c.updMsix f v g).tth = c.tth ∧
    (c.updMsix f v g).cal = c.cal ∧ (c.updMsix f v g).boot = c.boot ∧ (c.updMsix f v g).aon = c.aon ∧
    (c.updMsix f v g).faultN = c.faultN :=
  ⟨rfl, rfl, rfl, rfl, rfl, rfl, rfl, rfl, rfl, rfl, rfl, rfl, rfl, rfl, rfl, rfl, rfl, rfl, rfl, rfl, rfl, rfl, rfl, rfl, rfl, rfl, rfl, rfl, rfl, rfl, rfl, rfl, rfl, rfl⟩

@[simp] theorem Chip.updAq_frame (f : Nat) (g : Aq → Aq) :
    (c.updAq f g).mfn = c.mfn ∧ (c.updAq f g).out = c.out ∧ (c.updAq f g).free = c.free ∧ (c.updAq f g).pci = c.pci ∧
    (c.updAq f g).arbPtr = c.arbPtr ∧ (c.updAq f g).aqPtr = c.aqPtr ∧ (c.updAq f g).stock = c.stock ∧
    (c.updAq f g).owners = c.owners ∧ (c.updAq f g).wqs = c.wqs ∧ (c.updAq f g).cqs = c.cqs ∧
    (c.updAq f g).dbigns = c.dbigns ∧ (c.updAq f g).evsh = c.evsh ∧ (c.updAq f g).flt = c.flt ∧
    (c.updAq f g).hist = c.hist ∧ (c.updAq f g).net = c.net ∧ (c.updAq f g).ports = c.ports ∧
    (c.updAq f g).clus = c.clus ∧ (c.updAq f g).sch = c.sch ∧ (c.updAq f g).dsp = c.dsp ∧ (c.updAq f g).svc = c.svc ∧
    (c.updAq f g).grn = c.grn ∧ (c.updAq f g).handles = c.handles ∧ (c.updAq f g).ops = c.ops ∧
    (c.updAq f g).devs = c.devs ∧ (c.updAq f g).eps = c.eps ∧ (c.updAq f g).insts = c.insts ∧
    (c.updAq f g).pwr = c.pwr ∧ (c.updAq f g).tst = c.tst ∧ (c.updAq f g).lny = c.lny ∧ (c.updAq f g).tth = c.tth ∧
    (c.updAq f g).cal = c.cal ∧ (c.updAq f g).boot = c.boot ∧ (c.updAq f g).aon = c.aon ∧
    (c.updAq f g).faultN = c.faultN :=
  ⟨rfl, rfl, rfl, rfl, rfl, rfl, rfl, rfl, rfl, rfl, rfl, rfl, rfl, rfl, rfl, rfl, rfl, rfl, rfl, rfl, rfl, rfl, rfl, rfl, rfl, rfl, rfl, rfl, rfl, rfl, rfl, rfl, rfl, rfl⟩

@[simp] theorem Chip.updFltSrc_frame (s : Nat) (g : FltSrc → FltSrc) :
    (c.updFltSrc s g).mfn = c.mfn ∧ (c.updFltSrc s g).out = c.out ∧ (c.updFltSrc s g).free = c.free ∧
    (c.updFltSrc s g).pci = c.pci ∧ (c.updFltSrc s g).fns = c.fns ∧ (c.updFltSrc s g).arbPtr = c.arbPtr ∧
    (c.updFltSrc s g).aqPtr = c.aqPtr ∧ (c.updFltSrc s g).stock = c.stock ∧ (c.updFltSrc s g).owners = c.owners ∧
    (c.updFltSrc s g).wqs = c.wqs ∧ (c.updFltSrc s g).cqs = c.cqs ∧ (c.updFltSrc s g).dbigns = c.dbigns ∧
    (c.updFltSrc s g).evsh = c.evsh ∧ (c.updFltSrc s g).hist = c.hist ∧ (c.updFltSrc s g).net = c.net ∧
    (c.updFltSrc s g).ports = c.ports ∧ (c.updFltSrc s g).clus = c.clus ∧ (c.updFltSrc s g).sch = c.sch ∧
    (c.updFltSrc s g).dsp = c.dsp ∧ (c.updFltSrc s g).svc = c.svc ∧ (c.updFltSrc s g).grn = c.grn ∧
    (c.updFltSrc s g).handles = c.handles ∧ (c.updFltSrc s g).ops = c.ops ∧ (c.updFltSrc s g).devs = c.devs ∧
    (c.updFltSrc s g).eps = c.eps ∧ (c.updFltSrc s g).insts = c.insts ∧ (c.updFltSrc s g).pwr = c.pwr ∧
    (c.updFltSrc s g).tst = c.tst ∧ (c.updFltSrc s g).lny = c.lny ∧ (c.updFltSrc s g).tth = c.tth ∧
    (c.updFltSrc s g).cal = c.cal ∧ (c.updFltSrc s g).boot = c.boot ∧ (c.updFltSrc s g).aon = c.aon ∧
    (c.updFltSrc s g).faultN = c.faultN :=
  ⟨rfl, rfl, rfl, rfl, rfl, rfl, rfl, rfl, rfl, rfl, rfl, rfl, rfl, rfl, rfl, rfl, rfl, rfl, rfl, rfl, rfl, rfl, rfl, rfl, rfl, rfl, rfl, rfl, rfl, rfl, rfl, rfl, rfl, rfl⟩

@[simp] theorem Chip.updSh_frame (s : Nat) (g : ShSrc → ShSrc) :
    (c.updSh s g).mfn = c.mfn ∧ (c.updSh s g).out = c.out ∧ (c.updSh s g).free = c.free ∧ (c.updSh s g).pci = c.pci ∧
    (c.updSh s g).fns = c.fns ∧ (c.updSh s g).arbPtr = c.arbPtr ∧ (c.updSh s g).aqPtr = c.aqPtr ∧
    (c.updSh s g).stock = c.stock ∧ (c.updSh s g).owners = c.owners ∧ (c.updSh s g).wqs = c.wqs ∧
    (c.updSh s g).cqs = c.cqs ∧ (c.updSh s g).dbigns = c.dbigns ∧ (c.updSh s g).flt = c.flt ∧
    (c.updSh s g).hist = c.hist ∧ (c.updSh s g).net = c.net ∧ (c.updSh s g).ports = c.ports ∧
    (c.updSh s g).clus = c.clus ∧ (c.updSh s g).sch = c.sch ∧ (c.updSh s g).dsp = c.dsp ∧ (c.updSh s g).svc = c.svc ∧
    (c.updSh s g).grn = c.grn ∧ (c.updSh s g).handles = c.handles ∧ (c.updSh s g).ops = c.ops ∧
    (c.updSh s g).devs = c.devs ∧ (c.updSh s g).eps = c.eps ∧ (c.updSh s g).insts = c.insts ∧
    (c.updSh s g).pwr = c.pwr ∧ (c.updSh s g).tst = c.tst ∧ (c.updSh s g).lny = c.lny ∧ (c.updSh s g).tth = c.tth ∧
    (c.updSh s g).cal = c.cal ∧ (c.updSh s g).boot = c.boot ∧ (c.updSh s g).aon = c.aon ∧
    (c.updSh s g).faultN = c.faultN :=
  ⟨rfl, rfl, rfl, rfl, rfl, rfl, rfl, rfl, rfl, rfl, rfl, rfl, rfl, rfl, rfl, rfl, rfl, rfl, rfl, rfl, rfl, rfl, rfl, rfl, rfl, rfl, rfl, rfl, rfl, rfl, rfl, rfl, rfl, rfl⟩

@[simp] theorem Chip.putWq_frame (f n : Nat) (q : Wq) :
    (c.putWq f n q).mfn = c.mfn ∧ (c.putWq f n q).out = c.out ∧ (c.putWq f n q).free = c.free ∧
    (c.putWq f n q).pci = c.pci ∧ (c.putWq f n q).fns = c.fns ∧ (c.putWq f n q).arbPtr = c.arbPtr ∧
    (c.putWq f n q).aqPtr = c.aqPtr ∧ (c.putWq f n q).stock = c.stock ∧ (c.putWq f n q).owners = c.owners ∧
    (c.putWq f n q).cqs = c.cqs ∧ (c.putWq f n q).dbigns = c.dbigns ∧ (c.putWq f n q).evsh = c.evsh ∧
    (c.putWq f n q).flt = c.flt ∧ (c.putWq f n q).hist = c.hist ∧ (c.putWq f n q).net = c.net ∧
    (c.putWq f n q).ports = c.ports ∧ (c.putWq f n q).clus = c.clus ∧ (c.putWq f n q).sch = c.sch ∧
    (c.putWq f n q).dsp = c.dsp ∧ (c.putWq f n q).svc = c.svc ∧ (c.putWq f n q).grn = c.grn ∧
    (c.putWq f n q).handles = c.handles ∧ (c.putWq f n q).ops = c.ops ∧ (c.putWq f n q).devs = c.devs ∧
    (c.putWq f n q).eps = c.eps ∧ (c.putWq f n q).insts = c.insts ∧ (c.putWq f n q).pwr = c.pwr ∧
    (c.putWq f n q).tst = c.tst ∧ (c.putWq f n q).lny = c.lny ∧ (c.putWq f n q).tth = c.tth ∧
    (c.putWq f n q).cal = c.cal ∧ (c.putWq f n q).boot = c.boot ∧ (c.putWq f n q).aon = c.aon ∧
    (c.putWq f n q).faultN = c.faultN :=
  ⟨rfl, rfl, rfl, rfl, rfl, rfl, rfl, rfl, rfl, rfl, rfl, rfl, rfl, rfl, rfl, rfl, rfl, rfl, rfl, rfl, rfl, rfl, rfl, rfl, rfl, rfl, rfl, rfl, rfl, rfl, rfl, rfl, rfl, rfl⟩

@[simp] theorem Chip.delWq_frame (f n : Nat) :
    (c.delWq f n).mfn = c.mfn ∧ (c.delWq f n).out = c.out ∧ (c.delWq f n).free = c.free ∧ (c.delWq f n).pci = c.pci ∧
    (c.delWq f n).fns = c.fns ∧ (c.delWq f n).arbPtr = c.arbPtr ∧ (c.delWq f n).aqPtr = c.aqPtr ∧
    (c.delWq f n).stock = c.stock ∧ (c.delWq f n).owners = c.owners ∧ (c.delWq f n).cqs = c.cqs ∧
    (c.delWq f n).dbigns = c.dbigns ∧ (c.delWq f n).evsh = c.evsh ∧ (c.delWq f n).flt = c.flt ∧
    (c.delWq f n).hist = c.hist ∧ (c.delWq f n).net = c.net ∧ (c.delWq f n).ports = c.ports ∧
    (c.delWq f n).clus = c.clus ∧ (c.delWq f n).sch = c.sch ∧ (c.delWq f n).dsp = c.dsp ∧ (c.delWq f n).svc = c.svc ∧
    (c.delWq f n).grn = c.grn ∧ (c.delWq f n).handles = c.handles ∧ (c.delWq f n).ops = c.ops ∧
    (c.delWq f n).devs = c.devs ∧ (c.delWq f n).eps = c.eps ∧ (c.delWq f n).insts = c.insts ∧
    (c.delWq f n).pwr = c.pwr ∧ (c.delWq f n).tst = c.tst ∧ (c.delWq f n).lny = c.lny ∧ (c.delWq f n).tth = c.tth ∧
    (c.delWq f n).cal = c.cal ∧ (c.delWq f n).boot = c.boot ∧ (c.delWq f n).aon = c.aon ∧
    (c.delWq f n).faultN = c.faultN :=
  ⟨rfl, rfl, rfl, rfl, rfl, rfl, rfl, rfl, rfl, rfl, rfl, rfl, rfl, rfl, rfl, rfl, rfl, rfl, rfl, rfl, rfl, rfl, rfl, rfl, rfl, rfl, rfl, rfl, rfl, rfl, rfl, rfl, rfl, rfl⟩

@[simp] theorem Chip.updWq_frame (f n : Nat) (g : Wq → Wq) :
    (c.updWq f n g).mfn = c.mfn ∧ (c.updWq f n g).out = c.out ∧ (c.updWq f n g).free = c.free ∧
    (c.updWq f n g).pci = c.pci ∧ (c.updWq f n g).fns = c.fns ∧ (c.updWq f n g).arbPtr = c.arbPtr ∧
    (c.updWq f n g).aqPtr = c.aqPtr ∧ (c.updWq f n g).stock = c.stock ∧ (c.updWq f n g).owners = c.owners ∧
    (c.updWq f n g).cqs = c.cqs ∧ (c.updWq f n g).dbigns = c.dbigns ∧ (c.updWq f n g).evsh = c.evsh ∧
    (c.updWq f n g).flt = c.flt ∧ (c.updWq f n g).hist = c.hist ∧ (c.updWq f n g).net = c.net ∧
    (c.updWq f n g).ports = c.ports ∧ (c.updWq f n g).clus = c.clus ∧ (c.updWq f n g).sch = c.sch ∧
    (c.updWq f n g).dsp = c.dsp ∧ (c.updWq f n g).svc = c.svc ∧ (c.updWq f n g).grn = c.grn ∧
    (c.updWq f n g).handles = c.handles ∧ (c.updWq f n g).ops = c.ops ∧ (c.updWq f n g).devs = c.devs ∧
    (c.updWq f n g).eps = c.eps ∧ (c.updWq f n g).insts = c.insts ∧ (c.updWq f n g).pwr = c.pwr ∧
    (c.updWq f n g).tst = c.tst ∧ (c.updWq f n g).lny = c.lny ∧ (c.updWq f n g).tth = c.tth ∧
    (c.updWq f n g).cal = c.cal ∧ (c.updWq f n g).boot = c.boot ∧ (c.updWq f n g).aon = c.aon ∧
    (c.updWq f n g).faultN = c.faultN := by
  unfold Chip.updWq
  cases c.wq f n <;> exact ⟨rfl, rfl, rfl, rfl, rfl, rfl, rfl, rfl, rfl, rfl, rfl, rfl, rfl, rfl, rfl, rfl, rfl, rfl, rfl, rfl, rfl, rfl, rfl, rfl, rfl, rfl, rfl, rfl, rfl, rfl, rfl, rfl, rfl, rfl⟩

@[simp] theorem Chip.updXfer_frame (f n : Nat) (k : Word) (g : Xfer → Xfer) :
    (c.updXfer f n k g).mfn = c.mfn ∧ (c.updXfer f n k g).out = c.out ∧ (c.updXfer f n k g).free = c.free ∧
    (c.updXfer f n k g).pci = c.pci ∧ (c.updXfer f n k g).fns = c.fns ∧ (c.updXfer f n k g).arbPtr = c.arbPtr ∧
    (c.updXfer f n k g).aqPtr = c.aqPtr ∧ (c.updXfer f n k g).stock = c.stock ∧
    (c.updXfer f n k g).owners = c.owners ∧ (c.updXfer f n k g).cqs = c.cqs ∧ (c.updXfer f n k g).dbigns = c.dbigns ∧
    (c.updXfer f n k g).evsh = c.evsh ∧ (c.updXfer f n k g).flt = c.flt ∧ (c.updXfer f n k g).hist = c.hist ∧
    (c.updXfer f n k g).net = c.net ∧ (c.updXfer f n k g).ports = c.ports ∧ (c.updXfer f n k g).clus = c.clus ∧
    (c.updXfer f n k g).sch = c.sch ∧ (c.updXfer f n k g).dsp = c.dsp ∧ (c.updXfer f n k g).svc = c.svc ∧
    (c.updXfer f n k g).grn = c.grn ∧ (c.updXfer f n k g).handles = c.handles ∧ (c.updXfer f n k g).ops = c.ops ∧
    (c.updXfer f n k g).devs = c.devs ∧ (c.updXfer f n k g).eps = c.eps ∧ (c.updXfer f n k g).insts = c.insts ∧
    (c.updXfer f n k g).pwr = c.pwr ∧ (c.updXfer f n k g).tst = c.tst ∧ (c.updXfer f n k g).lny = c.lny ∧
    (c.updXfer f n k g).tth = c.tth ∧ (c.updXfer f n k g).cal = c.cal ∧ (c.updXfer f n k g).boot = c.boot ∧
    (c.updXfer f n k g).aon = c.aon ∧ (c.updXfer f n k g).faultN = c.faultN := by
  unfold Chip.updXfer Chip.updWq
  cases c.wq f n <;> exact ⟨rfl, rfl, rfl, rfl, rfl, rfl, rfl, rfl, rfl, rfl, rfl, rfl, rfl, rfl, rfl, rfl, rfl, rfl, rfl, rfl, rfl, rfl, rfl, rfl, rfl, rfl, rfl, rfl, rfl, rfl, rfl, rfl, rfl, rfl⟩

@[simp] theorem Chip.putCq_frame (f n : Nat) (q : Cq) :
    (c.putCq f n q).mfn = c.mfn ∧ (c.putCq f n q).out = c.out ∧ (c.putCq f n q).free = c.free ∧
    (c.putCq f n q).pci = c.pci ∧ (c.putCq f n q).fns = c.fns ∧ (c.putCq f n q).arbPtr = c.arbPtr ∧
    (c.putCq f n q).aqPtr = c.aqPtr ∧ (c.putCq f n q).stock = c.stock ∧ (c.putCq f n q).owners = c.owners ∧
    (c.putCq f n q).wqs = c.wqs ∧ (c.putCq f n q).dbigns = c.dbigns ∧ (c.putCq f n q).evsh = c.evsh ∧
    (c.putCq f n q).flt = c.flt ∧ (c.putCq f n q).hist = c.hist ∧ (c.putCq f n q).net = c.net ∧
    (c.putCq f n q).ports = c.ports ∧ (c.putCq f n q).clus = c.clus ∧ (c.putCq f n q).sch = c.sch ∧
    (c.putCq f n q).dsp = c.dsp ∧ (c.putCq f n q).svc = c.svc ∧ (c.putCq f n q).grn = c.grn ∧
    (c.putCq f n q).handles = c.handles ∧ (c.putCq f n q).ops = c.ops ∧ (c.putCq f n q).devs = c.devs ∧
    (c.putCq f n q).eps = c.eps ∧ (c.putCq f n q).insts = c.insts ∧ (c.putCq f n q).pwr = c.pwr ∧
    (c.putCq f n q).tst = c.tst ∧ (c.putCq f n q).lny = c.lny ∧ (c.putCq f n q).tth = c.tth ∧
    (c.putCq f n q).cal = c.cal ∧ (c.putCq f n q).boot = c.boot ∧ (c.putCq f n q).aon = c.aon ∧
    (c.putCq f n q).faultN = c.faultN :=
  ⟨rfl, rfl, rfl, rfl, rfl, rfl, rfl, rfl, rfl, rfl, rfl, rfl, rfl, rfl, rfl, rfl, rfl, rfl, rfl, rfl, rfl, rfl, rfl, rfl, rfl, rfl, rfl, rfl, rfl, rfl, rfl, rfl, rfl, rfl⟩

@[simp] theorem Chip.delCq_frame (f n : Nat) :
    (c.delCq f n).mfn = c.mfn ∧ (c.delCq f n).out = c.out ∧ (c.delCq f n).free = c.free ∧ (c.delCq f n).pci = c.pci ∧
    (c.delCq f n).fns = c.fns ∧ (c.delCq f n).arbPtr = c.arbPtr ∧ (c.delCq f n).aqPtr = c.aqPtr ∧
    (c.delCq f n).stock = c.stock ∧ (c.delCq f n).owners = c.owners ∧ (c.delCq f n).wqs = c.wqs ∧
    (c.delCq f n).dbigns = c.dbigns ∧ (c.delCq f n).evsh = c.evsh ∧ (c.delCq f n).flt = c.flt ∧
    (c.delCq f n).hist = c.hist ∧ (c.delCq f n).net = c.net ∧ (c.delCq f n).ports = c.ports ∧
    (c.delCq f n).clus = c.clus ∧ (c.delCq f n).sch = c.sch ∧ (c.delCq f n).dsp = c.dsp ∧ (c.delCq f n).svc = c.svc ∧
    (c.delCq f n).grn = c.grn ∧ (c.delCq f n).handles = c.handles ∧ (c.delCq f n).ops = c.ops ∧
    (c.delCq f n).devs = c.devs ∧ (c.delCq f n).eps = c.eps ∧ (c.delCq f n).insts = c.insts ∧
    (c.delCq f n).pwr = c.pwr ∧ (c.delCq f n).tst = c.tst ∧ (c.delCq f n).lny = c.lny ∧ (c.delCq f n).tth = c.tth ∧
    (c.delCq f n).cal = c.cal ∧ (c.delCq f n).boot = c.boot ∧ (c.delCq f n).aon = c.aon ∧
    (c.delCq f n).faultN = c.faultN :=
  ⟨rfl, rfl, rfl, rfl, rfl, rfl, rfl, rfl, rfl, rfl, rfl, rfl, rfl, rfl, rfl, rfl, rfl, rfl, rfl, rfl, rfl, rfl, rfl, rfl, rfl, rfl, rfl, rfl, rfl, rfl, rfl, rfl, rfl, rfl⟩

@[simp] theorem Chip.updCq_frame (f n : Nat) (g : Cq → Cq) :
    (c.updCq f n g).mfn = c.mfn ∧ (c.updCq f n g).out = c.out ∧ (c.updCq f n g).free = c.free ∧
    (c.updCq f n g).pci = c.pci ∧ (c.updCq f n g).fns = c.fns ∧ (c.updCq f n g).arbPtr = c.arbPtr ∧
    (c.updCq f n g).aqPtr = c.aqPtr ∧ (c.updCq f n g).stock = c.stock ∧ (c.updCq f n g).owners = c.owners ∧
    (c.updCq f n g).wqs = c.wqs ∧ (c.updCq f n g).dbigns = c.dbigns ∧ (c.updCq f n g).evsh = c.evsh ∧
    (c.updCq f n g).flt = c.flt ∧ (c.updCq f n g).hist = c.hist ∧ (c.updCq f n g).net = c.net ∧
    (c.updCq f n g).ports = c.ports ∧ (c.updCq f n g).clus = c.clus ∧ (c.updCq f n g).sch = c.sch ∧
    (c.updCq f n g).dsp = c.dsp ∧ (c.updCq f n g).svc = c.svc ∧ (c.updCq f n g).grn = c.grn ∧
    (c.updCq f n g).handles = c.handles ∧ (c.updCq f n g).ops = c.ops ∧ (c.updCq f n g).devs = c.devs ∧
    (c.updCq f n g).eps = c.eps ∧ (c.updCq f n g).insts = c.insts ∧ (c.updCq f n g).pwr = c.pwr ∧
    (c.updCq f n g).tst = c.tst ∧ (c.updCq f n g).lny = c.lny ∧ (c.updCq f n g).tth = c.tth ∧
    (c.updCq f n g).cal = c.cal ∧ (c.updCq f n g).boot = c.boot ∧ (c.updCq f n g).aon = c.aon ∧
    (c.updCq f n g).faultN = c.faultN := by
  unfold Chip.updCq
  cases c.cq f n <;> exact ⟨rfl, rfl, rfl, rfl, rfl, rfl, rfl, rfl, rfl, rfl, rfl, rfl, rfl, rfl, rfl, rfl, rfl, rfl, rfl, rfl, rfl, rfl, rfl, rfl, rfl, rfl, rfl, rfl, rfl, rfl, rfl, rfl, rfl, rfl⟩

@[simp] theorem Chip.updEth_frame (i : Nat) (g : EthPort → EthPort) :
    (c.updEth i g).mfn = c.mfn ∧ (c.updEth i g).out = c.out ∧ (c.updEth i g).free = c.free ∧
    (c.updEth i g).pci = c.pci ∧ (c.updEth i g).fns = c.fns ∧ (c.updEth i g).arbPtr = c.arbPtr ∧
    (c.updEth i g).aqPtr = c.aqPtr ∧ (c.updEth i g).stock = c.stock ∧ (c.updEth i g).owners = c.owners ∧
    (c.updEth i g).wqs = c.wqs ∧ (c.updEth i g).cqs = c.cqs ∧ (c.updEth i g).dbigns = c.dbigns ∧
    (c.updEth i g).evsh = c.evsh ∧ (c.updEth i g).flt = c.flt ∧ (c.updEth i g).hist = c.hist ∧
    (c.updEth i g).ports = c.ports ∧ (c.updEth i g).clus = c.clus ∧ (c.updEth i g).sch = c.sch ∧
    (c.updEth i g).dsp = c.dsp ∧ (c.updEth i g).svc = c.svc ∧ (c.updEth i g).grn = c.grn ∧
    (c.updEth i g).handles = c.handles ∧ (c.updEth i g).ops = c.ops ∧ (c.updEth i g).devs = c.devs ∧
    (c.updEth i g).eps = c.eps ∧ (c.updEth i g).insts = c.insts ∧ (c.updEth i g).pwr = c.pwr ∧
    (c.updEth i g).tst = c.tst ∧ (c.updEth i g).lny = c.lny ∧ (c.updEth i g).tth = c.tth ∧
    (c.updEth i g).cal = c.cal ∧ (c.updEth i g).boot = c.boot ∧ (c.updEth i g).aon = c.aon ∧
    (c.updEth i g).faultN = c.faultN :=
  ⟨rfl, rfl, rfl, rfl, rfl, rfl, rfl, rfl, rfl, rfl, rfl, rfl, rfl, rfl, rfl, rfl, rfl, rfl, rfl, rfl, rfl, rfl, rfl, rfl, rfl, rfl, rfl, rfl, rfl, rfl, rfl, rfl, rfl, rfl⟩

@[simp] theorem Chip.updAssoc_frame (a : Nat) (g : Assoc → Assoc) :
    (c.updAssoc a g).mfn = c.mfn ∧ (c.updAssoc a g).out = c.out ∧ (c.updAssoc a g).free = c.free ∧
    (c.updAssoc a g).pci = c.pci ∧ (c.updAssoc a g).fns = c.fns ∧ (c.updAssoc a g).arbPtr = c.arbPtr ∧
    (c.updAssoc a g).aqPtr = c.aqPtr ∧ (c.updAssoc a g).stock = c.stock ∧ (c.updAssoc a g).owners = c.owners ∧
    (c.updAssoc a g).wqs = c.wqs ∧ (c.updAssoc a g).cqs = c.cqs ∧ (c.updAssoc a g).dbigns = c.dbigns ∧
    (c.updAssoc a g).evsh = c.evsh ∧ (c.updAssoc a g).flt = c.flt ∧ (c.updAssoc a g).hist = c.hist ∧
    (c.updAssoc a g).ports = c.ports ∧ (c.updAssoc a g).clus = c.clus ∧ (c.updAssoc a g).sch = c.sch ∧
    (c.updAssoc a g).dsp = c.dsp ∧ (c.updAssoc a g).svc = c.svc ∧ (c.updAssoc a g).grn = c.grn ∧
    (c.updAssoc a g).handles = c.handles ∧ (c.updAssoc a g).ops = c.ops ∧ (c.updAssoc a g).devs = c.devs ∧
    (c.updAssoc a g).eps = c.eps ∧ (c.updAssoc a g).insts = c.insts ∧ (c.updAssoc a g).pwr = c.pwr ∧
    (c.updAssoc a g).tst = c.tst ∧ (c.updAssoc a g).lny = c.lny ∧ (c.updAssoc a g).tth = c.tth ∧
    (c.updAssoc a g).cal = c.cal ∧ (c.updAssoc a g).boot = c.boot ∧ (c.updAssoc a g).aon = c.aon ∧
    (c.updAssoc a g).faultN = c.faultN :=
  ⟨rfl, rfl, rfl, rfl, rfl, rfl, rfl, rfl, rfl, rfl, rfl, rfl, rfl, rfl, rfl, rfl, rfl, rfl, rfl, rfl, rfl, rfl, rfl, rfl, rfl, rfl, rfl, rfl, rfl, rfl, rfl, rfl, rfl, rfl⟩

@[simp] theorem Chip.updPort_frame (p : Nat) (g : Port → Port) :
    (c.updPort p g).mfn = c.mfn ∧ (c.updPort p g).out = c.out ∧ (c.updPort p g).free = c.free ∧
    (c.updPort p g).pci = c.pci ∧ (c.updPort p g).fns = c.fns ∧ (c.updPort p g).arbPtr = c.arbPtr ∧
    (c.updPort p g).aqPtr = c.aqPtr ∧ (c.updPort p g).stock = c.stock ∧ (c.updPort p g).owners = c.owners ∧
    (c.updPort p g).wqs = c.wqs ∧ (c.updPort p g).cqs = c.cqs ∧ (c.updPort p g).dbigns = c.dbigns ∧
    (c.updPort p g).evsh = c.evsh ∧ (c.updPort p g).flt = c.flt ∧ (c.updPort p g).hist = c.hist ∧
    (c.updPort p g).net = c.net ∧ (c.updPort p g).clus = c.clus ∧ (c.updPort p g).sch = c.sch ∧
    (c.updPort p g).dsp = c.dsp ∧ (c.updPort p g).svc = c.svc ∧ (c.updPort p g).grn = c.grn ∧
    (c.updPort p g).handles = c.handles ∧ (c.updPort p g).ops = c.ops ∧ (c.updPort p g).devs = c.devs ∧
    (c.updPort p g).eps = c.eps ∧ (c.updPort p g).insts = c.insts ∧ (c.updPort p g).pwr = c.pwr ∧
    (c.updPort p g).tst = c.tst ∧ (c.updPort p g).lny = c.lny ∧ (c.updPort p g).tth = c.tth ∧
    (c.updPort p g).cal = c.cal ∧ (c.updPort p g).boot = c.boot ∧ (c.updPort p g).aon = c.aon ∧
    (c.updPort p g).faultN = c.faultN :=
  ⟨rfl, rfl, rfl, rfl, rfl, rfl, rfl, rfl, rfl, rfl, rfl, rfl, rfl, rfl, rfl, rfl, rfl, rfl, rfl, rfl, rfl, rfl, rfl, rfl, rfl, rfl, rfl, rfl, rfl, rfl, rfl, rfl, rfl, rfl⟩

@[simp] theorem Chip.updSc_frame (p : Nat) (g : PortSch → PortSch) :
    (c.updSc p g).mfn = c.mfn ∧ (c.updSc p g).out = c.out ∧ (c.updSc p g).free = c.free ∧ (c.updSc p g).pci = c.pci ∧
    (c.updSc p g).fns = c.fns ∧ (c.updSc p g).arbPtr = c.arbPtr ∧ (c.updSc p g).aqPtr = c.aqPtr ∧
    (c.updSc p g).stock = c.stock ∧ (c.updSc p g).owners = c.owners ∧ (c.updSc p g).wqs = c.wqs ∧
    (c.updSc p g).cqs = c.cqs ∧ (c.updSc p g).dbigns = c.dbigns ∧ (c.updSc p g).evsh = c.evsh ∧
    (c.updSc p g).flt = c.flt ∧ (c.updSc p g).hist = c.hist ∧ (c.updSc p g).net = c.net ∧
    (c.updSc p g).clus = c.clus ∧ (c.updSc p g).sch = c.sch ∧ (c.updSc p g).dsp = c.dsp ∧ (c.updSc p g).svc = c.svc ∧
    (c.updSc p g).grn = c.grn ∧ (c.updSc p g).handles = c.handles ∧ (c.updSc p g).ops = c.ops ∧
    (c.updSc p g).devs = c.devs ∧ (c.updSc p g).eps = c.eps ∧ (c.updSc p g).insts = c.insts ∧
    (c.updSc p g).pwr = c.pwr ∧ (c.updSc p g).tst = c.tst ∧ (c.updSc p g).lny = c.lny ∧ (c.updSc p g).tth = c.tth ∧
    (c.updSc p g).cal = c.cal ∧ (c.updSc p g).boot = c.boot ∧ (c.updSc p g).aon = c.aon ∧
    (c.updSc p g).faultN = c.faultN :=
  ⟨rfl, rfl, rfl, rfl, rfl, rfl, rfl, rfl, rfl, rfl, rfl, rfl, rfl, rfl, rfl, rfl, rfl, rfl, rfl, rfl, rfl, rfl, rfl, rfl, rfl, rfl, rfl, rfl, rfl, rfl, rfl, rfl, rfl, rfl⟩

@[simp] theorem Chip.updPw_frame (p : Nat) (g : PortPwr → PortPwr) :
    (c.updPw p g).mfn = c.mfn ∧ (c.updPw p g).out = c.out ∧ (c.updPw p g).free = c.free ∧ (c.updPw p g).pci = c.pci ∧
    (c.updPw p g).fns = c.fns ∧ (c.updPw p g).arbPtr = c.arbPtr ∧ (c.updPw p g).aqPtr = c.aqPtr ∧
    (c.updPw p g).stock = c.stock ∧ (c.updPw p g).owners = c.owners ∧ (c.updPw p g).wqs = c.wqs ∧
    (c.updPw p g).cqs = c.cqs ∧ (c.updPw p g).dbigns = c.dbigns ∧ (c.updPw p g).evsh = c.evsh ∧
    (c.updPw p g).flt = c.flt ∧ (c.updPw p g).hist = c.hist ∧ (c.updPw p g).net = c.net ∧
    (c.updPw p g).clus = c.clus ∧ (c.updPw p g).sch = c.sch ∧ (c.updPw p g).dsp = c.dsp ∧ (c.updPw p g).svc = c.svc ∧
    (c.updPw p g).grn = c.grn ∧ (c.updPw p g).handles = c.handles ∧ (c.updPw p g).ops = c.ops ∧
    (c.updPw p g).devs = c.devs ∧ (c.updPw p g).eps = c.eps ∧ (c.updPw p g).insts = c.insts ∧
    (c.updPw p g).pwr = c.pwr ∧ (c.updPw p g).tst = c.tst ∧ (c.updPw p g).lny = c.lny ∧ (c.updPw p g).tth = c.tth ∧
    (c.updPw p g).cal = c.cal ∧ (c.updPw p g).boot = c.boot ∧ (c.updPw p g).aon = c.aon ∧
    (c.updPw p g).faultN = c.faultN :=
  ⟨rfl, rfl, rfl, rfl, rfl, rfl, rfl, rfl, rfl, rfl, rfl, rfl, rfl, rfl, rfl, rfl, rfl, rfl, rfl, rfl, rfl, rfl, rfl, rfl, rfl, rfl, rfl, rfl, rfl, rfl, rfl, rfl, rfl, rfl⟩

@[simp] theorem Chip.updRun_frame (p : Nat) (g : EnumRun → EnumRun) :
    (c.updRun p g).mfn = c.mfn ∧ (c.updRun p g).out = c.out ∧ (c.updRun p g).free = c.free ∧
    (c.updRun p g).pci = c.pci ∧ (c.updRun p g).fns = c.fns ∧ (c.updRun p g).arbPtr = c.arbPtr ∧
    (c.updRun p g).aqPtr = c.aqPtr ∧ (c.updRun p g).stock = c.stock ∧ (c.updRun p g).owners = c.owners ∧
    (c.updRun p g).wqs = c.wqs ∧ (c.updRun p g).cqs = c.cqs ∧ (c.updRun p g).dbigns = c.dbigns ∧
    (c.updRun p g).evsh = c.evsh ∧ (c.updRun p g).flt = c.flt ∧ (c.updRun p g).hist = c.hist ∧
    (c.updRun p g).net = c.net ∧ (c.updRun p g).clus = c.clus ∧ (c.updRun p g).sch = c.sch ∧
    (c.updRun p g).dsp = c.dsp ∧ (c.updRun p g).svc = c.svc ∧ (c.updRun p g).grn = c.grn ∧
    (c.updRun p g).handles = c.handles ∧ (c.updRun p g).ops = c.ops ∧ (c.updRun p g).devs = c.devs ∧
    (c.updRun p g).eps = c.eps ∧ (c.updRun p g).insts = c.insts ∧ (c.updRun p g).pwr = c.pwr ∧
    (c.updRun p g).tst = c.tst ∧ (c.updRun p g).lny = c.lny ∧ (c.updRun p g).tth = c.tth ∧
    (c.updRun p g).cal = c.cal ∧ (c.updRun p g).boot = c.boot ∧ (c.updRun p g).aon = c.aon ∧
    (c.updRun p g).faultN = c.faultN :=
  ⟨rfl, rfl, rfl, rfl, rfl, rfl, rfl, rfl, rfl, rfl, rfl, rfl, rfl, rfl, rfl, rfl, rfl, rfl, rfl, rfl, rfl, rfl, rfl, rfl, rfl, rfl, rfl, rfl, rfl, rfl, rfl, rfl, rfl, rfl⟩

@[simp] theorem Chip.updClu_frame (k : Nat) (g : Clu → Clu) :
    (c.updClu k g).mfn = c.mfn ∧ (c.updClu k g).out = c.out ∧ (c.updClu k g).free = c.free ∧
    (c.updClu k g).pci = c.pci ∧ (c.updClu k g).fns = c.fns ∧ (c.updClu k g).arbPtr = c.arbPtr ∧
    (c.updClu k g).aqPtr = c.aqPtr ∧ (c.updClu k g).stock = c.stock ∧ (c.updClu k g).owners = c.owners ∧
    (c.updClu k g).wqs = c.wqs ∧ (c.updClu k g).cqs = c.cqs ∧ (c.updClu k g).dbigns = c.dbigns ∧
    (c.updClu k g).evsh = c.evsh ∧ (c.updClu k g).flt = c.flt ∧ (c.updClu k g).hist = c.hist ∧
    (c.updClu k g).net = c.net ∧ (c.updClu k g).ports = c.ports ∧ (c.updClu k g).sch = c.sch ∧
    (c.updClu k g).dsp = c.dsp ∧ (c.updClu k g).svc = c.svc ∧ (c.updClu k g).grn = c.grn ∧
    (c.updClu k g).handles = c.handles ∧ (c.updClu k g).ops = c.ops ∧ (c.updClu k g).devs = c.devs ∧
    (c.updClu k g).eps = c.eps ∧ (c.updClu k g).insts = c.insts ∧ (c.updClu k g).pwr = c.pwr ∧
    (c.updClu k g).tst = c.tst ∧ (c.updClu k g).lny = c.lny ∧ (c.updClu k g).tth = c.tth ∧
    (c.updClu k g).cal = c.cal ∧ (c.updClu k g).boot = c.boot ∧ (c.updClu k g).aon = c.aon ∧
    (c.updClu k g).faultN = c.faultN :=
  ⟨rfl, rfl, rfl, rfl, rfl, rfl, rfl, rfl, rfl, rfl, rfl, rfl, rfl, rfl, rfl, rfl, rfl, rfl, rfl, rfl, rfl, rfl, rfl, rfl, rfl, rfl, rfl, rfl, rfl, rfl, rfl, rfl, rfl, rfl⟩

@[simp] theorem Chip.updLane_frame (l : Nat) (g : Lane → Lane) :
    (c.updLane l g).mfn = c.mfn ∧ (c.updLane l g).out = c.out ∧ (c.updLane l g).free = c.free ∧
    (c.updLane l g).pci = c.pci ∧ (c.updLane l g).fns = c.fns ∧ (c.updLane l g).arbPtr = c.arbPtr ∧
    (c.updLane l g).aqPtr = c.aqPtr ∧ (c.updLane l g).stock = c.stock ∧ (c.updLane l g).owners = c.owners ∧
    (c.updLane l g).wqs = c.wqs ∧ (c.updLane l g).cqs = c.cqs ∧ (c.updLane l g).dbigns = c.dbigns ∧
    (c.updLane l g).evsh = c.evsh ∧ (c.updLane l g).flt = c.flt ∧ (c.updLane l g).hist = c.hist ∧
    (c.updLane l g).net = c.net ∧ (c.updLane l g).ports = c.ports ∧ (c.updLane l g).clus = c.clus ∧
    (c.updLane l g).sch = c.sch ∧ (c.updLane l g).svc = c.svc ∧ (c.updLane l g).grn = c.grn ∧
    (c.updLane l g).handles = c.handles ∧ (c.updLane l g).ops = c.ops ∧ (c.updLane l g).devs = c.devs ∧
    (c.updLane l g).eps = c.eps ∧ (c.updLane l g).insts = c.insts ∧ (c.updLane l g).pwr = c.pwr ∧
    (c.updLane l g).tst = c.tst ∧ (c.updLane l g).lny = c.lny ∧ (c.updLane l g).tth = c.tth ∧
    (c.updLane l g).cal = c.cal ∧ (c.updLane l g).boot = c.boot ∧ (c.updLane l g).aon = c.aon ∧
    (c.updLane l g).faultN = c.faultN :=
  ⟨rfl, rfl, rfl, rfl, rfl, rfl, rfl, rfl, rfl, rfl, rfl, rfl, rfl, rfl, rfl, rfl, rfl, rfl, rfl, rfl, rfl, rfl, rfl, rfl, rfl, rfl, rfl, rfl, rfl, rfl, rfl, rfl, rfl, rfl⟩

@[simp] theorem Chip.updFlow_frame (i : Nat) (g : Flow → Flow) :
    (c.updFlow i g).mfn = c.mfn ∧ (c.updFlow i g).out = c.out ∧ (c.updFlow i g).free = c.free ∧
    (c.updFlow i g).pci = c.pci ∧ (c.updFlow i g).fns = c.fns ∧ (c.updFlow i g).arbPtr = c.arbPtr ∧
    (c.updFlow i g).aqPtr = c.aqPtr ∧ (c.updFlow i g).stock = c.stock ∧ (c.updFlow i g).owners = c.owners ∧
    (c.updFlow i g).wqs = c.wqs ∧ (c.updFlow i g).cqs = c.cqs ∧ (c.updFlow i g).dbigns = c.dbigns ∧
    (c.updFlow i g).evsh = c.evsh ∧ (c.updFlow i g).flt = c.flt ∧ (c.updFlow i g).hist = c.hist ∧
    (c.updFlow i g).net = c.net ∧ (c.updFlow i g).ports = c.ports ∧ (c.updFlow i g).clus = c.clus ∧
    (c.updFlow i g).sch = c.sch ∧ (c.updFlow i g).svc = c.svc ∧ (c.updFlow i g).grn = c.grn ∧
    (c.updFlow i g).handles = c.handles ∧ (c.updFlow i g).ops = c.ops ∧ (c.updFlow i g).devs = c.devs ∧
    (c.updFlow i g).eps = c.eps ∧ (c.updFlow i g).insts = c.insts ∧ (c.updFlow i g).pwr = c.pwr ∧
    (c.updFlow i g).tst = c.tst ∧ (c.updFlow i g).lny = c.lny ∧ (c.updFlow i g).tth = c.tth ∧
    (c.updFlow i g).cal = c.cal ∧ (c.updFlow i g).boot = c.boot ∧ (c.updFlow i g).aon = c.aon ∧
    (c.updFlow i g).faultN = c.faultN := by
  unfold Chip.updFlow
  cases c.flow i <;> exact ⟨rfl, rfl, rfl, rfl, rfl, rfl, rfl, rfl, rfl, rfl, rfl, rfl, rfl, rfl, rfl, rfl, rfl, rfl, rfl, rfl, rfl, rfl, rfl, rfl, rfl, rfl, rfl, rfl, rfl, rfl, rfl, rfl, rfl, rfl⟩

@[simp] theorem Chip.updDsp_frame (g : Dsp → Dsp) :
    (c.updDsp g).mfn = c.mfn ∧ (c.updDsp g).out = c.out ∧ (c.updDsp g).free = c.free ∧ (c.updDsp g).pci = c.pci ∧
    (c.updDsp g).fns = c.fns ∧ (c.updDsp g).arbPtr = c.arbPtr ∧ (c.updDsp g).aqPtr = c.aqPtr ∧
    (c.updDsp g).stock = c.stock ∧ (c.updDsp g).owners = c.owners ∧ (c.updDsp g).wqs = c.wqs ∧
    (c.updDsp g).cqs = c.cqs ∧ (c.updDsp g).dbigns = c.dbigns ∧ (c.updDsp g).evsh = c.evsh ∧
    (c.updDsp g).flt = c.flt ∧ (c.updDsp g).hist = c.hist ∧ (c.updDsp g).net = c.net ∧ (c.updDsp g).ports = c.ports ∧
    (c.updDsp g).clus = c.clus ∧ (c.updDsp g).sch = c.sch ∧ (c.updDsp g).svc = c.svc ∧ (c.updDsp g).grn = c.grn ∧
    (c.updDsp g).handles = c.handles ∧ (c.updDsp g).ops = c.ops ∧ (c.updDsp g).devs = c.devs ∧
    (c.updDsp g).eps = c.eps ∧ (c.updDsp g).insts = c.insts ∧ (c.updDsp g).pwr = c.pwr ∧ (c.updDsp g).tst = c.tst ∧
    (c.updDsp g).lny = c.lny ∧ (c.updDsp g).tth = c.tth ∧ (c.updDsp g).cal = c.cal ∧ (c.updDsp g).boot = c.boot ∧
    (c.updDsp g).aon = c.aon ∧ (c.updDsp g).faultN = c.faultN :=
  ⟨rfl, rfl, rfl, rfl, rfl, rfl, rfl, rfl, rfl, rfl, rfl, rfl, rfl, rfl, rfl, rfl, rfl, rfl, rfl, rfl, rfl, rfl, rfl, rfl, rfl, rfl, rfl, rfl, rfl, rfl, rfl, rfl, rfl, rfl⟩

@[simp] theorem Chip.updTask_frame (i : Nat) (g : Task → Task) :
    (c.updTask i g).mfn = c.mfn ∧ (c.updTask i g).out = c.out ∧ (c.updTask i g).free = c.free ∧
    (c.updTask i g).pci = c.pci ∧ (c.updTask i g).fns = c.fns ∧ (c.updTask i g).arbPtr = c.arbPtr ∧
    (c.updTask i g).aqPtr = c.aqPtr ∧ (c.updTask i g).stock = c.stock ∧ (c.updTask i g).owners = c.owners ∧
    (c.updTask i g).wqs = c.wqs ∧ (c.updTask i g).cqs = c.cqs ∧ (c.updTask i g).dbigns = c.dbigns ∧
    (c.updTask i g).evsh = c.evsh ∧ (c.updTask i g).flt = c.flt ∧ (c.updTask i g).hist = c.hist ∧
    (c.updTask i g).net = c.net ∧ (c.updTask i g).ports = c.ports ∧ (c.updTask i g).clus = c.clus ∧
    (c.updTask i g).sch = c.sch ∧ (c.updTask i g).svc = c.svc ∧ (c.updTask i g).grn = c.grn ∧
    (c.updTask i g).handles = c.handles ∧ (c.updTask i g).ops = c.ops ∧ (c.updTask i g).devs = c.devs ∧
    (c.updTask i g).eps = c.eps ∧ (c.updTask i g).insts = c.insts ∧ (c.updTask i g).pwr = c.pwr ∧
    (c.updTask i g).tst = c.tst ∧ (c.updTask i g).lny = c.lny ∧ (c.updTask i g).tth = c.tth ∧
    (c.updTask i g).cal = c.cal ∧ (c.updTask i g).boot = c.boot ∧ (c.updTask i g).aon = c.aon ∧
    (c.updTask i g).faultN = c.faultN :=
  ⟨rfl, rfl, rfl, rfl, rfl, rfl, rfl, rfl, rfl, rfl, rfl, rfl, rfl, rfl, rfl, rfl, rfl, rfl, rfl, rfl, rfl, rfl, rfl, rfl, rfl, rfl, rfl, rfl, rfl, rfl, rfl, rfl, rfl, rfl⟩

@[simp] theorem Chip.updGrn_frame (g : Grn → Grn) :
    (c.updGrn g).mfn = c.mfn ∧ (c.updGrn g).out = c.out ∧ (c.updGrn g).free = c.free ∧ (c.updGrn g).pci = c.pci ∧
    (c.updGrn g).fns = c.fns ∧ (c.updGrn g).arbPtr = c.arbPtr ∧ (c.updGrn g).aqPtr = c.aqPtr ∧
    (c.updGrn g).stock = c.stock ∧ (c.updGrn g).owners = c.owners ∧ (c.updGrn g).wqs = c.wqs ∧
    (c.updGrn g).cqs = c.cqs ∧ (c.updGrn g).dbigns = c.dbigns ∧ (c.updGrn g).evsh = c.evsh ∧
    (c.updGrn g).flt = c.flt ∧ (c.updGrn g).hist = c.hist ∧ (c.updGrn g).net = c.net ∧ (c.updGrn g).ports = c.ports ∧
    (c.updGrn g).clus = c.clus ∧ (c.updGrn g).sch = c.sch ∧ (c.updGrn g).dsp = c.dsp ∧ (c.updGrn g).svc = c.svc ∧
    (c.updGrn g).handles = c.handles ∧ (c.updGrn g).ops = c.ops ∧ (c.updGrn g).devs = c.devs ∧
    (c.updGrn g).eps = c.eps ∧ (c.updGrn g).insts = c.insts ∧ (c.updGrn g).pwr = c.pwr ∧ (c.updGrn g).tst = c.tst ∧
    (c.updGrn g).lny = c.lny ∧ (c.updGrn g).tth = c.tth ∧ (c.updGrn g).cal = c.cal ∧ (c.updGrn g).boot = c.boot ∧
    (c.updGrn g).aon = c.aon ∧ (c.updGrn g).faultN = c.faultN :=
  ⟨rfl, rfl, rfl, rfl, rfl, rfl, rfl, rfl, rfl, rfl, rfl, rfl, rfl, rfl, rfl, rfl, rfl, rfl, rfl, rfl, rfl, rfl, rfl, rfl, rfl, rfl, rfl, rfl, rfl, rfl, rfl, rfl, rfl, rfl⟩

@[simp] theorem Chip.updSvc_frame (g : SvcBlk → SvcBlk) :
    (c.updSvc g).mfn = c.mfn ∧ (c.updSvc g).out = c.out ∧ (c.updSvc g).free = c.free ∧ (c.updSvc g).pci = c.pci ∧
    (c.updSvc g).fns = c.fns ∧ (c.updSvc g).arbPtr = c.arbPtr ∧ (c.updSvc g).aqPtr = c.aqPtr ∧
    (c.updSvc g).stock = c.stock ∧ (c.updSvc g).owners = c.owners ∧ (c.updSvc g).wqs = c.wqs ∧
    (c.updSvc g).cqs = c.cqs ∧ (c.updSvc g).dbigns = c.dbigns ∧ (c.updSvc g).evsh = c.evsh ∧
    (c.updSvc g).flt = c.flt ∧ (c.updSvc g).hist = c.hist ∧ (c.updSvc g).net = c.net ∧ (c.updSvc g).ports = c.ports ∧
    (c.updSvc g).clus = c.clus ∧ (c.updSvc g).sch = c.sch ∧ (c.updSvc g).dsp = c.dsp ∧ (c.updSvc g).grn = c.grn ∧
    (c.updSvc g).handles = c.handles ∧ (c.updSvc g).ops = c.ops ∧ (c.updSvc g).devs = c.devs ∧
    (c.updSvc g).eps = c.eps ∧ (c.updSvc g).insts = c.insts ∧ (c.updSvc g).pwr = c.pwr ∧ (c.updSvc g).tst = c.tst ∧
    (c.updSvc g).lny = c.lny ∧ (c.updSvc g).tth = c.tth ∧ (c.updSvc g).cal = c.cal ∧ (c.updSvc g).boot = c.boot ∧
    (c.updSvc g).aon = c.aon ∧ (c.updSvc g).faultN = c.faultN :=
  ⟨rfl, rfl, rfl, rfl, rfl, rfl, rfl, rfl, rfl, rfl, rfl, rfl, rfl, rfl, rfl, rfl, rfl, rfl, rfl, rfl, rfl, rfl, rfl, rfl, rfl, rfl, rfl, rfl, rfl, rfl, rfl, rfl, rfl, rfl⟩

@[simp] theorem Chip.updSch_frame (g : Sch → Sch) :
    (c.updSch g).mfn = c.mfn ∧ (c.updSch g).out = c.out ∧ (c.updSch g).free = c.free ∧ (c.updSch g).pci = c.pci ∧
    (c.updSch g).fns = c.fns ∧ (c.updSch g).arbPtr = c.arbPtr ∧ (c.updSch g).aqPtr = c.aqPtr ∧
    (c.updSch g).stock = c.stock ∧ (c.updSch g).owners = c.owners ∧ (c.updSch g).wqs = c.wqs ∧
    (c.updSch g).cqs = c.cqs ∧ (c.updSch g).dbigns = c.dbigns ∧ (c.updSch g).evsh = c.evsh ∧
    (c.updSch g).flt = c.flt ∧ (c.updSch g).hist = c.hist ∧ (c.updSch g).net = c.net ∧ (c.updSch g).ports = c.ports ∧
    (c.updSch g).clus = c.clus ∧ (c.updSch g).dsp = c.dsp ∧ (c.updSch g).svc = c.svc ∧ (c.updSch g).grn = c.grn ∧
    (c.updSch g).handles = c.handles ∧ (c.updSch g).ops = c.ops ∧ (c.updSch g).devs = c.devs ∧
    (c.updSch g).eps = c.eps ∧ (c.updSch g).insts = c.insts ∧ (c.updSch g).pwr = c.pwr ∧ (c.updSch g).tst = c.tst ∧
    (c.updSch g).lny = c.lny ∧ (c.updSch g).tth = c.tth ∧ (c.updSch g).cal = c.cal ∧ (c.updSch g).boot = c.boot ∧
    (c.updSch g).aon = c.aon ∧ (c.updSch g).faultN = c.faultN :=
  ⟨rfl, rfl, rfl, rfl, rfl, rfl, rfl, rfl, rfl, rfl, rfl, rfl, rfl, rfl, rfl, rfl, rfl, rfl, rfl, rfl, rfl, rfl, rfl, rfl, rfl, rfl, rfl, rfl, rfl, rfl, rfl, rfl, rfl, rfl⟩

@[simp] theorem Chip.updOps_frame (g : Ops → Ops) :
    (c.updOps g).mfn = c.mfn ∧ (c.updOps g).out = c.out ∧ (c.updOps g).free = c.free ∧ (c.updOps g).pci = c.pci ∧
    (c.updOps g).fns = c.fns ∧ (c.updOps g).arbPtr = c.arbPtr ∧ (c.updOps g).aqPtr = c.aqPtr ∧
    (c.updOps g).stock = c.stock ∧ (c.updOps g).owners = c.owners ∧ (c.updOps g).wqs = c.wqs ∧
    (c.updOps g).cqs = c.cqs ∧ (c.updOps g).dbigns = c.dbigns ∧ (c.updOps g).evsh = c.evsh ∧
    (c.updOps g).flt = c.flt ∧ (c.updOps g).hist = c.hist ∧ (c.updOps g).net = c.net ∧ (c.updOps g).ports = c.ports ∧
    (c.updOps g).clus = c.clus ∧ (c.updOps g).sch = c.sch ∧ (c.updOps g).dsp = c.dsp ∧ (c.updOps g).svc = c.svc ∧
    (c.updOps g).grn = c.grn ∧ (c.updOps g).handles = c.handles ∧ (c.updOps g).devs = c.devs ∧
    (c.updOps g).eps = c.eps ∧ (c.updOps g).insts = c.insts ∧ (c.updOps g).pwr = c.pwr ∧ (c.updOps g).tst = c.tst ∧
    (c.updOps g).lny = c.lny ∧ (c.updOps g).tth = c.tth ∧ (c.updOps g).cal = c.cal ∧ (c.updOps g).boot = c.boot ∧
    (c.updOps g).aon = c.aon ∧ (c.updOps g).faultN = c.faultN :=
  ⟨rfl, rfl, rfl, rfl, rfl, rfl, rfl, rfl, rfl, rfl, rfl, rfl, rfl, rfl, rfl, rfl, rfl, rfl, rfl, rfl, rfl, rfl, rfl, rfl, rfl, rfl, rfl, rfl, rfl, rfl, rfl, rfl, rfl, rfl⟩

@[simp] theorem Chip.updOp_frame (i : Nat) (g : Op → Op) :
    (c.updOp i g).mfn = c.mfn ∧ (c.updOp i g).out = c.out ∧ (c.updOp i g).free = c.free ∧ (c.updOp i g).pci = c.pci ∧
    (c.updOp i g).fns = c.fns ∧ (c.updOp i g).arbPtr = c.arbPtr ∧ (c.updOp i g).aqPtr = c.aqPtr ∧
    (c.updOp i g).stock = c.stock ∧ (c.updOp i g).owners = c.owners ∧ (c.updOp i g).wqs = c.wqs ∧
    (c.updOp i g).cqs = c.cqs ∧ (c.updOp i g).dbigns = c.dbigns ∧ (c.updOp i g).evsh = c.evsh ∧
    (c.updOp i g).flt = c.flt ∧ (c.updOp i g).hist = c.hist ∧ (c.updOp i g).net = c.net ∧
    (c.updOp i g).ports = c.ports ∧ (c.updOp i g).clus = c.clus ∧ (c.updOp i g).sch = c.sch ∧
    (c.updOp i g).dsp = c.dsp ∧ (c.updOp i g).svc = c.svc ∧ (c.updOp i g).grn = c.grn ∧
    (c.updOp i g).handles = c.handles ∧ (c.updOp i g).devs = c.devs ∧ (c.updOp i g).eps = c.eps ∧
    (c.updOp i g).insts = c.insts ∧ (c.updOp i g).pwr = c.pwr ∧ (c.updOp i g).tst = c.tst ∧
    (c.updOp i g).lny = c.lny ∧ (c.updOp i g).tth = c.tth ∧ (c.updOp i g).cal = c.cal ∧ (c.updOp i g).boot = c.boot ∧
    (c.updOp i g).aon = c.aon ∧ (c.updOp i g).faultN = c.faultN :=
  ⟨rfl, rfl, rfl, rfl, rfl, rfl, rfl, rfl, rfl, rfl, rfl, rfl, rfl, rfl, rfl, rfl, rfl, rfl, rfl, rfl, rfl, rfl, rfl, rfl, rfl, rfl, rfl, rfl, rfl, rfl, rfl, rfl, rfl, rfl⟩

@[simp] theorem Chip.updDev_frame (h : Nat) (g : Dev → Dev) :
    (c.updDev h g).mfn = c.mfn ∧ (c.updDev h g).out = c.out ∧ (c.updDev h g).free = c.free ∧
    (c.updDev h g).pci = c.pci ∧ (c.updDev h g).fns = c.fns ∧ (c.updDev h g).arbPtr = c.arbPtr ∧
    (c.updDev h g).aqPtr = c.aqPtr ∧ (c.updDev h g).stock = c.stock ∧ (c.updDev h g).owners = c.owners ∧
    (c.updDev h g).wqs = c.wqs ∧ (c.updDev h g).cqs = c.cqs ∧ (c.updDev h g).dbigns = c.dbigns ∧
    (c.updDev h g).evsh = c.evsh ∧ (c.updDev h g).flt = c.flt ∧ (c.updDev h g).hist = c.hist ∧
    (c.updDev h g).net = c.net ∧ (c.updDev h g).ports = c.ports ∧ (c.updDev h g).clus = c.clus ∧
    (c.updDev h g).sch = c.sch ∧ (c.updDev h g).dsp = c.dsp ∧ (c.updDev h g).svc = c.svc ∧
    (c.updDev h g).grn = c.grn ∧ (c.updDev h g).handles = c.handles ∧ (c.updDev h g).ops = c.ops ∧
    (c.updDev h g).eps = c.eps ∧ (c.updDev h g).insts = c.insts ∧ (c.updDev h g).pwr = c.pwr ∧
    (c.updDev h g).tst = c.tst ∧ (c.updDev h g).lny = c.lny ∧ (c.updDev h g).tth = c.tth ∧
    (c.updDev h g).cal = c.cal ∧ (c.updDev h g).boot = c.boot ∧ (c.updDev h g).aon = c.aon ∧
    (c.updDev h g).faultN = c.faultN := by
  unfold Chip.updDev
  cases c.dev h <;> exact ⟨rfl, rfl, rfl, rfl, rfl, rfl, rfl, rfl, rfl, rfl, rfl, rfl, rfl, rfl, rfl, rfl, rfl, rfl, rfl, rfl, rfl, rfl, rfl, rfl, rfl, rfl, rfl, rfl, rfl, rfl, rfl, rfl, rfl, rfl⟩

@[simp] theorem Chip.updEp_frame (h : Nat) (g : Ep → Ep) :
    (c.updEp h g).mfn = c.mfn ∧ (c.updEp h g).out = c.out ∧ (c.updEp h g).free = c.free ∧ (c.updEp h g).pci = c.pci ∧
    (c.updEp h g).fns = c.fns ∧ (c.updEp h g).arbPtr = c.arbPtr ∧ (c.updEp h g).aqPtr = c.aqPtr ∧
    (c.updEp h g).stock = c.stock ∧ (c.updEp h g).owners = c.owners ∧ (c.updEp h g).wqs = c.wqs ∧
    (c.updEp h g).cqs = c.cqs ∧ (c.updEp h g).dbigns = c.dbigns ∧ (c.updEp h g).evsh = c.evsh ∧
    (c.updEp h g).flt = c.flt ∧ (c.updEp h g).hist = c.hist ∧ (c.updEp h g).net = c.net ∧
    (c.updEp h g).ports = c.ports ∧ (c.updEp h g).clus = c.clus ∧ (c.updEp h g).sch = c.sch ∧
    (c.updEp h g).dsp = c.dsp ∧ (c.updEp h g).svc = c.svc ∧ (c.updEp h g).grn = c.grn ∧
    (c.updEp h g).handles = c.handles ∧ (c.updEp h g).ops = c.ops ∧ (c.updEp h g).devs = c.devs ∧
    (c.updEp h g).insts = c.insts ∧ (c.updEp h g).pwr = c.pwr ∧ (c.updEp h g).tst = c.tst ∧
    (c.updEp h g).lny = c.lny ∧ (c.updEp h g).tth = c.tth ∧ (c.updEp h g).cal = c.cal ∧ (c.updEp h g).boot = c.boot ∧
    (c.updEp h g).aon = c.aon ∧ (c.updEp h g).faultN = c.faultN := by
  unfold Chip.updEp
  cases c.ep h <;> exact ⟨rfl, rfl, rfl, rfl, rfl, rfl, rfl, rfl, rfl, rfl, rfl, rfl, rfl, rfl, rfl, rfl, rfl, rfl, rfl, rfl, rfl, rfl, rfl, rfl, rfl, rfl, rfl, rfl, rfl, rfl, rfl, rfl, rfl, rfl⟩

@[simp] theorem Chip.updInst_frame (h : Nat) (g : Inst → Inst) :
    (c.updInst h g).mfn = c.mfn ∧ (c.updInst h g).out = c.out ∧ (c.updInst h g).free = c.free ∧
    (c.updInst h g).pci = c.pci ∧ (c.updInst h g).fns = c.fns ∧ (c.updInst h g).arbPtr = c.arbPtr ∧
    (c.updInst h g).aqPtr = c.aqPtr ∧ (c.updInst h g).stock = c.stock ∧ (c.updInst h g).owners = c.owners ∧
    (c.updInst h g).wqs = c.wqs ∧ (c.updInst h g).cqs = c.cqs ∧ (c.updInst h g).dbigns = c.dbigns ∧
    (c.updInst h g).evsh = c.evsh ∧ (c.updInst h g).flt = c.flt ∧ (c.updInst h g).hist = c.hist ∧
    (c.updInst h g).net = c.net ∧ (c.updInst h g).ports = c.ports ∧ (c.updInst h g).clus = c.clus ∧
    (c.updInst h g).sch = c.sch ∧ (c.updInst h g).dsp = c.dsp ∧ (c.updInst h g).svc = c.svc ∧
    (c.updInst h g).grn = c.grn ∧ (c.updInst h g).handles = c.handles ∧ (c.updInst h g).ops = c.ops ∧
    (c.updInst h g).devs = c.devs ∧ (c.updInst h g).eps = c.eps ∧ (c.updInst h g).pwr = c.pwr ∧
    (c.updInst h g).tst = c.tst ∧ (c.updInst h g).lny = c.lny ∧ (c.updInst h g).tth = c.tth ∧
    (c.updInst h g).cal = c.cal ∧ (c.updInst h g).boot = c.boot ∧ (c.updInst h g).aon = c.aon ∧
    (c.updInst h g).faultN = c.faultN := by
  unfold Chip.updInst
  cases c.inst h <;> exact ⟨rfl, rfl, rfl, rfl, rfl, rfl, rfl, rfl, rfl, rfl, rfl, rfl, rfl, rfl, rfl, rfl, rfl, rfl, rfl, rfl, rfl, rfl, rfl, rfl, rfl, rfl, rfl, rfl, rfl, rfl, rfl, rfl, rfl, rfl⟩

@[simp] theorem Chip.updOwn_frame (p : Nat) (g : PortOwn → PortOwn) :
    (c.updOwn p g).mfn = c.mfn ∧ (c.updOwn p g).out = c.out ∧ (c.updOwn p g).free = c.free ∧
    (c.updOwn p g).pci = c.pci ∧ (c.updOwn p g).fns = c.fns ∧ (c.updOwn p g).arbPtr = c.arbPtr ∧
    (c.updOwn p g).aqPtr = c.aqPtr ∧ (c.updOwn p g).stock = c.stock ∧ (c.updOwn p g).wqs = c.wqs ∧
    (c.updOwn p g).cqs = c.cqs ∧ (c.updOwn p g).dbigns = c.dbigns ∧ (c.updOwn p g).evsh = c.evsh ∧
    (c.updOwn p g).flt = c.flt ∧ (c.updOwn p g).hist = c.hist ∧ (c.updOwn p g).net = c.net ∧
    (c.updOwn p g).ports = c.ports ∧ (c.updOwn p g).clus = c.clus ∧ (c.updOwn p g).sch = c.sch ∧
    (c.updOwn p g).dsp = c.dsp ∧ (c.updOwn p g).svc = c.svc ∧ (c.updOwn p g).grn = c.grn ∧
    (c.updOwn p g).handles = c.handles ∧ (c.updOwn p g).ops = c.ops ∧ (c.updOwn p g).devs = c.devs ∧
    (c.updOwn p g).eps = c.eps ∧ (c.updOwn p g).insts = c.insts ∧ (c.updOwn p g).pwr = c.pwr ∧
    (c.updOwn p g).tst = c.tst ∧ (c.updOwn p g).lny = c.lny ∧ (c.updOwn p g).tth = c.tth ∧
    (c.updOwn p g).cal = c.cal ∧ (c.updOwn p g).boot = c.boot ∧ (c.updOwn p g).aon = c.aon ∧
    (c.updOwn p g).faultN = c.faultN :=
  ⟨rfl, rfl, rfl, rfl, rfl, rfl, rfl, rfl, rfl, rfl, rfl, rfl, rfl, rfl, rfl, rfl, rfl, rfl, rfl, rfl, rfl, rfl, rfl, rfl, rfl, rfl, rfl, rfl, rfl, rfl, rfl, rfl, rfl, rfl⟩

@[simp] theorem Chip.emit_frame (o : Out) :
    (c.emit o).mfn = c.mfn ∧ (c.emit o).free = c.free ∧ (c.emit o).pci = c.pci ∧ (c.emit o).fns = c.fns ∧
    (c.emit o).arbPtr = c.arbPtr ∧ (c.emit o).aqPtr = c.aqPtr ∧ (c.emit o).stock = c.stock ∧
    (c.emit o).owners = c.owners ∧ (c.emit o).wqs = c.wqs ∧ (c.emit o).cqs = c.cqs ∧ (c.emit o).dbigns = c.dbigns ∧
    (c.emit o).evsh = c.evsh ∧ (c.emit o).flt = c.flt ∧ (c.emit o).hist = c.hist ∧ (c.emit o).net = c.net ∧
    (c.emit o).ports = c.ports ∧ (c.emit o).clus = c.clus ∧ (c.emit o).sch = c.sch ∧ (c.emit o).dsp = c.dsp ∧
    (c.emit o).svc = c.svc ∧ (c.emit o).grn = c.grn ∧ (c.emit o).handles = c.handles ∧ (c.emit o).ops = c.ops ∧
    (c.emit o).devs = c.devs ∧ (c.emit o).eps = c.eps ∧ (c.emit o).insts = c.insts ∧ (c.emit o).pwr = c.pwr ∧
    (c.emit o).tst = c.tst ∧ (c.emit o).lny = c.lny ∧ (c.emit o).tth = c.tth ∧ (c.emit o).cal = c.cal ∧
    (c.emit o).boot = c.boot ∧ (c.emit o).aon = c.aon ∧ (c.emit o).faultN = c.faultN :=
  ⟨rfl, rfl, rfl, rfl, rfl, rfl, rfl, rfl, rfl, rfl, rfl, rfl, rfl, rfl, rfl, rfl, rfl, rfl, rfl, rfl, rfl, rfl, rfl, rfl, rfl, rfl, rfl, rfl, rfl, rfl, rfl, rfl, rfl, rfl⟩

@[simp] theorem Chip.fresh_frame :
    (c.fresh.2).mfn = c.mfn ∧ (c.fresh.2).out = c.out ∧ (c.fresh.2).pci = c.pci ∧ (c.fresh.2).fns = c.fns ∧
    (c.fresh.2).arbPtr = c.arbPtr ∧ (c.fresh.2).aqPtr = c.aqPtr ∧ (c.fresh.2).stock = c.stock ∧
    (c.fresh.2).owners = c.owners ∧ (c.fresh.2).wqs = c.wqs ∧ (c.fresh.2).cqs = c.cqs ∧
    (c.fresh.2).dbigns = c.dbigns ∧ (c.fresh.2).evsh = c.evsh ∧ (c.fresh.2).flt = c.flt ∧ (c.fresh.2).hist = c.hist ∧
    (c.fresh.2).net = c.net ∧ (c.fresh.2).ports = c.ports ∧ (c.fresh.2).clus = c.clus ∧ (c.fresh.2).sch = c.sch ∧
    (c.fresh.2).dsp = c.dsp ∧ (c.fresh.2).svc = c.svc ∧ (c.fresh.2).grn = c.grn ∧ (c.fresh.2).handles = c.handles ∧
    (c.fresh.2).ops = c.ops ∧ (c.fresh.2).devs = c.devs ∧ (c.fresh.2).eps = c.eps ∧ (c.fresh.2).insts = c.insts ∧
    (c.fresh.2).pwr = c.pwr ∧ (c.fresh.2).tst = c.tst ∧ (c.fresh.2).lny = c.lny ∧ (c.fresh.2).tth = c.tth ∧
    (c.fresh.2).cal = c.cal ∧ (c.fresh.2).boot = c.boot ∧ (c.fresh.2).aon = c.aon ∧ (c.fresh.2).faultN = c.faultN :=
  ⟨rfl, rfl, rfl, rfl, rfl, rfl, rfl, rfl, rfl, rfl, rfl, rfl, rfl, rfl, rfl, rfl, rfl, rfl, rfl, rfl, rfl, rfl, rfl, rfl, rfl, rfl, rfl, rfl, rfl, rfl, rfl, rfl, rfl, rfl⟩

@[simp] theorem Chip.updTst_frame (g : Tst → Tst) :
    (c.updTst g).mfn = c.mfn ∧ (c.updTst g).out = c.out ∧ (c.updTst g).free = c.free ∧ (c.updTst g).pci = c.pci ∧
    (c.updTst g).fns = c.fns ∧ (c.updTst g).arbPtr = c.arbPtr ∧ (c.updTst g).aqPtr = c.aqPtr ∧
    (c.updTst g).stock = c.stock ∧ (c.updTst g).owners = c.owners ∧ (c.updTst g).wqs = c.wqs ∧
    (c.updTst g).cqs = c.cqs ∧ (c.updTst g).dbigns = c.dbigns ∧ (c.updTst g).evsh = c.evsh ∧
    (c.updTst g).flt = c.flt ∧ (c.updTst g).hist = c.hist ∧ (c.updTst g).net = c.net ∧ (c.updTst g).ports = c.ports ∧
    (c.updTst g).clus = c.clus ∧ (c.updTst g).sch = c.sch ∧ (c.updTst g).dsp = c.dsp ∧ (c.updTst g).svc = c.svc ∧
    (c.updTst g).grn = c.grn ∧ (c.updTst g).handles = c.handles ∧ (c.updTst g).ops = c.ops ∧
    (c.updTst g).devs = c.devs ∧ (c.updTst g).eps = c.eps ∧ (c.updTst g).insts = c.insts ∧ (c.updTst g).pwr = c.pwr ∧
    (c.updTst g).lny = c.lny ∧ (c.updTst g).tth = c.tth ∧ (c.updTst g).cal = c.cal ∧ (c.updTst g).boot = c.boot ∧
    (c.updTst g).aon = c.aon ∧ (c.updTst g).faultN = c.faultN :=
  ⟨rfl, rfl, rfl, rfl, rfl, rfl, rfl, rfl, rfl, rfl, rfl, rfl, rfl, rfl, rfl, rfl, rfl, rfl, rfl, rfl, rfl, rfl, rfl, rfl, rfl, rfl, rfl, rfl, rfl, rfl, rfl, rfl, rfl, rfl⟩

@[simp] theorem Chip.updTstClu_frame (k : Nat) (g : TstClu → TstClu) :
    (c.updTstClu k g).mfn = c.mfn ∧ (c.updTstClu k g).out = c.out ∧ (c.updTstClu k g).free = c.free ∧
    (c.updTstClu k g).pci = c.pci ∧ (c.updTstClu k g).fns = c.fns ∧ (c.updTstClu k g).arbPtr = c.arbPtr ∧
    (c.updTstClu k g).aqPtr = c.aqPtr ∧ (c.updTstClu k g).stock = c.stock ∧ (c.updTstClu k g).owners = c.owners ∧
    (c.updTstClu k g).wqs = c.wqs ∧ (c.updTstClu k g).cqs = c.cqs ∧ (c.updTstClu k g).dbigns = c.dbigns ∧
    (c.updTstClu k g).evsh = c.evsh ∧ (c.updTstClu k g).flt = c.flt ∧ (c.updTstClu k g).hist = c.hist ∧
    (c.updTstClu k g).net = c.net ∧ (c.updTstClu k g).ports = c.ports ∧ (c.updTstClu k g).clus = c.clus ∧
    (c.updTstClu k g).sch = c.sch ∧ (c.updTstClu k g).dsp = c.dsp ∧ (c.updTstClu k g).svc = c.svc ∧
    (c.updTstClu k g).grn = c.grn ∧ (c.updTstClu k g).handles = c.handles ∧ (c.updTstClu k g).ops = c.ops ∧
    (c.updTstClu k g).devs = c.devs ∧ (c.updTstClu k g).eps = c.eps ∧ (c.updTstClu k g).insts = c.insts ∧
    (c.updTstClu k g).pwr = c.pwr ∧ (c.updTstClu k g).lny = c.lny ∧ (c.updTstClu k g).tth = c.tth ∧
    (c.updTstClu k g).cal = c.cal ∧ (c.updTstClu k g).boot = c.boot ∧ (c.updTstClu k g).aon = c.aon ∧
    (c.updTstClu k g).faultN = c.faultN :=
  ⟨rfl, rfl, rfl, rfl, rfl, rfl, rfl, rfl, rfl, rfl, rfl, rfl, rfl, rfl, rfl, rfl, rfl, rfl, rfl, rfl, rfl, rfl, rfl, rfl, rfl, rfl, rfl, rfl, rfl, rfl, rfl, rfl, rfl, rfl⟩

@[simp] theorem Chip.updPwr_frame (g : Pwr → Pwr) :
    (c.updPwr g).mfn = c.mfn ∧ (c.updPwr g).out = c.out ∧ (c.updPwr g).free = c.free ∧ (c.updPwr g).pci = c.pci ∧
    (c.updPwr g).fns = c.fns ∧ (c.updPwr g).arbPtr = c.arbPtr ∧ (c.updPwr g).aqPtr = c.aqPtr ∧
    (c.updPwr g).stock = c.stock ∧ (c.updPwr g).owners = c.owners ∧ (c.updPwr g).wqs = c.wqs ∧
    (c.updPwr g).cqs = c.cqs ∧ (c.updPwr g).dbigns = c.dbigns ∧ (c.updPwr g).evsh = c.evsh ∧
    (c.updPwr g).flt = c.flt ∧ (c.updPwr g).hist = c.hist ∧ (c.updPwr g).net = c.net ∧ (c.updPwr g).ports = c.ports ∧
    (c.updPwr g).clus = c.clus ∧ (c.updPwr g).sch = c.sch ∧ (c.updPwr g).dsp = c.dsp ∧ (c.updPwr g).svc = c.svc ∧
    (c.updPwr g).grn = c.grn ∧ (c.updPwr g).handles = c.handles ∧ (c.updPwr g).ops = c.ops ∧
    (c.updPwr g).devs = c.devs ∧ (c.updPwr g).eps = c.eps ∧ (c.updPwr g).insts = c.insts ∧ (c.updPwr g).tst = c.tst ∧
    (c.updPwr g).lny = c.lny ∧ (c.updPwr g).tth = c.tth ∧ (c.updPwr g).cal = c.cal ∧ (c.updPwr g).boot = c.boot ∧
    (c.updPwr g).aon = c.aon ∧ (c.updPwr g).faultN = c.faultN :=
  ⟨rfl, rfl, rfl, rfl, rfl, rfl, rfl, rfl, rfl, rfl, rfl, rfl, rfl, rfl, rfl, rfl, rfl, rfl, rfl, rfl, rfl, rfl, rfl, rfl, rfl, rfl, rfl, rfl, rfl, rfl, rfl, rfl, rfl, rfl⟩

@[simp] theorem Chip.updLny_frame (g : Lny → Lny) :
    (c.updLny g).mfn = c.mfn ∧ (c.updLny g).out = c.out ∧ (c.updLny g).free = c.free ∧ (c.updLny g).pci = c.pci ∧
    (c.updLny g).fns = c.fns ∧ (c.updLny g).arbPtr = c.arbPtr ∧ (c.updLny g).aqPtr = c.aqPtr ∧
    (c.updLny g).stock = c.stock ∧ (c.updLny g).owners = c.owners ∧ (c.updLny g).wqs = c.wqs ∧
    (c.updLny g).cqs = c.cqs ∧ (c.updLny g).dbigns = c.dbigns ∧ (c.updLny g).evsh = c.evsh ∧
    (c.updLny g).flt = c.flt ∧ (c.updLny g).hist = c.hist ∧ (c.updLny g).net = c.net ∧ (c.updLny g).ports = c.ports ∧
    (c.updLny g).clus = c.clus ∧ (c.updLny g).sch = c.sch ∧ (c.updLny g).dsp = c.dsp ∧ (c.updLny g).svc = c.svc ∧
    (c.updLny g).grn = c.grn ∧ (c.updLny g).handles = c.handles ∧ (c.updLny g).ops = c.ops ∧
    (c.updLny g).devs = c.devs ∧ (c.updLny g).eps = c.eps ∧ (c.updLny g).insts = c.insts ∧ (c.updLny g).pwr = c.pwr ∧
    (c.updLny g).tst = c.tst ∧ (c.updLny g).tth = c.tth ∧ (c.updLny g).cal = c.cal ∧ (c.updLny g).boot = c.boot ∧
    (c.updLny g).aon = c.aon ∧ (c.updLny g).faultN = c.faultN :=
  ⟨rfl, rfl, rfl, rfl, rfl, rfl, rfl, rfl, rfl, rfl, rfl, rfl, rfl, rfl, rfl, rfl, rfl, rfl, rfl, rfl, rfl, rfl, rfl, rfl, rfl, rfl, rfl, rfl, rfl, rfl, rfl, rfl, rfl, rfl⟩

@[simp] theorem Chip.updTth_frame (g : Tth → Tth) :
    (c.updTth g).mfn = c.mfn ∧ (c.updTth g).out = c.out ∧ (c.updTth g).free = c.free ∧ (c.updTth g).pci = c.pci ∧
    (c.updTth g).fns = c.fns ∧ (c.updTth g).arbPtr = c.arbPtr ∧ (c.updTth g).aqPtr = c.aqPtr ∧
    (c.updTth g).stock = c.stock ∧ (c.updTth g).owners = c.owners ∧ (c.updTth g).wqs = c.wqs ∧
    (c.updTth g).cqs = c.cqs ∧ (c.updTth g).dbigns = c.dbigns ∧ (c.updTth g).evsh = c.evsh ∧
    (c.updTth g).flt = c.flt ∧ (c.updTth g).hist = c.hist ∧ (c.updTth g).net = c.net ∧ (c.updTth g).ports = c.ports ∧
    (c.updTth g).clus = c.clus ∧ (c.updTth g).sch = c.sch ∧ (c.updTth g).dsp = c.dsp ∧ (c.updTth g).svc = c.svc ∧
    (c.updTth g).grn = c.grn ∧ (c.updTth g).handles = c.handles ∧ (c.updTth g).ops = c.ops ∧
    (c.updTth g).devs = c.devs ∧ (c.updTth g).eps = c.eps ∧ (c.updTth g).insts = c.insts ∧ (c.updTth g).pwr = c.pwr ∧
    (c.updTth g).tst = c.tst ∧ (c.updTth g).lny = c.lny ∧ (c.updTth g).cal = c.cal ∧ (c.updTth g).boot = c.boot ∧
    (c.updTth g).aon = c.aon ∧ (c.updTth g).faultN = c.faultN :=
  ⟨rfl, rfl, rfl, rfl, rfl, rfl, rfl, rfl, rfl, rfl, rfl, rfl, rfl, rfl, rfl, rfl, rfl, rfl, rfl, rfl, rfl, rfl, rfl, rfl, rfl, rfl, rfl, rfl, rfl, rfl, rfl, rfl, rfl, rfl⟩

@[simp] theorem Chip.updCal_frame (t : Nat) (g : CalSlot → CalSlot) :
    (c.updCal t g).mfn = c.mfn ∧ (c.updCal t g).out = c.out ∧ (c.updCal t g).free = c.free ∧
    (c.updCal t g).pci = c.pci ∧ (c.updCal t g).fns = c.fns ∧ (c.updCal t g).arbPtr = c.arbPtr ∧
    (c.updCal t g).aqPtr = c.aqPtr ∧ (c.updCal t g).stock = c.stock ∧ (c.updCal t g).owners = c.owners ∧
    (c.updCal t g).wqs = c.wqs ∧ (c.updCal t g).cqs = c.cqs ∧ (c.updCal t g).dbigns = c.dbigns ∧
    (c.updCal t g).evsh = c.evsh ∧ (c.updCal t g).flt = c.flt ∧ (c.updCal t g).hist = c.hist ∧
    (c.updCal t g).net = c.net ∧ (c.updCal t g).ports = c.ports ∧ (c.updCal t g).clus = c.clus ∧
    (c.updCal t g).sch = c.sch ∧ (c.updCal t g).dsp = c.dsp ∧ (c.updCal t g).svc = c.svc ∧
    (c.updCal t g).grn = c.grn ∧ (c.updCal t g).handles = c.handles ∧ (c.updCal t g).ops = c.ops ∧
    (c.updCal t g).devs = c.devs ∧ (c.updCal t g).eps = c.eps ∧ (c.updCal t g).insts = c.insts ∧
    (c.updCal t g).pwr = c.pwr ∧ (c.updCal t g).tst = c.tst ∧ (c.updCal t g).lny = c.lny ∧
    (c.updCal t g).tth = c.tth ∧ (c.updCal t g).boot = c.boot ∧ (c.updCal t g).aon = c.aon ∧
    (c.updCal t g).faultN = c.faultN :=
  ⟨rfl, rfl, rfl, rfl, rfl, rfl, rfl, rfl, rfl, rfl, rfl, rfl, rfl, rfl, rfl, rfl, rfl, rfl, rfl, rfl, rfl, rfl, rfl, rfl, rfl, rfl, rfl, rfl, rfl, rfl, rfl, rfl, rfl, rfl⟩

@[simp] theorem Chip.report_frame (src kind : Nat) (addr : Nat) :
    (c.report src kind addr).mfn = c.mfn ∧ (c.report src kind addr).out = c.out ∧
    (c.report src kind addr).free = c.free ∧ (c.report src kind addr).pci = c.pci ∧
    (c.report src kind addr).fns = c.fns ∧ (c.report src kind addr).arbPtr = c.arbPtr ∧
    (c.report src kind addr).aqPtr = c.aqPtr ∧ (c.report src kind addr).stock = c.stock ∧
    (c.report src kind addr).owners = c.owners ∧ (c.report src kind addr).wqs = c.wqs ∧
    (c.report src kind addr).cqs = c.cqs ∧ (c.report src kind addr).dbigns = c.dbigns ∧
    (c.report src kind addr).evsh = c.evsh ∧ (c.report src kind addr).hist = c.hist ∧
    (c.report src kind addr).net = c.net ∧ (c.report src kind addr).ports = c.ports ∧
    (c.report src kind addr).clus = c.clus ∧ (c.report src kind addr).sch = c.sch ∧
    (c.report src kind addr).dsp = c.dsp ∧ (c.report src kind addr).svc = c.svc ∧
    (c.report src kind addr).grn = c.grn ∧ (c.report src kind addr).handles = c.handles ∧
    (c.report src kind addr).ops = c.ops ∧ (c.report src kind addr).devs = c.devs ∧
    (c.report src kind addr).eps = c.eps ∧ (c.report src kind addr).insts = c.insts ∧
    (c.report src kind addr).pwr = c.pwr ∧ (c.report src kind addr).tst = c.tst ∧
    (c.report src kind addr).lny = c.lny ∧ (c.report src kind addr).tth = c.tth ∧
    (c.report src kind addr).cal = c.cal ∧ (c.report src kind addr).boot = c.boot ∧
    (c.report src kind addr).aon = c.aon ∧ (c.report src kind addr).faultN = c.faultN := by
  unfold Chip.report
  repeat' apply And.intro
  all_goals dsimp only; split <;> rfl

/-! ### What is changed -/

@[simp] theorem Chip.updPwr_pwr (g : Pwr → Pwr) : (c.updPwr g).pwr = g c.pwr := rfl
@[simp] theorem Chip.updTst_tst (g : Tst → Tst) : (c.updTst g).tst = g c.tst := rfl
@[simp] theorem Chip.updLny_lny (g : Lny → Lny) : (c.updLny g).lny = g c.lny := rfl
@[simp] theorem Chip.updTth_tth (g : Tth → Tth) : (c.updTth g).tth = g c.tth := rfl
@[simp] theorem Chip.updGrn_grn (g : Grn → Grn) : (c.updGrn g).grn = g c.grn := rfl
@[simp] theorem Chip.updSvc_svc (g : SvcBlk → SvcBlk) : (c.updSvc g).svc = g c.svc := rfl
@[simp] theorem Chip.updSch_sch (g : Sch → Sch) : (c.updSch g).sch = g c.sch := rfl
@[simp] theorem Chip.updOps_ops (g : Ops → Ops) : (c.updOps g).ops = g c.ops := rfl
@[simp] theorem Chip.updDsp_dsp (g : Dsp → Dsp) : (c.updDsp g).dsp = g c.dsp := rfl
@[simp] theorem Chip.emit_out (x : Out) : (c.emit x).out = c.out ++ [x] := rfl
@[simp] theorem Chip.fresh_free : c.fresh.2.free = c.free + 1 := rfl

@[simp] theorem Chip.updFn_same (f : Nat) (g : Fun → Fun) : (c.updFn f g).fn f = g (c.fn f) := Tab.get_upd_same ..
theorem Chip.updFn_ne {f j : Nat} (g : Fun → Fun) (h : j ≠ f) : (c.updFn f g).fn j = c.fn j := Tab.get_upd_ne _ _ _ h
@[simp] theorem Chip.updFltSrc_same (s : Nat) (g : FltSrc → FltSrc) : (c.updFltSrc s g).fltSrc s = g (c.fltSrc s) := Tab.get_upd_same ..
theorem Chip.updFltSrc_ne {s j : Nat} (g : FltSrc → FltSrc) (h : j ≠ s) : (c.updFltSrc s g).fltSrc j = c.fltSrc j := Tab.get_upd_ne _ _ _ h
@[simp] theorem Chip.updSh_same (s : Nat) (g : ShSrc → ShSrc) : (c.updSh s g).sh s = g (c.sh s) := Tab.get_upd_same ..
theorem Chip.updSh_ne {s j : Nat} (g : ShSrc → ShSrc) (h : j ≠ s) : (c.updSh s g).sh j = c.sh j := Tab.get_upd_ne _ _ _ h
@[simp] theorem Chip.updPort_same (p : Nat) (g : Port → Port) : (c.updPort p g).port p = g (c.port p) := Tab.get_upd_same ..
theorem Chip.updPort_ne {p j : Nat} (g : Port → Port) (h : j ≠ p) : (c.updPort p g).port j = c.port j := Tab.get_upd_ne _ _ _ h
@[simp] theorem Chip.updClu_same (k : Nat) (g : Clu → Clu) : (c.updClu k g).clu k = g (c.clu k) := Tab.get_upd_same ..
theorem Chip.updClu_ne {k j : Nat} (g : Clu → Clu) (h : j ≠ k) : (c.updClu k g).clu j = c.clu j := Tab.get_upd_ne _ _ _ h
@[simp] theorem Chip.updLane_same (l : Nat) (g : Lane → Lane) : (c.updLane l g).lane l = g (c.lane l) := Tab.get_upd_same ..
theorem Chip.updLane_ne {l j : Nat} (g : Lane → Lane) (h : j ≠ l) : (c.updLane l g).lane j = c.lane j := Tab.get_upd_ne _ _ _ h
@[simp] theorem Chip.updEth_same (i : Nat) (g : EthPort → EthPort) : (c.updEth i g).eth i = g (c.eth i) := Tab.get_upd_same ..
theorem Chip.updEth_ne {i j : Nat} (g : EthPort → EthPort) (h : j ≠ i) : (c.updEth i g).eth j = c.eth j := Tab.get_upd_ne _ _ _ h
@[simp] theorem Chip.updAssoc_same (a : Nat) (g : Assoc → Assoc) : (c.updAssoc a g).assoc a = g (c.assoc a) := Tab.get_upd_same ..
theorem Chip.updAssoc_ne {a j : Nat} (g : Assoc → Assoc) (h : j ≠ a) : (c.updAssoc a g).assoc j = c.assoc j := Tab.get_upd_ne _ _ _ h
@[simp] theorem Chip.updOwn_same (p : Nat) (g : PortOwn → PortOwn) : (c.updOwn p g).own p = g (c.own p) := Tab.get_upd_same ..
theorem Chip.updOwn_ne {p j : Nat} (g : PortOwn → PortOwn) (h : j ≠ p) : (c.updOwn p g).own j = c.own j := Tab.get_upd_ne _ _ _ h

@[simp] theorem Chip.updDev_same (h : Nat) (g : Dev → Dev) : (c.updDev h g).dev h = (c.dev h).map g := by
  unfold Chip.updDev
  cases e : c.dev h with
  | none => simp [e]
  | some x => exact Tab.find_put_same ..
theorem Chip.updDev_ne {h j : Nat} (g : Dev → Dev) (hj : j ≠ h) : (c.updDev h g).dev j = c.dev j := by
  unfold Chip.updDev
  cases e : c.dev h with
  | none => rfl
  | some x => exact Tab.find_put_ne _ _ hj
@[simp] theorem Chip.updEp_same (h : Nat) (g : Ep → Ep) : (c.updEp h g).ep h = (c.ep h).map g := by
  unfold Chip.updEp
  cases e : c.ep h with
  | none => simp [e]
  | some x => exact Tab.find_put_same ..
theorem Chip.updEp_ne {h j : Nat} (g : Ep → Ep) (hj : j ≠ h) : (c.updEp h g).ep j = c.ep j := by
  unfold Chip.updEp
  cases e : c.ep h with
  | none => rfl
  | some x => exact Tab.find_put_ne _ _ hj
@[simp] theorem Chip.updInst_same (h : Nat) (g : Inst → Inst) : (c.updInst h g).inst h = (c.inst h).map g := by
  cases e : c.inst h with
  | none => simp [Chip.updInst, e]
  | some x =>
    simp only [Chip.updInst, e]
    unfold Chip.inst
    simp only [Tab.find_put_same, Option.map_some]
theorem Chip.updInst_ne {h j : Nat} (g : Inst → Inst) (hj : j ≠ h) : (c.updInst h g).inst j = c.inst j := by
  cases e : c.inst h with
  | none => simp [Chip.updInst, e]
  | some x =>
    simp only [Chip.updInst, e]
    unfold Chip.inst
    simp only [Tab.find_put_ne _ _ hj]

/-! ### What is read from one part of the chip -/

theorem Chip.wq_of {c d : Chip} (h : c.wqs = d.wqs) (f n : Nat) : c.wq f n = d.wq f n := by unfold Chip.wq; rw [h]
theorem Chip.cq_of {c d : Chip} (h : c.cqs = d.cqs) (f n : Nat) : c.cq f n = d.cq f n := by unfold Chip.cq; rw [h]
theorem Chip.fn_of {c d : Chip} (h : c.fns = d.fns) (f : Nat) : c.fn f = d.fn f := by unfold Chip.fn; rw [h]
theorem Chip.port_of {c d : Chip} (h : c.ports = d.ports) (p : Nat) : c.port p = d.port p := by unfold Chip.port; rw [h]
theorem Chip.clu_of {c d : Chip} (h : c.clus = d.clus) (k : Nat) : c.clu k = d.clu k := by unfold Chip.clu; rw [h]
theorem Chip.dev_of {c d : Chip} (e : c.devs = d.devs) (h : Nat) : c.dev h = d.dev h := by unfold Chip.dev; rw [e]
theorem Chip.ep_of {c d : Chip} (e : c.eps = d.eps) (h : Nat) : c.ep h = d.ep h := by unfold Chip.ep; rw [e]
theorem Chip.inst_of {c d : Chip} (e : c.insts = d.insts) (h : Nat) : c.inst h = d.inst h := by unfold Chip.inst; rw [e]
theorem Chip.assoc_of {c d : Chip} (h : c.net = d.net) (a : Nat) : c.assoc a = d.assoc a := by unfold Chip.assoc; rw [h]
theorem Chip.eth_of {c d : Chip} (h : c.net = d.net) (i : Nat) : c.eth i = d.eth i := by unfold Chip.eth; rw [h]
theorem Chip.sh_of {c d : Chip} (h : c.evsh = d.evsh) (s : Nat) : c.sh s = d.sh s := by unfold Chip.sh; rw [h]
theorem Chip.op_of {c d : Chip} (h : c.ops = d.ops) (i : Nat) : c.op i = d.op i := by unfold Chip.op; rw [h]
theorem Chip.dead_of {c d : Chip} (h : c.aon = d.aon) : c.dead = d.dead := by unfold Chip.dead; rw [h]


@[simp] theorem Chip.putWq_same (f n : Nat) (q : Wq) : (c.putWq f n q).wq f n = some q := Tab.find_put_same ..
@[simp] theorem Chip.updWq_same (f n : Nat) (g : Wq → Wq) : (c.updWq f n g).wq f n = (c.wq f n).map g := by
  unfold Chip.updWq
  cases e : c.wq f n with
  | none => simp [e]
  | some x => exact Tab.find_put_same ..
@[simp] theorem Chip.putCq_same (f n : Nat) (q : Cq) : (c.putCq f n q).cq f n = some q := Tab.find_put_same ..

/-! ### Repetition -/

/-- What every step of a repetition keeps, the repetition keeps. -/
theorem Chip.each_inv {α : Type} {P : Chip → Prop} {g : Chip → α → Chip} (l : List α) (h : ∀ c a, P c → P (g c a))
    {c : Chip} (hc : P c) : P (c.each l g) := by
  unfold Chip.each
  induction l generalizing c with
  | nil => exact hc
  | cons a r ih => exact ih (h c a hc)

/-- A part of the chip that no step of a repetition changes is not changed by it. -/
theorem Chip.each_same {α β : Type} (r : Chip → β) {g : Chip → α → Chip} (l : List α) (h : ∀ c a, r (g c a) = r c) (c : Chip) :
    r (c.each l g) = r c :=
  Chip.each_inv (P := fun d => r d = r c) l (fun d a hd => (h d a).trans hd) rfl

end Sys2Proof.Machine
end

