-- ==== Sys2Proof/Laws/Events.lean ====
section
/-!
SUPPORT. What the operations of the event controller read and change: sources, vectors, arrivals and messages.
-/
namespace Sys2Proof.Machine
variable (c : Chip)

/-! ### Reading after an update -/

@[simp] theorem Chip.updSrc_src_same (f i : Nat) (g : Src → Src) : (c.updSrc f i g).src f i = g (c.src f i) := by
  simp [Chip.src, Chip.updSrc, Chip.updEvt]

theorem Chip.updSrc_src_ne {f i k j : Nat} (g : Src → Src) (h : k ≠ f ∨ j ≠ i) : (c.updSrc f i g).src k j = c.src k j := by
  unfold Chip.src Chip.updSrc Chip.updEvt
  by_cases e : k = f
  · subst e
    rw [Chip.updFn_same]
    exact Tab.get_upd_ne _ _ _ (h.resolve_left fun n => n rfl)
  · rw [Chip.updFn_ne _ _ e]

theorem Chip.updFn_src {f : Nat} (g : Fun → Fun) (h : ∀ x, (g x).evt.src = x.evt.src) (k j : Nat) :
    (c.updFn f g).src k j = c.src k j := by
  unfold Chip.src
  by_cases e : k = f
  · subst e; rw [Chip.updFn_same, h]
  · rw [Chip.updFn_ne _ _ e]

@[simp] theorem Chip.updVec_src (f v : Nat) (g : Vec → Vec) (k j : Nat) : (c.updVec f v g).src k j = c.src k j :=
  Chip.updFn_src c (f := f) (fun x => { x with evt := { x.evt with vec := Tab.upd (fun _ => {}) x.evt.vec v g } }) (fun _ => rfl) k j
@[simp] theorem Chip.updMsix_src (f v : Nat) (g : MsixEntry → MsixEntry) (k j : Nat) :
    (c.updMsix f v g).src k j = c.src k j :=
  Chip.updFn_src c (f := f) (fun x => { x with msix := Tab.upd (fun _ => {}) x.msix v g }) (fun _ => rfl) k j
@[simp] theorem Chip.updSh_src (s : Nat) (g : ShSrc → ShSrc) (k j : Nat) : (c.updSh s g).src k j = c.src k j := rfl
@[simp] theorem Chip.updAssoc_src (a : Nat) (g : Assoc → Assoc) (k j : Nat) : (c.updAssoc a g).src k j = c.src k j := rfl
@[simp] theorem Chip.emit_src (o : Out) (k j : Nat) : (c.emit o).src k j = c.src k j := rfl

/-! ### Messages and vectors change no source (R383, R384) -/

theorem Chip.sendMsg_keeps (f v : Nat) : (∀ k j, (c.sendMsg f v).src k j = c.src k j) ∧ (c.sendMsg f v).evsh = c.evsh ∧
    (c.sendMsg f v).flt = c.flt := by
  unfold Chip.sendMsg
  split <;> exact ⟨fun _ _ => rfl, rfl, rfl⟩

theorem Chip.deliver_keeps (f v : Nat) : (∀ k j, (c.deliver f v).src k j = c.src k j) ∧ (c.deliver f v).evsh = c.evsh ∧
    (c.deliver f v).flt = c.flt := by
  unfold Chip.deliver
  split
  · exact ⟨fun k j => Chip.updMsix_src c f v _ k j, rfl, rfl⟩
  · split
    · exact ⟨fun k j => Chip.updVec_src c f v _ k j, rfl, rfl⟩
    · exact Chip.sendMsg_keeps c f v

theorem Chip.vecJudge_keeps (f v : Nat) (b : Bool) :
    (∀ k j, (c.vecJudge f v b).src k j = c.src k j) ∧ (c.vecJudge f v b).evsh = c.evsh ∧
    (c.vecJudge f v b).flt = c.flt := by
  unfold Chip.vecJudge
  split
  · exact ⟨fun k j => (Chip.updVec_src ..).trans ((Chip.deliver_keeps c f v).1 k j), (Chip.deliver_keeps c f v).2⟩
  · split
    · exact ⟨fun k j => Chip.updVec_src c f v _ k j, rfl, rfl⟩
    · exact ⟨fun _ _ => rfl, rfl, rfl⟩

theorem Chip.vecCount_keeps (f v : Nat) : (∀ k j, (c.vecCount f v).src k j = c.src k j) ∧ (c.vecCount f v).evsh = c.evsh ∧
    (c.vecCount f v).flt = c.flt := by
  unfold Chip.vecCount
  split
  · exact ⟨fun k j => Chip.updVec_src c f v _ k j, rfl, rfl⟩
  · exact ⟨fun _ _ => rfl, rfl, rfl⟩

theorem Chip.vecArrive_keeps (f v : Nat) : (∀ k j, (c.vecArrive f v).src k j = c.src k j) ∧ (c.vecArrive f v).evsh = c.evsh ∧
    (c.vecArrive f v).flt = c.flt :=
  have hc := Chip.vecCount_keeps c f v
  have hj := Chip.vecJudge_keeps (c.vecCount f v) f v false
  ⟨fun k j => (hj.1 k j).trans (hc.1 k j), hj.2.1.trans hc.2.1, hj.2.2.trans hc.2.2⟩

@[simp] theorem Chip.vecArrive_src (f v k j : Nat) : (c.vecArrive f v).src k j = c.src k j := (Chip.vecArrive_keeps c f v).1 k j
@[simp] theorem Chip.vecArrive_sh (f v s : Nat) : (c.vecArrive f v).sh s = c.sh s :=
  Chip.sh_of (Chip.vecArrive_keeps c f v).2.1 s

/-! ### Arrivals (R374, R375) -/

/-- An arrival at a private source adds one to its counter. -/
theorem Chip.countArrival_src (f i : Nat) :
    (c.countArrival f i).src f i = { c.src f i with arrivals := satAdd 255 (c.src f i).arrivals 1 } := by
  unfold Chip.countArrival
  simp only [Chip.updSrc_src_same]
  split <;> simp

@[simp] theorem Chip.shWake_sh (s k : Nat) : (c.shWake s).sh k = c.sh k := by
  unfold Chip.shWake
  split
  · split <;> rfl
  · rfl

/-- An arrival at a shared source adds one to its counter. -/
theorem Chip.shCount_sh (s : Nat) :
    (c.shCount s).sh s =
      { c.sh s with src := { (c.sh s).src with arrivals := satAdd 255 (c.sh s).src.arrivals 1 } } := by
  unfold Chip.shCount
  rw [Chip.shWake_sh]
  split <;> simp only [Chip.vecArrive_sh, Chip.updSh_same]

@[simp] theorem Chip.vecArrive_flt (f v : Nat) : (c.vecArrive f v).flt = c.flt := (Chip.vecArrive_keeps c f v).2.2
@[simp] theorem Chip.countArrival_flt (f i : Nat) : (c.countArrival f i).flt = c.flt := by
  unfold Chip.countArrival
  dsimp only
  split <;> simp
@[simp] theorem Chip.raise_flt (f i : Nat) : (c.raise f i).flt = c.flt := by simp [Chip.raise]
@[simp] theorem Chip.shWake_flt (s : Nat) : (c.shWake s).flt = c.flt := by
  unfold Chip.shWake
  split
  · split <;> rfl
  · rfl
@[simp] theorem Chip.shCount_flt (s : Nat) : (c.shCount s).flt = c.flt := by
  unfold Chip.shCount
  rw [Chip.shWake_flt]
  split <;> simp
@[simp] theorem Chip.shInput_flt (s : Nat) (b : Bool) : (c.shInput s b).flt = c.flt := by
  unfold Chip.shInput
  dsimp only
  split <;> simp

end Sys2Proof.Machine
end

