-- ==== Sys2Proof/Laws/Faults.lean ====
section
/-!
SUPPORT. What Beryl's acceptance of a message changes in its sources (R475, R477).
-/
namespace Sys2Proof.Machine
variable (c : Chip)

@[simp] theorem Chip.streamPush_flt (e : HistEntry) : (c.streamPush e).flt = c.flt := by
  unfold Chip.streamPush
  split
  · rfl
  · split <;> rfl

@[simp] theorem Chip.record_flt (s : Nat) (m : FltMsg) (b : Bool) (k : Nat) : (c.record s m b k).flt = c.flt := by
  simp [Chip.record]

@[simp] theorem Chip.tellOwner_flt (s k : Nat) : (c.tellOwner s k).flt = c.flt := by
  unfold Chip.tellOwner
  split
  · simp
  · rfl

@[simp] theorem Chip.alert_flt (b : Bool) : (c.alert b).flt = c.flt := by
  unfold Chip.alert
  split <;> rfl

@[simp] theorem Chip.judgeFaultN_flt : c.judgeFaultN.flt = c.flt := by
  unfold Chip.judgeFaultN
  split
  · rfl
  · split
    · dsimp only
      split <;> simp
    · dsimp only
      split <;> simp

@[simp] theorem Chip.judgeFaults_flt : c.judgeFaults.flt = c.flt := by simp [Chip.judgeFaults]

/-- What acceptance does to the sources: the sender counts the message, and no other changes. -/
theorem Chip.accept_fltSrc (s : Nat) (m : FltMsg) (k : Nat) :
    (c.accept s m).fltSrc k = if k = s then (c.fltSrc s).count1 m (c.flt.kindSev m.kind) else c.fltSrc k := by
  have h : (c.accept s m).fltSrc k = (c.updFltSrc s fun x => x.count1 m (c.flt.kindSev m.kind)).fltSrc k :=
    congrArg (fun x : Flt => Tab.get FltSrc.dflt x.src k) (by simp [Chip.accept])
  rw [h]
  split
  · subst k
    simp
  · exact Chip.updFltSrc_ne _ _ ‹_›

end Sys2Proof.Machine
end

