-- ==== Sys2Proof/Laws/Jtag.lean ====
section
/-!
SUPPORT. What an edge of TCK does to the test access port (R594).
-/
namespace Sys2Proof.Machine

/-- A rising edge takes the controller to the state that TMS names. -/
@[simp] theorem Jtag.rise_tap (j : Jtag) (l tms tdi : Bool) : (j.rise l tms tdi).tap = j.tap.next tms := by
  obtain ⟨t⟩ := j
  cases t <;> cases tms <;> simp [Jtag.rise, Tap.next]

/-- A rising edge into Test-Logic-Reset puts IDCODE in force and gives the pads back; any other leaves the instruction and the
pads. -/
theorem Jtag.rise_ir (j : Jtag) (l tms tdi : Bool) :
    ((j.rise l tms tdi).tap = .reset ∧ (j.rise l tms tdi).ir = 1 ∧ (j.rise l tms tdi).taken = false) ∨
    ((j.rise l tms tdi).tap ≠ .reset ∧ (j.rise l tms tdi).ir = j.ir ∧ (j.rise l tms tdi).taken = j.taken) := by
  obtain ⟨t⟩ := j
  cases t <;> cases tms <;> simp [Jtag.rise, Tap.next]

/-- A falling edge leaves the controller's state. -/
@[simp] theorem Jtag.fall_tap (j : Jtag) (l f : Bool) : (j.fall l f).tap = j.tap := by
  obtain ⟨t⟩ := j
  cases t <;> rfl

end Sys2Proof.Machine
end

