-- ==== Sys2Proof/Laws/Memory.lean ====
section
/-!
SUPPORT. The memory of a homed window: what reads and writes give, and that writes keep its one form.
-/
namespace Sys2Proof.Machine

theorem Memory.wf_nil : Memory.wf [] = true := rfl

/-- A write keeps the one form of the memory. -/
theorem Memory.wf_write (m : List Host.Cell) (o : Nat) (bs : List Byte) (h : Memory.wf m = true) :
    Memory.wf (Memory.write m o bs) = true := by
  induction bs generalizing m o with
  | nil => exact h
  | cons b r ih => exact ih _ _ (Tab.wf_set _ _ h)

/-- A byte outside what is written reads as before. -/
theorem Memory.get_write_ne (m : List Host.Cell) (o : Nat) (bs : List Byte) {a : Nat} (h : a < o ∨ o + bs.length ≤ a) :
    Memory.get (Memory.write m o bs) a = Memory.get m a := by
  induction bs generalizing m o with
  | nil => rfl
  | cons b r ih =>
    rw [List.length_cons] at h
    have hne : a ≠ o := by omega
    rw [Memory.write, ih _ _ (by omega)]
    exact Tab.get_set_ne _ _ _ hne

/-- A byte that is written reads as written. -/
theorem Memory.get_write (m : List Host.Cell) (o : Nat) (bs : List Byte) {i : Nat} (h : i < bs.length) :
    Memory.get (Memory.write m o bs) (o + i) = bs[i] := by
  induction bs generalizing m o i with
  | nil => exact absurd h (Nat.not_lt_zero _)
  | cons b r ih =>
    cases i with
    | zero =>
      rw [Memory.write, Memory.get_write_ne _ _ _ (by omega)]
      exact Tab.get_set_same ..
    | succ j =>
      rw [List.length_cons] at h
      have := ih (Tab.set Memory.blank m o b) (o + 1) (i := j) (by omega)
      rw [Memory.write, show o + (j + 1) = o + 1 + j by omega, this]
      rfl

/-- Every change that a function's window takes keeps the one form of its memory. -/
theorem Home.wf_write (h : Home) (o : Nat) (bs : List Byte) (hw : Memory.wf h.mem = true) :
    Memory.wf (h.write o bs).mem = true := by
  unfold Home.write
  split
  · exact hw
  · exact Memory.wf_write _ _ _ hw

@[simp] theorem Home.size_write (h : Home) (o : Nat) (bs : List Byte) : (h.write o bs).size = h.size := by
  unfold Home.write
  split <;> rfl

@[simp] theorem Home.length_read (h : Home) (o n : Nat) : (h.read o n).length = n := by simp [Home.read]

end Sys2Proof.Machine
end

