-- ==== Sys2Proof/Laws/Run.lean ====
section
/-!
SUPPORT. What the shared forms of a command do: on the chip of a device that runs, and for the function whose admin command
or the requester whose message is carried out.
-/
namespace Sys2Proof.Machine

variable {s t : State} {g : Chip → Chip}

/-! ### A change of the chip -/

@[simp] theorem State.upd_chip (s : State) (g : Chip → Chip) : (s.upd g).chip = g s.chip := rfl
@[simp] theorem State.upd_locks (s : State) (g : Chip → Chip) : (s.upd g).locks = s.locks := rfl
@[simp] theorem State.upd_otp (s : State) (g : Chip → Chip) : (s.upd g).otp = s.otp := rfl
@[simp] theorem State.upd_jtag (s : State) (g : Chip → Chip) : (s.upd g).jtag = s.jtag := rfl
@[simp] theorem State.upd_pending (s : State) (g : Chip → Chip) : (s.upd g).pending = s.pending := rfl
@[simp] theorem State.upd_self (s : State) : (s.upd fun c => c) = s := rfl
@[simp] theorem State.upd_upd (s : State) (g h : Chip → Chip) : (s.upd g).upd h = s.upd fun c => h (g c) := rfl

/-- Two changes that agree on the chip of `s` agree on `s`. -/
theorem State.upd_congr {h : Chip → Chip} (e : g s.chip = h s.chip) : s.upd g = s.upd h := by
  unfold State.upd
  rw [e]

/-! ### Commands on the chip -/

/-- A command on the chip of a device that is alive. -/
theorem State.run_alive (h : s.alive) : s.run g = .next (s.upd g) := by
  simp [State.run, State.upd, h]

/-- On a device that is not, it has no effect. -/
theorem State.run_dead (h : s.chip.dead = true) : s.run g = .next s := by
  simp [State.run, h]

/-- A command of the running device. -/
theorem State.live_up (h : s.up) : s.live g = .next (s.upd g) := by
  simp [State.live, State.run, State.upd, h]

/-- It has no effect on a device that is down, in its safe state or in the factory test mode. -/
theorem State.live_down (h : ¬ s.up) : s.live g = .next s := by
  have : s.chip.dead = true ∨ (s.chip.tst.safe || s.chip.aon.testen) = true := by
    by_contra hn
    simp only [not_or, Bool.not_eq_true, Bool.or_eq_false_iff] at hn
    exact h ⟨hn.1, hn.2.1, hn.2.2⟩
  rcases this with h | h <;> simp [State.live, State.run, h]

/-- It answers a next state, in which only the chip may differ. -/
theorem State.run_next (s : State) (g : Chip → Chip) :
    ∃ t, s.run g = .next t ∧ t.locks = s.locks ∧ t.otp = s.otp ∧ t.jtag = s.jtag ∧ t.pending = s.pending :=
  ⟨_, rfl, rfl, rfl, rfl, rfl⟩

theorem State.live_next (s : State) (g : Chip → Chip) :
    ∃ t, s.live g = .next t ∧ t.locks = s.locks ∧ t.otp = s.otp ∧ t.jtag = s.jtag ∧ t.pending = s.pending :=
  State.run_next s _

/-! ### Admin commands -/

/-- An admin row whose checks all pass has its effect (R425). -/
theorem Chip.admin_passes {c : Chip} {f op : Nat} {d : List Word} {checks : List Word → List (Option (Nat × Word))}
    {e : List Word → Chip → Chip} (hr : (c.fn f).aq.running = some d) (hb : (c.fn f).aq.begun = false)
    (ho : bits (dw d 0) 7 0 = op) (hp : pf0Only op = true → f = 0) (he : c.enteringBars op = false)
    (hc : (checks d).findSome? id = none) : c.admin f op checks e = e d c := by
  have h0 : denied (pf0Only op && f != 0) = none := by
    by_cases h : pf0Only op = true <;> simp_all [denied]
  simp [Chip.admin, hr, hb, ho, h0, he, badState, hc]

/-- One whose check fails is answered with the status and DETAIL of the first that fails, and has no other effect. -/
theorem Chip.admin_fails {c : Chip} {f op : Nat} {d : List Word} {checks : List Word → List (Option (Nat × Word))}
    {e : List Word → Chip → Chip} {st : Nat} {w : Word} (hr : (c.fn f).aq.running = some d)
    (hb : (c.fn f).aq.begun = false) (ho : bits (dw d 0) 7 0 = op)
    (hc : (denied (pf0Only op && f != 0) :: badState (c.enteringBars op) :: checks d).findSome? id = some (st, w)) :
    c.admin f op checks e = c.adminDone f st w := by
  simp [Chip.admin, hr, hb, ho, hc]

/-- An admin row has no effect when no command of its opcode is being carried out. -/
theorem Chip.admin_idle {c : Chip} {f op : Nat} {checks : List Word → List (Option (Nat × Word))}
    {e : List Word → Chip → Chip}
    (h : ∀ d, (c.fn f).aq.running = some d → (c.fn f).aq.begun = true ∨ bits (dw d 0) 7 0 ≠ op) :
    c.admin f op checks e = c := by
  cases hr : (c.fn f).aq.running with
  | none => simp [Chip.admin, hr]
  | some d => rcases h d hr with h | h <;> simp [Chip.admin, hr, h]

/-- A passing check does not end the search for one that fails. -/
@[simp] theorem findSome_badParam_false (l : List (Option (Nat × Word))) (a b : Nat) :
    (badParam false a b :: l).findSome? id = l.findSome? id := rfl
@[simp] theorem findSome_denied_false (l : List (Option (Nat × Word))) :
    (denied false :: l).findSome? id = l.findSome? id := rfl
@[simp] theorem findSome_lacking_false (l : List (Option (Nat × Word))) :
    (lacking false :: l).findSome? id = l.findSome? id := rfl
@[simp] theorem findSome_badState_false (l : List (Option (Nat × Word))) :
    (badState false :: l).findSome? id = l.findSome? id := rfl
@[simp] theorem findSome_none (l : List (Option (Nat × Word))) :
    ((none : Option (Nat × Word)) :: l).findSome? id = l.findSome? id := rfl

/-- The row of a command that is carried out, with every check passed. -/
theorem State.live_admin {f op : Nat} {d : List Word} {checks : Chip → List Word → List (Option (Nat × Word))}
    {e : Chip → List Word → Chip → Chip} (hu : s.up) (hc : s.carries f op d)
    (h : (checks s.chip d).findSome? id = none) :
    (s.live fun c => c.admin f op (checks c) (e c)) = .next (s.upd fun c => e c d c) := by
  rw [State.live_up hu]
  exact congrArg _ (State.upd_congr (Chip.admin_passes hc.1 hc.2.1 hc.2.2.1 hc.2.2.2.1 hc.2.2.2.2 h))

/-! ### Requests to services -/

/-- A request that waits with all it needs is given to its instance (R336). -/
theorem Chip.giveRequest_given {c : Chip} {f n : Nat} {count : Word} {p : Svc → Xfer → Bool} {q : Wq} {x : Xfer} {h : Nat}
    {i : Inst} (hq : c.wq f n = some q) (hx : c.xfer f n count = some x) (hh : q.instOf = some h) (hi : c.inst h = some i)
    (hr : x.svcRun = false) (hf : x.fetched i.svc i.slots = true) (hp : p i.svc x = true) :
    c.giveRequest f n count p = c.runRequest h f n i x := by
  simp [Chip.giveRequest, hq, hx, hh, hi, hr, hf, hp]

/-- Otherwise the row has no effect. -/
theorem Chip.giveRequest_idle {c : Chip} {f n : Nat} {count : Word} {p : Svc → Xfer → Bool}
    (h : c.wq f n = none ∨ c.xfer f n count = none) : c.giveRequest f n count p = c := by
  unfold Chip.giveRequest
  rcases h with h | h
  · rw [h]
  · cases hq : c.wq f n <;> simp [h]

@[simp] theorem Chip.inst_begun (c : Chip) (f n : Nat) (x : Xfer) (h : Nat) : (c.begun f n x).inst h = c.inst h :=
  Chip.inst_of (by simp [Chip.begun]) h
@[simp] theorem Chip.ep_begun (c : Chip) (f n : Nat) (x : Xfer) (h : Nat) : (c.begun f n x).ep h = c.ep h :=
  Chip.ep_of (by simp [Chip.begun]) h

/-- A request given to an instance that is not detached goes to its service. -/
theorem Chip.runRequest_served {c : Chip} {h f n : Nat} {i : Inst} {x : Xfer} (hr : x.d.req ≠ 0x80) (hd : i.st ≠ .detached) :
    c.runRequest h f n i x =
      match i.svc with
      | .enum => (c.begun f n x).enumRequest f n x
      | .hidx => (c.begun f n x).hidxRequest h f n x
      | .ccid => (c.begun f n x).ccidRequest h f n x
      | .strm => if x.d.ty = some .streamJob then (c.begun f n x).strmJob h f n x else (c.begun f n x).strmRequest h f n x
      | .hlth => (c.begun f n x).hlthRequest h f n x := by
  unfold Chip.runRequest
  rw [if_neg (fun e => hr e.2), if_neg hd]
  rfl

/-! ### Commands of the service port and of the Tether -/

/-- A command of the service port that waits. -/
theorem State.lnyRun_takes {op : Nat} {e : LnyCmd → State} {m : LnyCmd} (h : s.asksLny op m) : s.lnyRun op e = .next (e m) := by
  obtain ⟨hd, ht, hf, hm, hw⟩ := h
  have : (lnyChanges op && !s.chip.lny.wren) = false := by
    by_cases hc : lnyChanges op = true
    · simp [hw hc]
    · simp [Bool.eq_false_iff.2 hc]
  simp [State.lnyRun, hd, ht, hf, hm, this]

/-- A command of the Tether that is taken. -/
theorem State.tthRun_takes {code : Nat} {pec : Option Bool} {changes : Bool} {e : State → State}
    (h : s.tthTakes pec changes) :
    s.tthRun code pec changes e = .next (e (s.upd fun c => c.tthTook code)) := by
  obtain ⟨hd, hw, hp, hc⟩ := h
  cases changes with
  | false => simp [State.tthRun, hd, hw, hp, State.upd, Chip.tthTook]
  | true =>
    have : s.chip.tth.wrCmd = true := hc rfl
    simp [State.tthRun, hd, hw, hp, State.upd, Chip.tthTook, this]

end Sys2Proof.Machine
end

