-- ==== Sys2Proof/WellFormed.lean ====
section
/-!
DEFINITION. The well-formed commands: the bounds that the types of the operands do not say. A command that is not
well-formed has a meaning all the same; it is one that the outside world cannot give.
-/
namespace Sys2Proof

/-- R409: the space that a record takes in a frame. -/
def RecIn.size (r : RecIn) : Nat := 8 + (r.body.length + 7) / 8 * 8

/-- R407 to R409: the frame holds no more of a record than its RLEN, and the records fit the frame. -/
def RxFrame.wf (f : RxFrame) : Bool :=
  (f.recs.all fun r => decide (r.body.length ≤ r.rlen.toNat)) && decide (16 + (f.recs.map RecIn.size).sum ≤ f.eth.len.val)

/-- The bounds on the operands: the lengths of what a command carries. -/
def Instr.wf (i : Instr) : Bool :=
  match i with
  | .deviceMicroframeEdge => true
  | .crossingWordReceived .. => true
  | .registerWrite _ _ _ len _ _ => decide (0 < len.val)
  | .reservedOffsetAccess _ _ _ len _ => decide (0 < len.val)
  | .bar2WriteRefused _ _ len => decide (0 < len.val)
  | .undecodedVfAccess .. => true
  | .vfEnableSet => true
  | .vfEnableClear => true
  | .numvfsWrite .. => true
  | .hostReadFailed .. => true
  | .hostReadCompletionTimeout .. => true
  | .vfFlr .. => true
  | .pf0Flr => true
  | .conventionalReset => true
  | .flrComplete .. => true
  | .functionResetComplete .. => true
  | .busMasterEnableWrite .. => true
  | .pmStateWrite .. => true
  | .msixControlWrite .. => true
  | .msixEntryWrite .. => true
  | .reshapeAcceptance .. => true
  | .portMoveCut .. => true
  | .portMoveHandover .. => true
  | .wqDoorbell _ _ _ rest => decide (rest.length ≤ 31)
  | .pushSlotWrite _ _ o ws => decide (1 ≤ ws.length ∧ o.val + ws.length ≤ 24)
  | .pollDoorbell .. => true
  | .pollIntervalExpiry .. => true
  | .ringReadIssue => true
  | .ringReadReturn _ _ bs => decide (bs.length = 32)
  | .phaseReread .. => true
  | .cqConsumerDoorbell .. => true
  | .cqSpillDrainTimeout .. => true
  | .aqEnable .. => true
  | .aqReady .. => true
  | .aqDisable .. => true
  | .aqSubmissionDoorbell .. => true
  | .aqCompletionDoorbell .. => true
  | .adminFetch => true
  | .adminCommandReadReturn _ bs => decide (bs.length = 64)
  | .identify .. => true
  | .createCq .. => true
  | .deleteCq .. => true
  | .createWq .. => true
  | .deleteWq .. => true
  | .restartWq .. => true
  | .setChannel .. => true
  | .bindService .. => true
  | .unbindService .. => true
  | .portControl .. => true
  | .functionReset => true
  | .setFnArb => true
  | .reshape => true
  | .powerState => true
  | .netHome => true
  | .netUnhome => true
  | .selftest => true
  | .periphDownload _ payload => decide (payload.length < 2 ^ 26)
  | .calMeasure => true
  | .calWrite payload => decide (payload.length < 2 ^ 26)
  | .imageStage payload => decide (payload.length < 2 ^ 26)
  | .imageApply => true
  | .longSuspend .. => true
  | .longResume .. => true
  | .longCancel .. => true
  | .queryOp .. => true
  | .longOpSafePoint .. => true
  | .longOpDone _ _ found => decide (found.length ≤ 1024)
  | .scrubPeriodStart => true
  | .scrubAccess .. => true
  | .correctionWriteBack .. => true
  | .periphDownloadDelayExpiry .. => true
  | .planBuild .. => true
  | .joinWord .. => true
  | .portMicroframeStart .. => true
  | .edgeWordCompare .. => true
  | .transactionStart .. => true
  | .expressOutInsert .. => true
  | .lpmTransaction .. => true
  | .responseSync .. => true
  | .responseTimeout .. => true
  | .dataPacketReceived _ _ bs _ => decide (bs.length ≤ 4096)
  | .handshakeReceived .. => true
  | .eof2Reached .. => true
  | .descriptorTimeout .. => true
  | .poolWaitAbort .. => true
  | .portReset .. => true
  | .portSuspend .. => true
  | .portResume .. => true
  | .rearm .. => true
  | .spare .. => true
  | .returnCmd .. => true
  | .testModeSet .. => true
  | .testModeClear .. => true
  | .autorecWrite .. => true
  | .autorecExpiry .. => true
  | .resetSe0End .. => true
  | .tokenHoldEnd .. => true
  | .resumeDelayEnd .. => true
  | .resumeKEnd .. => true
  | .lineStateChange .. => true
  | .debounceEnd .. => true
  | .deviceChirp .. => true
  | .chirpWindowEnd .. => true
  | .hostChirpStop .. => true
  | .l1Exit .. => true
  | .l1ResumeKEnd .. => true
  | .engineStateError .. => true
  | .checkpointTimeout .. => true
  | .spareLoadDone .. => true
  | .pplFrameStart .. => true
  | .pplReturnFrame .. => true
  | .pplLinkTimeout .. => true
  | .holdTimeout .. => true
  | .monitorConversion .. => true
  | .powerGoodTimeout .. => true
  | .portPowerEnable .. => true
  | .loadShedRepeat .. => true
  | .powerRetry .. => true
  | .retryCountClear .. => true
  | .pwroffWrite .. => true
  | .prtPwrctrlRetry .. => true
  | .cdpDetect .. => true
  | .enumRequestTimeout .. => true
  | .hubPortResetTimeout .. => true
  | .enumMessageWaitEnd .. => true
  | .enumDescribe .. => true
  | .enumSetConfig .. => true
  | .enumSetAlt .. => true
  | .epReset .. => true
  | .epConfig .. => true
  | .devSuspend .. => true
  | .devResume .. => true
  | .devReset .. => true
  | .recv .. => true
  | .moverRequestIssue .. => true
  | .moverReadReturn _ bs => decide (bs.length ≤ 4096)
  | .cellGrant => true
  | .channelSettingsWrite .. => true
  | .taskPlacement => true
  | .contextCopyDone .. => true
  | .contextFetchBack .. => true
  | .laneTaskStart .. => true
  | .taskDone .. => true
  | .taskRelease .. => true
  | .laneWatchdog .. => true
  | .timerExpiry .. => true
  | .deadlineExpiry .. => true
  | .serviceBufferFetchDone .. => true
  | .periodicTick .. => true
  | .hidxGetRdesc .. => true
  | .hidxMapLoad .. => true
  | .hidxSetMode .. => true
  | .hidxKeymapLoad .. => true
  | .hidxSendReport .. => true
  | .hidxGetReport .. => true
  | .hidxInputReport .. => true
  | .scanIdleGap .. => true
  | .ccidPowerOn .. => true
  | .ccidPowerOff .. => true
  | .ccidXfr .. => true
  | .ccidSlotStatus .. => true
  | .ccidSetOpts .. => true
  | .ccidEscape .. => true
  | .ccidSlotNotification .. => true
  | .ccidHardwareError .. => true
  | .ccidResponse .. => true
  | .ccidCommandTimeout .. => true
  | .ccidAbortTimeout .. => true
  | .ccidVoltageRetryWait .. => true
  | .strmTx .. => true
  | .strmSetLine .. => true
  | .strmSetCtrl .. => true
  | .strmBreak .. => true
  | .strmPortStatus .. => true
  | .strmDeviceId .. => true
  | .strmSoftReset .. => true
  | .strmRxCfg .. => true
  | .streamJob .. => true
  | .strmRxData .. => true
  | .strmRxidleExpiry .. => true
  | .serialState .. => true
  | .jobStall .. => true
  | .hlthSetOpts .. => true
  | .hlthSnapshot .. => true
  | .evtClaimRead .. => true
  | .evtVclaimRead .. => true
  | .evtCompleteWrite .. => true
  | .evtSourceConfigWrite .. => true
  | .evtSharedCfgWrite .. => true
  | .evtSharedRouteWrite .. => true
  | .evtVcoalWrite .. => true
  | .evtGdisWrite .. => true
  | .coalescingTimerExpiry .. => true
  | .gpioInputChange .. => true
  | .aonLatchSet .. => true
  | .ethernetFrameReceived .. => true
  | .crqData _ f => decide (f.wf = true)
  | .crqAck _ f => decide (f.wf = true ∧ f.recs = [])
  | .crqOpen _ f => decide (f.wf = true ∧ f.recs = [])
  | .crqClose _ f => decide (f.wf = true ∧ f.recs = [])
  | .doorbellRecord _ _ _ body => decide (body.length < 65536)
  | .cqconsRecord .. => true
  | .writeRecord _ _ _ body => decide (body.length < 65536)
  | .readRecord .. => true
  | .regrdRecord .. => true
  | .regwrRecord .. => true
  | .dataFrameSend .. => true
  | .pcsLinkStatusChange .. => true
  | .linkDownTimer .. => true
  | .linkUpTimer .. => true
  | .retransmissionTimeout .. => true
  | .ackDelayExpiry .. => true
  | .assoctmoExpiry .. => true
  | .saInstall .. => true
  | .saEnable .. => true
  | .sadataWrite .. => true
  | .entryDrainTimeout .. => true
  | .pcieLinkStateChange .. => true
  | .napwaitExpiry => true
  | .deepwaitExpiry => true
  | .signaturesDone .. => true
  | .signatureTimeout .. => true
  | .closingWindowEnd => true
  | .portWakeEvent .. => true
  | .wakeTimerZero => true
  | .pwrWaketmrWrite .. => true
  | .pwrExitWrite => true
  | .perstAssert => true
  | .perstDeassert => true
  | .clkreqAssert => true
  | .regulatorPowerGood .. => true
  | .regulatorTimeout .. => true
  | .regulatorRetry => true
  | .oscOk => true
  | .oscTimeout => true
  | .pllLock .. => true
  | .pllLockTimeout .. => true
  | .dramRdy .. => true
  | .dramRdyTimeout => true
  | .islRdy .. => true
  | .islRdyTimeout .. => true
  | .dozeIslandIdle .. => true
  | .wakeOutTimeout => true
  | .pgFall .. => true
  | .faultMessageAccept => true
  | .faultWindowExpiry .. => true
  | .reactionTimerExpiry .. => true
  | .faultSourceClear .. => true
  | .clearall => true
  | .faultActionWrite .. => true
  | .powerOn .. => true
  | .resetNAssert .. => true
  | .resetNRelease => true
  | .postStageDone .. => true
  | .bootImageReadDone flash _ => decide (flash.length < 2 ^ 26)
  | .fuseBurn .. => true
  | .fuseBurnDone => true
  | .keyHashProg .. => true
  | .keyHashBurnDone => true
  | .debugLockBurn .. => true
  | .debugLockBurnDone => true
  | .thermalSample .. => true
  | .calWriteDone .. => true
  | .lnyVbusChange .. => true
  | .lnySetup .. => true
  | .lnyOutData _ _ bs _ => decide (bs.length ≤ 1024)
  | .lnyPing .. => true
  | .lnyInToken .. => true
  | .lnyRead => true
  | .lnyWrite => true
  | .lnyHistory => true
  | .lnyClear => true
  | .lnyPower => true
  | .lnyRetry => true
  | .lnyReset => true
  | .lnyIdentify => true
  | .lnyCalExport => true
  | .lnyCalWrite => true
  | .lnyImageStage => true
  | .lnyImageApply => true
  | .tetherAddressMatch .. => true
  | .tthStatus => true
  | .tthSelect .. => true
  | .tthRegdataRead => true
  | .tthRegdataWrite .. => true
  | .tthResult => true
  | .tthPower .. => true
  | .tthWake .. => true
  | .tthRetry .. => true
  | .tthClear .. => true
  | .tthDoorbell .. => true
  | .tthMailboxRead => true
  | .tthReset .. => true
  | .tthAlertResponse => true
  | .tthFabricTimeout .. => true
  | .tthSclTimeout => true
  | .mailboxWrite .. => true
  | .registerRead _ _ _ len => decide (0 < len.val)
  | .lockstepMismatch .. => true
  | .lockstepReloadDone .. => true
  | .lockstepResetTimeout => true
  | .imageStageDone => true
  | .lnyBusReset .. => true
  | .lnyBusSuspend => true
  | .lnyBusResume => true
  | .tckEdge .. => true
  | .supplyFall .. => true
  | .cdpDpRangeExit .. => true

end Sys2Proof
end

