-- ==== Sys2Proof/Tests/Slice0.lean ====
section
/-!
SUPPORT. Tests: ill-formed commands are refused, a few worked figures of the spec, and a state that meets the hypotheses of
each statement.
-/
set_option maxRecDepth 4000
namespace Sys2Proof.Tests
open Sys2Proof Sys2Proof.Machine

/-! ### Ill-formed commands are refused, one for each check -/

def someEth (n : Fin 65536) : EthFrame := { fcsOk := true, da := 0, sa := 0, tag := none, sec := none, etype := 0, len := n }
def rxFrame (n : Fin 65536) (rs : List RecIn) : RxFrame :=
  { eth := someEth n, resume := false, ackreq := false, assoc := 1, seq := 0, ack := 0, win := 8, recs := rs }
/-- A record of R409's example: a DOORBELL of WQ 5 with the 4 bytes of PCOUNT. -/
def aRecord : RecIn := { rtype := 1, q := 5, rlen := 4, arg := 0, body := [1, 0, 0, 0] }

/-- Accesses of no bytes. -/
theorem test_wf_refuses_empty_accesses :
    (Instr.registerWrite 0 false 0 0 0 0).wf = false ∧ (Instr.registerRead 0 false 0 0).wf = false ∧
      (Instr.reservedOffsetAccess 0 0 0 0 true).wf = false ∧ (Instr.bar2WriteRefused 0 0 0).wf = false := by decide

/-- Doorbells and pushes that leave the slot. -/
theorem test_wf_refuses_long_doorbells :
    (Instr.wqDoorbell 0 0 0 (List.replicate 32 0)).wf = false ∧ (Instr.pushSlotWrite 0 0 23 [0, 0]).wf = false ∧
      (Instr.pushSlotWrite 0 0 0 []).wf = false := by decide

/-- Reads that return another length than was asked. -/
theorem test_wf_refuses_other_lengths :
    (Instr.ringReadReturn 0 0 (List.replicate 31 0)).wf = false ∧
      (Instr.adminCommandReadReturn 0 (List.replicate 63 0)).wf = false := by decide

/-- Payloads longer than their length fields can say. -/
theorem test_wf_refuses_long_payloads (l : List Byte) (h : 2 ^ 26 ≤ l.length) :
    (Instr.periphDownload 0 l).wf = false ∧ (Instr.calWrite l).wf = false ∧ (Instr.imageStage l).wf = false ∧
      (Instr.bootImageReadDone l true).wf = false := by
  have k : decide (l.length < 2 ^ 26) = false := decide_eq_false (Nat.not_lt.mpr h)
  exact ⟨k, k, k, k⟩

theorem test_wf_refuses_long_records (l : List Byte) (h : 65536 ≤ l.length) :
    (Instr.doorbellRecord 0 0 5 l).wf = false ∧ (Instr.writeRecord 0 0 0 l).wf = false := by
  have k : decide (l.length < 65536) = false := decide_eq_false (Nat.not_lt.mpr h)
  exact ⟨k, k⟩

/-- Packets and reads longer than the longest. -/
theorem test_wf_refuses_long_packets (l : List Byte) (h : 4096 < l.length) :
    (Instr.dataPacketReceived 0 0 l .good).wf = false ∧ (Instr.moverReadReturn 0 l).wf = false ∧
      (Instr.lnyOutData 1 false l true).wf = false := by
  have k : decide (l.length ≤ 4096) = false := decide_eq_false (Nat.not_le.mpr h)
  have k' : decide (l.length ≤ 1024) = false := decide_eq_false (by omega)
  exact ⟨k, k, k'⟩

/-- More words than a measurement gives. -/
theorem test_wf_refuses_long_results (l : List Word) (h : 1024 < l.length) : (Instr.longOpDone 0 none l).wf = false :=
  decide_eq_false (Nat.not_le.mpr h)

/-- Frames whose records do not fit, or that may hold none. -/
theorem test_wf_refuses_frames :
    (Instr.crqData 0 (rxFrame 31 [aRecord])).wf = false ∧ (Instr.crqData 0 (rxFrame 64 [{ aRecord with rlen := 3 }])).wf = false ∧
      (Instr.crqAck 0 (rxFrame 64 [aRecord])).wf = false ∧ (Instr.crqOpen 0 (rxFrame 64 [aRecord])).wf = false ∧
      (Instr.crqClose 0 (rxFrame 64 [aRecord])).wf = false := by decide

/-- R409's example: the record takes 16 bytes of the frame, which is well-formed when they fit. -/
theorem test_record_size : aRecord.size = 16 ∧ (Instr.crqData 0 (rxFrame 64 [aRecord])).wf = true := by decide

/-! ### Worked figures of the spec -/

/-- No word spells a command. -/
theorem test_no_word_spells : decodeTableWord 32 0x1A3F = none := rfl

/-- R13's example: 7 microframes from 0x3FFC to 0x0003. -/
theorem test_mfn_after : mfnAfter 0x0003 0x3FFC = 7 := by decide

/-- R88's example: the PHASE of counts 0xFFFF_FFFE to 2 of a 256-entry ring is 1, 1, 0, 0, 0. -/
theorem test_phase :
    ([0xFFFFFFFE, 0xFFFFFFFF, 0, 1, 2] : List Word).map (phaseOf 8) = [1, 1, 0, 0, 0] := by decide

/-- R237's example: the CRC of TYPE 0b01, EN 0xFF and ILIM 0x00 is 0b0001. -/
theorem test_crc4 : crc4 (bitsHigh 18 0b011111111100000000) = 1 := by decide

/-- R158's example: a BULK_IN with LENGTH 0 fails check 0x05 at dword 0x04, bit 0. -/
theorem test_detail0 : (⟨0x05, 0x04, 0⟩ : Failed).d0 = 0x405#32 := by decide

/-- R55's example: with NumVFs 127 each VF gets 15 vectors, 31 WQs and 7 CQs, and 79 vectors stay in the stock. -/
theorem test_vf_shares :
    let c := ({ State.reset.chip with pci := { State.reset.chip.pci with numVfs := 127 } } : Chip).vfSet
    (c.fn 9).vectors = 15 ∧ (c.fn 9).wqs = 31 ∧ (c.fn 9).cqs = 7 ∧ c.stock.vectors = 79 := by decide

/-- R594: TMS high from Select-IR-Scan reaches Test-Logic-Reset, where IDCODE is in force. -/
theorem test_tap_reset : (({ tap := .selIr, ir := 3 } : Jtag).rise false true false).ir = 1 := by decide


/-! ### States to start from -/

/-- The device after self-test, in ACTIVE, with PF0's bus mastering on and the link up. -/
def running : State :=
  { State.reset with
    chip :=
      ({ State.reset.chip with
          tst := { State.reset.chip.tst with postdone := true, stage := 0 }
          pci := { State.reset.chip.pci with link := .l0 } }).updFn 0 fun x => { x with bme := true } }

/-- The same with a change of the chip. -/
def small (g : Chip → Chip) : State := { running with chip := g running.chip }

/-- One virtual function, VF1, which decodes its BARs. -/
def decoding : State := small fun c => { c with pci := { c.pci with vfEnable := true, vfMse := true, numVfs := 1 } }

/-! ### Queues -/

def oneCq : Cq := { log2 := 4, base := 0x1000#64 }
def pollWq : Wq := { log2 := 4, base := 0x2000#64, mode := .poll, cq := 1, bind := .none }
def doorWq : Wq := { log2 := 4, base := 0x2000#64, mode := .doorbell, cq := 1, bind := .none }
def pushWq : Wq := { log2 := 4, base := 0x2000#64, mode := .push, cq := 1, bind := .none }
/-- WQ 0 polls, WQ 1 takes doorbells and WQ 2 takes pushes. -/
def withQueues : State :=
  small fun c => (((c.putCq 0 1 oneCq).putWq 0 0 pollWq).putWq 0 1 doorWq).putWq 0 2 pushWq
/-- WQ 1 and the AQ are to read an entry again. -/
def rereads : State :=
  small fun c => (c.putWq 0 1 { doorWq with rereadDue := true }).updAq 0 fun q => { q with rereads := 1 }

/-- The AQ of PF0 is ready and has a command to fetch. -/
def aqWaits : State :=
  small fun c => c.updAq 0 fun q => { q with ready := true, enable := true, sqLog := 4, cqLog := 4, sqP := 1#32 }

/-- An admin command: its opcode, and its other dwords. -/
def cmd (op : Nat) (args : List (Nat × Nat) := []) : List Word :=
  (List.range 16).map fun i => BitVec.ofNat 32 (if i = 0 then op else ((args.find? fun a => a.1 == i).map Prod.snd).getD 0)
/-- PF0's AQ carries out a command. -/
def carryingIn (c : Chip) (op : Nat) (args : List (Nat × Nat)) : Chip :=
  c.updAq 0 fun q => { q with ready := true, enable := true, sqLog := 4, cqLog := 4, running := some (cmd op args) }
def carrying2 (op : Nat) (args : List (Nat × Nat)) : State := small fun c => carryingIn c op args
def wqArgs : List (Nat × Nat) := [(5, 0x1040101), (6, 0x20000), (7, 0x110)]

/-! ### Devices, endpoints and instances -/

/-- Device 0 on port 0. -/
def askDev : Dev := { port := 0, addr := 1, cfgVal := 1 }
/-- A bulk IN endpoint of it. -/
def bulkEp : Ep := { dev := 0, addr := 0x81, type := .bulk, wMax := 512 }
def withDev (c : Chip) : Chip := { c with devs := [(0, askDev)], eps := [(0, bulkEp)] }
def chanArgs : List (Nat × Nat) := [(5, 16), (6, 4), (8, 1)]
def setting : State := small fun c => { carryingIn (withDev c) 0x07 chanArgs with eps := [(16, bulkEp)] }

/-- The service descriptor of request `r` with ARG_A `a`. -/
def askDesc (r a : Nat) : Desc :=
  [BitVec.ofNat 32 (0x10 + r * 2 ^ 17), 0#32, 0#32, 0#32, BitVec.ofNat 32 a, 0#32, 0#32, 0#32]
def askXfer (r : Nat) : Xfer := { count := 0#32, d := askDesc r 0, moved := 0x10000 }
def askH (v : Svc) : Nat := if v = .enum then 0x800 else 3
def askWq (v : Svc) (x : Xfer) : Wq :=
  { log2 := 4, base := 0x2000#64, mode := .doorbell, cq := 1, bind := .svc (askH v), work := [x] }
def askInst (v : Svc) : Inst :=
  if v = .enum then { svc := .enum }
  else { svc := v, dev := 0, strm := { cdc := true }, slots := 1 }
/-- A request that waits for its service. -/
def askState (v : Svc) (i : Inst) (x : Xfer) (e : Tab Ep) : State :=
  small fun c =>
    { (withDev c).putWq 0 1 (askWq v x) with eps := e, insts := if v = .enum then [] else [(3, i)] }
def asking (v : Svc) (r : Nat) : State := askState v (askInst v) (askXfer r) [(0, bulkEp)]
/-- The same with an interrupt OUT endpoint of the instance. -/
def askingEp (v : Svc) (r : Nat) : State :=
  askState v (askInst v) { askXfer r with d := askDesc r 2 }
    [(16, { dev := 0, addr := 0x02, type := .intr, wMax := 8, inst := some 3 })]
def askingBulk (r : Nat) : State :=
  askState .strm (askInst .strm) (askXfer r) [(16, { dev := 0, addr := 0x02, type := .bulk, wMax := 512, inst := some 3 })]
def printInst : Inst := { askInst .strm with strm := {} }
def printing (r : Nat) : State := askState .strm printInst (askXfer r) []

/-- Instance 3 of a service, and a command of the AQ. -/
def strmInst : Inst := { svc := .strm, dev := 0 }
def serving (v : Svc) (op : Nat) (args : List (Nat × Nat)) : State :=
  small fun c => { carryingIn (withDev c) op args with insts := [(3, { svc := v, dev := 0 })] }

/-- A packet of an IN endpoint of instance 3 waits for its service. -/
def packetEp (ty : EpType) (b : Byte) : Ep :=
  { dev := 0, addr := 0x81, type := ty, wMax := 64, inst := some 3, cells := [{ data := [b], full := true }] }
def packeting (v : Svc) (ty : EpType) : State :=
  small fun c => { withDev c with eps := [(16, packetEp ty 0)], insts := [(3, { svc := v, dev := 0 })] }
def noticing (b : Byte) : State :=
  small fun c => { withDev c with eps := [(16, packetEp .intr b)], insts := [(3, askInst .ccid)] }
def gapInst : Inst := { svc := .hidx, dev := 0, hidx := { idleRun := true, text := [0x41#8] } }
def gapState : State := small fun c => { withDev c with insts := [(3, gapInst)] }
def jobXfer : Xfer := { count := 0#32, d := [0x11#32, 1#32, 0#32, 0#32, 0#32, 0#32, 0#32, 0#32], moved := 0x10000 }
def jobState : State := askState .strm (askInst .strm) jobXfer []
def rxInst : Inst := { svc := .strm, dev := 0, strm := { rxTimer := true } }
def rxState : State := small fun c => { withDev c with insts := [(3, rxInst)] }
def stallInst : Inst := { svc := .strm, dev := 0, strm := { job := some 7 } }
def stallState : State := small fun c => { withDev c with insts := [(3, stallInst)] }

/-! ### Binding, homing and long operations -/

/-- A vendor-specific interface 0 that STRM may take: one bulk pair of a printer. -/
def printerCfg : List Byte :=
  [9, 2, 32, 0, 1, 1, 0, 0x80, 50, 9, 4, 0, 0, 2, 7, 1, 2, 0, 7, 5, 0x81, 2, 0, 2, 0, 7, 5, 0x02, 2, 0, 2, 0]
def bindArgs : List (Nat × Nat) := [(5, 4), (6, 0)]
def binding : State :=
  small fun c =>
    { carryingIn c 0x08 bindArgs with
      devs := [(0, { askDev with cfg := printerCfg })]
      eps := [(16, bulkEp), (17, { bulkEp with addr := 0x02 })] }
def hlthArgs : List (Nat × Nat) := [(5, 5), (6, 0xFFFF)]
def homeArgs : List (Nat × Nat) := [(5, 0x1), (6, 16), (7, 0), (8, 0x1000), (9, 0x404)]
def homing : State :=
  { decoding with chip := (carryingIn decoding.chip 0x0F homeArgs).updAssoc 0 fun a => { a with valid := true } }

/-- The body of an oscillator trim record. -/
def calBody : List Byte := [0x80, 0x80, 0, 0]
def calType : Nat := 1
def calArgs : List (Nat × Nat) := [(4, 4), (5, 1)]
def dlArgs : List (Nat × Nat) := [(4, 512), (5, 1), (6, 512)]
def downloading : State :=
  small fun c => { carryingIn (withDev c) 0x12 dlArgs with eps := [(0, bulkEp), (1, { bulkEp with addr := 0x02 })] }
def measArgs : List (Nat × Nat) := [(4, 72), (6, 4096)]
def measuring : State := carrying2 0x13 measArgs
def anImage : Image := { ver := 1, digest := 0 }
def staged : State := small fun c => { carryingIn c 0x16 [(5, 0xFF)] with boot := { c.boot with staged := some anImage } }
def testOp : Op := { opid := 7, fn := 0, kind := .engine, cid := 1 }
def operating (op : Nat) : State :=
  small fun c => (carryingIn c op [(5, 7)]).updOps fun x => { x with recs := [testOp] }
def scrubOp : Op := { opid := 7, fn := 0, kind := .scrub, cid := 0xFFFF }
def scrubbing : State := small fun c => c.updOps fun x => { x with recs := [scrubOp] }
def reshapeOp : Op := { opid := 7, fn := 0, kind := .reshape, cid := 1 }
def reshaping : State := small fun c => c.updOps fun x => { x with recs := [reshapeOp] }
def movingOp (cut : Option Mfn) : Op := { opid := 7, fn := 0, kind := .reshape, cid := 1, cut := cut, rest := [3] }
def movingCut : State :=
  small fun c => (c.updOps fun x => { x with recs := [movingOp (some 0#14)] }).updOwn 3 fun x => { x with moving := true }
def movedOut : State :=
  small fun c => (c.updOps fun x => { x with recs := [movingOp none] }).updOwn 3 fun x => { x with moving := true, cut := true }

/-! ### Ports, transfers and the pool -/

def portIn (st : PortSt) : State := small fun c => c.updPort 0 fun x => { x with st := st }
def powerIn (g : PortPwr → PortPwr) : State := small fun c => c.updPw 0 g
/-- A work queue of endpoint 16 with a transfer in it. -/
def epWq (x : Xfer) : Wq := { log2 := 4, base := 0x2000#64, mode := .doorbell, cq := 1, bind := .ep 16, work := [x] }
def aXfer : Xfer := { count := 0#32, d := [3#32, 512#32, 0#32, 0#32, 0#32, 0#32, 0#32, 0#32] }
def onWire (e : Ep) (x : Xfer) : State :=
  small fun c =>
    { (c.updPort 0 fun p => { p with st := .enabled, speed := some .high }).putWq 0 1 (epWq x) with
      devs := [(0, askDev)]
      eps := [(16, { e with wq := some (0, 1) })] }
def working : State := onWire bulkEp aXfer
def intrOut : Ep := { dev := 0, addr := 0x02, type := .intr, wMax := 64, bInterval := 1 }
def expressXfer : Xfer :=
  { count := 0#32, d := [0x204#32, 8#32, 0#32, 0#32, 0#32, 0#32, 0#32, 0#32], express := true, started := true, moved := 8,
    inline := some [1, 2, 3, 4, 5, 6, 7, 8] }
def expressing : State := onWire intrOut expressXfer
def timedXfer : Xfer := { aXfer with tmo := some 0 }
def timedWq : Wq := { epWq timedXfer with bind := .none }
def timingOut : State := small fun c => c.putWq 0 1 timedWq
def lpmDev : Dev := { askDev with lpm := true }
def lpmState : State :=
  small fun c =>
    { c.updPort 0 fun p => { p with st := .enabled, speed := some .high, lpmOk := true, lpmEn := true, idle := 0x40 } with
      devs := [(0, lpmDev)] }
def hubReset : State :=
  small fun c =>
    (c.updRun 0 fun r =>
        { r with job := some (.fresh (some (2, 1)) 0 none), acts := [.req 1 2 0#32 0#32 .resetEnd false] })
def readingRead : MovRead := { fn := 0, what := .fill 16 0#32 0, addr := 0x3000#64, len := 2 }
def readingState : State := small fun c => c.updGrn fun g => { g with reads := [readingRead] }
def waitingState : State := onWire { bulkEp with waiting := true } aXfer
def chanEp : Ep := bulkEp
def chanState : State := small fun c => { c with eps := [(0, bulkEp)] }

/-! ### Tasks -/

def aTask : Task := { id := 9, flow := some 0, seq := 0, st := .queued, job := .tick 3 }
def taskIn (st : TaskSt) : State := small fun c => c.updDsp fun d => { d with tasks := [{ aTask with st := st }] }

/-! ### The network -/

def netUp : State := small fun c => c.updEth 0 fun p => { p with en := true, link := true, mac := 2 }
def aFrame : EthFrame := { fcsOk := true, da := 2#48, sa := 4#48, tag := none, sec := none, etype := 0x88B5#16, len := 64 }
def aDataFrame : RxFrame :=
  { eth := aFrame, resume := false, ackreq := false, assoc := 1#16, seq := 0#32, ack := 0#32, win := 8#16, recs := [] }
/-- Association 0 is open, with VF1 homed to it. -/
def assocUp : State :=
  { decoding with
    chip := ((decoding.chip.updEth 0 fun p => { p with en := true, link := true, mac := 2 }).updAssoc 0 fun a =>
        { a with valid := true, id := 1, st := .opened, fn := some 1 }).updFn 1 fun x =>
        { x with home := some { assoc := 0, pages := 16 } } }
def retxState : State :=
  small fun c => c.updAssoc 0 fun a => { a with st := .opened, retx := true, unacked := [(0#32, [])] }

/-! ### Power, self-test, the service port and the Tether -/

def entering (step : Nat) (t : PwrState) : State :=
  small fun c => c.updPwr fun x => { x with st := .entering, step := step, target := t, who := some .tether }
def exiting (step : Nat) : State := small fun c => c.updPwr fun x => { x with st := .exiting, step := step }
def sleeping : State := small fun c => c.updPwr fun x => { x with st := .deep }
def islState : State :=
  small fun c => c.updPwr fun x => { x with st := .exiting, step := 5, islWait := [islNum 2 0] }
def islState2 : State :=
  small fun c => c.updPwr fun x => { x with st := .exiting, step := 5, islWait := [islNum 2 0], islAgain := [islNum 2 0] }
def posting : State := { State.reset with chip := State.reset.chip }
def lnyMsg (op a b : Nat) (d : List Byte) : LnyCmd :=
  { opcode := op, tag := 1, len := d.length, arg0 := BitVec.ofNat 32 a, arg1 := BitVec.ofNat 32 b, data := d }
def lnyIn (op a b : Nat) (d : List Byte) : State := small fun c => c.updLny fun x => { x with cmd := some (lnyMsg op a b d) }
def lnyStaged : State :=
  small fun c => { c.updLny fun x => { x with cmd := some (lnyMsg 0x0C 0xFF 0 []) } with boot := { c.boot with staged := some anImage } }
def lnyUp : State := small fun c => c.updLny fun x => { x with vbus := true, speed := 3 }
def lnyConf : State := small fun c => c.updLny fun x => { x with vbus := true, speed := 3, configured := true, address := 1 }
def tthAt (sel : Nat) : State := small fun c => c.updTth fun x => { x with sel := sel }

/-! ### More of each -/

def wqDone (c : Chip) : Chip := (carryingIn (withDev c) 0x04 wqArgs).putCq 0 1 oneCq
def goneCq : Cq := { oneCq with deleting := some true }
/-- Device 0 is in a transfer. -/
def busyWq : Wq := { epWq { aXfer with started := true } with bind := .ep 0 }
def withBusy (c : Chip) : Chip :=
  { (c.updPort 0 fun p => { p with st := .enabled, speed := some .high }).putWq 0 1 busyWq with
    devs := [(0, askDev)]
    eps := [(0, { bulkEp with wq := some (0, 1) })] }
def busyEntering (step : Nat) (t : PwrState) : State := { running with chip := withBusy (entering step t).chip }
def waitAll : State := small fun c => { c.updGrn fun g => { g with waiters := [0] } with devs := [(0, askDev)], eps := [(0, { bulkEp with waiting := true })] }
/-- Associations, windows and records. -/
def reshapeArgs : List (Nat × Nat) := [(5, 0x10000)]
def reshapeState : State := { decoding with chip := carryingIn decoding.chip 0x0D reshapeArgs }
def windowHome : Home := { assoc := 0, pages := 1 }
def windowed : Chip := running.chip.updFn 1 fun x => { x with home := some windowHome }
def wornSlot (c : Chip) : Chip := c.updCal 1 fun x => { x with writes := 1000 }
def ClockBody : List Byte := calBody
def calCmd : State := small fun c => wornSlot (carryingIn c 0x14 calArgs)
def calLny : State := small fun c => wornSlot (c.updLny fun x => { x with cmd := some (lnyMsg 0x0A 1 0 calBody) })
def safeState : State := small fun c => { c with tst := { c.tst with safe := true } }

/-! ### Single steps on these states -/

/-- R12: MFN wraps from 0x3FFF to 0. -/
theorem test_edge_wraps_mfn :
    ∃ t, exec .deviceMicroframeEdge { running with chip := { running.chip with mfn := 0x3FFF } } = .next t ∧ t.chip.mfn = 0 :=
  ⟨_, rfl, by decide⟩

/-- R94: a PCOUNT of 16 fills a ring of 16 entries, and one of 17 stops the WQ. -/
theorem test_pcount_bounds :
    (∃ t q, exec (.wqDoorbell 0 1 16 []) withQueues = .next t ∧ t.chip.wq 0 1 = some q ∧ q.stopped = false ∧ q.pobs = 16) ∧
      ∃ t q, exec (.wqDoorbell 0 1 17 []) withQueues = .next t ∧ t.chip.wq 0 1 = some q ∧ q.stopped = true :=
  ⟨⟨_, _, rfl, rfl, by decide, by decide⟩, ⟨_, _, rfl, rfl, by decide⟩⟩

/-- R533: SELECT sets the offset that REGDATA reads. -/
theorem test_select : ∃ t, exec (.tthSelect 0x112800 none) running = .next t ∧ t.chip.tth.sel = 0x112800 := ⟨_, rfl, by decide⟩

/-! ### The hypotheses of the statements are met -/

/-- The hypotheses of HostRegisterAccessesComplete are met, clause by clause. -/
theorem test_meets_HostRegisterAccessesComplete :
    -- A microframe edge while MFN runs: MFN advances by one, wrapping in 14 bits; then the timed work of an
    -- edge.
    (∃ (s : State), (s.up) ∧ (s.chip.mfnRuns = true)) ∧
    -- A crossing word that arrives whole changes nothing; one corrected is reported; one that failed asks for
    -- a resend, and at the second failure it is reported, from both ends (R24).
    (∃ (s : State), (s.alive)) ∧
    -- A decoded write of an allowed width is carried out by the register block of its function.
    (∃ (s : State) (f : Fin 128) (bar4 : Bool) (off : Fin 0x2000000) (len : Fin 4097) (w hi : Word),
      (s.chip.hostReach = true) ∧ (s.chip.tst.safe = false) ∧ (s.chip.decodes f = true) ∧
      (inPadding f (if bar4 then 4 else 0) off = false) ∧ (accessOk off len = true)) ∧
    -- The same for a read.
    (∃ (s : State) (f : Fin 128) (bar4 : Bool) (off : Fin 0x2000000) (len : Fin 4097), (s.alive) ∧
      (s.chip.hostReach = true) ∧ (s.chip.decodes f = true) ∧ (inPadding f (if bar4 then 4 else 0) off = false) ∧
      (accessOk off len = true)) ∧
    -- A write to a reserved or padded place of a function that decodes it has no effect, and a read of
    -- padding answers zeros.
    (∃ (s : State) (f : Fin 128) (off : Fin 0x2000000) (len : Fin 4097), (s.alive) ∧ (s.chip.hostReach = true) ∧
      (s.chip.tst.safe = false) ∧ (s.chip.decodes f = true) ∧ (inPadding f 0 off = true)) ∧
    -- A doorbell-space write that is not accepted is logged by its function, and counted for every queue
    -- whose slot it names.
    (∃ (s : State) (f : Fin 128) (off : Fin 16384) (len : Fin 4097), (s.up) ∧ (s.chip.fnExists f = true) ∧
      (s.chip.homed f = false) ∧ (bar2Accepted off len = false) ∧ (bar2Reserved off len = false) ∧ (len.val ≠ 0)) ∧
    -- An access to a virtual function that is not there is logged by PF0; a read is answered Unsupported
    -- Request (R618).
    (∃ (s : State) (n : Fin 128), (s.alive) ∧ (n.val ≠ 0) ∧
      ((s.chip.pci.vfEnable = false ∨ s.chip.pci.vfMse = false ∨ s.chip.pci.numVfs < n.val))) ∧
    -- A failed read of host memory is logged, reported from source 0x100, and given to what it was for (R49);
    -- so is a timeout.
    (∃ (s : State) (f : Fin 128) (r : ReadFor) (e : ReadFailure), (s.up)) :=
  ⟨⟨running, by decide⟩,
   ⟨running, by decide⟩,
   ⟨running, 0, false, 0x10004, 4, 1, 0, by decide⟩,
   ⟨running, 0, false, 0, 4, by decide⟩,
   ⟨decoding, 1, 0x10000, 4, by decide⟩,
   ⟨running, 0, 1, 2, by decide⟩,
   ⟨running, 1, by decide⟩,
   ⟨running, 0, .admin, .poisoned, by decide⟩⟩

/-- The hypotheses of FunctionRowsComplete are met, clause by clause. -/
theorem test_meets_FunctionRowsComplete :
    -- Setting and clearing VF Enable.
    (∃ (s : State), (s.alive)) ∧
    -- NumVFs takes a value up to 127 while VF Enable is 0, and nothing else.
    (∃ (s : State) (w : Fin 65536), (s.alive) ∧ (s.chip.pci.vfEnable = false)) ∧
    -- FLR of a virtual function that exists.
    (∃ (s : State) (f : Fin 128), (s.alive) ∧ (f.val ≠ 0) ∧ (s.chip.fnExists f = true)) ∧
    -- A conventional reset in ACTIVE or DOZE.
    (∃ (s : State), (s.alive) ∧ ((s.chip.pwr.st = .active ∨ s.chip.pwr.st = .doze))) ∧
    -- Transactions Pending clears when the last of them is gone.
    (∃ (s : State) (f : Fin 128), (s.alive)) ∧
    -- A function reset that runs ends: RESETTING clears, RESET_DONE sets, private source 21 is raised, and a
    -- FUNCTION_RESET or NET_UNHOME command that waits for it succeeds.
    (∃ (s : State) (f : Fin 128), (s.alive) ∧ ((s.chip.fn f).resetting = true)) ∧
    -- Bus Master Enable and the MSI-X control of a function that exists; what was held by them goes on.
    (∃ (s : State) (f : Fin 128) (b m : Bool), (s.alive) ∧ (s.chip.fnExists f = true)) ∧
    -- D3hot and an MSI-X table entry are written.
    (∃ (s : State) (f : Fin 128) (v : Fin 64) (k : Fin 4) (w : Word) (d3 : Bool), (s.alive)) :=
  ⟨⟨running, by decide⟩,
   ⟨running, 127, by decide⟩,
   ⟨decoding, 1, by decide⟩,
   ⟨running, by decide⟩,
   ⟨running, 1, by decide⟩,
   ⟨small fun c => c.updFn 1 fun x => { x with resetting := true }, 1, by decide⟩,
   ⟨running, 0, true, true, by decide⟩,
   ⟨running, 0, 63, 3, 1, true, by decide⟩⟩

/-- The hypotheses of DoorbellRowsComplete are met, clause by clause. -/
theorem test_meets_DoorbellRowsComplete :
    -- A doorbell of a work queue writes its slot; so does a poll-mode one; each wakes a dozing device.
    (∃ (s : State) (f : Fin 128) (n : Fin 64) (p : Word) (ws : List Word), (s.up) ∧ (s.chip.bar2Open f = true)) ∧
    -- The words of a PUSH slot below the doorbell are kept for the doorbell that follows.
    (∃ (s : State) (f : Fin 128) (n : Fin 64) (o : Fin 24) (ws : List Word) (q : Wq), (s.up) ∧
      (s.chip.bar2Open f = true) ∧ (s.chip.slotDead f n = false) ∧ (s.chip.wq f n = some q) ∧ (q.mode = .push)) ∧
    -- The end of a poll interval makes a poll due, once.
    (∃ (s : State) (f : Fin 128) (n : Fin 64) (q : Wq), (s.up) ∧ (s.chip.wq f n = some q) ∧ (q.mode = .poll) ∧
      (q.reading = false) ∧ (s.chip.fetchRuns = true) ∧ (s.chip.bindAsleep q.bind = false)) ∧
    -- An opportunity to read a ring, and the return of what was read.
    (∃ (s : State) (f : Fin 128) (n : Fin 64) (bs : List Byte), (s.up)) ∧
    -- An entry that was not new is read again.
    (∃ (s : State) (f : Fin 128) (n : Fin 64) (q : Wq), (s.up) ∧ (s.chip.dmaHeld f = false) ∧
      (s.chip.wq f n = some q) ∧ (q.rereadDue = true) ∧ (q.reading = false) ∧ (q.stopped = false)) ∧
    (∃ (s : State) (f : Fin 128), (s.up) ∧ (s.chip.dmaHeld f = false) ∧ ((s.chip.fn f).aq.rereads ≠ 0) ∧
      ((s.chip.fn f).aq.reading = false) ∧ ((s.chip.fn f).aq.stopped = false)) ∧
    -- The consumer count of a completion queue is written; a spill area that cannot drain before its queue
    -- goes is counted as lost.
    (∃ (s : State) (f : Fin 128) (n : Fin 16) (w : Word), (s.up) ∧ (s.chip.bar2Open f = true)) ∧
    (∃ (s : State) (f : Fin 128) (n : Fin 16) (w : Word) (q : _), (s.up) ∧ (s.chip.cq f n = some q) ∧
      (q.deleting.isSome = true)) ∧
    -- The admin queue is enabled, becomes ready, and is disabled.
    (∃ (s : State) (f : Fin 128) (w : Word), (s.up) ∧ (s.chip.fnExists f = true) ∧ (s.chip.homed f = false)) ∧
    (∃ (s : State) (f : Fin 128) (w : Word), (s.up) ∧ (s.chip.fnExists f = true) ∧ (s.chip.homed f = false) ∧
      ((s.chip.fn f).aq.starting = true)) ∧
    -- Its two doorbells.
    (∃ (s : State) (f : Fin 128) (w : Word), (s.up) ∧ (s.chip.bar2Open f = true)) ∧
    -- The next function in turn has its admin command fetched.
    (∃ (s : State) (f : Nat), (s.up) ∧ (nextAfter s.chip.fnNums s.chip.aqPtr s.chip.aqReady = some f)) ∧
    -- What an admin command read brings: an entry of the present lap is carried out, one of the last lap is
    -- read again twice at most, and a poisoned one stops the queue.
    (∃ (s : State) (f : Fin 128) (bs : List Byte), (s.up) ∧ ((s.chip.fn f).aq.reading = true) ∧
      ((s.chip.fn f).home = none)) :=
  ⟨⟨running, 0, 63, 1, [], by decide⟩,
   ⟨withQueues, 0, 2, 23, [1#32], pushWq, by decide⟩,
   ⟨withQueues, 0, 0, pollWq, by decide⟩,
   ⟨running, 0, 0, [], by decide⟩,
   ⟨rereads, 0, 1, { doorWq with rereadDue := true }, by decide⟩,
   ⟨rereads, 0, by decide⟩,
   ⟨running, 0, 1, 5, by decide⟩,
   ⟨small fun c => c.putCq 0 1 goneCq, 0, 1, 5, goneCq, by decide⟩,
   ⟨small fun c => c.updAq 0 fun q => { q with starting := true }, 0, 0, by decide⟩,
   ⟨small fun c => c.updAq 0 fun q => { q with starting := true }, 0, by decide⟩,
   ⟨running, 0, 1, by decide⟩,
   ⟨aqWaits, 0, by decide⟩,
   ⟨small fun c => c.updAq 0 fun q => { q with reading := true }, 0, [], by decide⟩⟩

/-- The hypotheses of QueueCommandsComplete are met, clause by clause. -/
theorem test_meets_QueueCommandsComplete :
    -- IDENTIFY writes the record and succeeds.
    (∃ (s : State) (f : Fin 128) (d : List Word), (s.up) ∧ (s.carries f 0x01 d) ∧ (128 ≤ admLen d) ∧
      (s.chip.bufFault f d 128 = none)) ∧
    -- CREATE_CQ puts an empty completion queue in place.
    (∃ (s : State) (f : Fin 128) (d : List Word), (s.up) ∧ (s.carries f 0x02 d) ∧
      (bits (dw d 5) 3 0 < (s.chip.fn f).cqs) ∧ (s.chip.cq f (bits (dw d 5) 3 0) = none) ∧ ((4 ≤ bits (dw d 5) 12 8 ∧
      bits (dw d 5) 12 8 ≤ 16)) ∧ ((bits (dw d 5) 19 16 = 0 ∨ 8 ≤ bits (dw d 5) 19 16 ∧ bits (dw d 5) 19 16 ≤ 12)) ∧
      (s.chip.ringFault f d (bits (dw d 5) 12 8) = none) ∧
      (spillEntries (bits (dw d 5) 19 16) / 256 ≤ s.chip.spillFree)) ∧
    -- DELETE_CQ of a queue that no work queue names: it goes at once when its spill area is empty.
    (∃ (s : State) (f : Fin 128) (d : List Word) (q : Cq), (s.up) ∧ (s.carries f 0x03 d) ∧
      (s.chip.cq f (bits (dw d 5) 3 0) = some q) ∧ (q.deleting = none) ∧
      (((s.chip.wqNums f).any fun w => ((s.chip.wq f w).map Wq.cq) == some (bits (dw d 5) 3 0)) = false)) ∧
    -- CREATE_WQ puts the work queue in place and binds it.
    (∃ (s : State) (f : Fin 128) (d : List Word) (q : Cq), (s.up) ∧ (s.carries f 0x04 d) ∧
      (s.chip.bindDenied f (admBind d) = false) ∧ (bits (dw d 5) 5 0 < (s.chip.fn f).wqs) ∧
      (s.chip.wq f (bits (dw d 5) 5 0) = none) ∧ (s.chip.cq f (bits (dw d 5) 11 8) = some q) ∧ (q.deleting = none) ∧
      ((4 ≤ bits (dw d 5) 20 16 ∧ bits (dw d 5) 20 16 ≤ 16)) ∧ (bits (dw d 5) 25 24 ≠ 3) ∧ ((bits (dw d 5) 25 24 = 0 →
      s.chip.homed f = false ∧ bits (dw d 6) 19 16 ≠ 0)) ∧ (s.chip.bindTaken (admBind d) = false) ∧
      (bits (dw d 7) 7 0 ≠ 0) ∧ ((1 ≤ bits (dw d 7) 14 8 ∧ bits (dw d 7) 14 8 ≤ 64)) ∧
      (s.chip.ringFault f d (bits (dw d 5) 20 16) = none)) ∧
    -- DELETE_WQ ends the work of a queue that is there, as CANCELLED.
    (∃ (s : State) (f : Fin 128) (d : List Word) (q : Wq), (s.up) ∧ (s.carries f 0x05 d) ∧
      (s.chip.wq f (bits (dw d 5) 5 0) = some q) ∧ (q.deleting = none)) ∧
    -- RESTART_WQ of a stopped queue sets its counts to the value given.
    (∃ (s : State) (f : Fin 128) (d : List Word) (q : Wq), (s.up) ∧ (s.carries f 0x06 d) ∧
      (s.chip.wq f (bits (dw d 5) 5 0) = some q) ∧ (q.stopped = true) ∧ (q.deleting = none) ∧ (q.err ≠ 4)) ∧
    -- SET_CHANNEL takes the quota, wait limit and marks, and answers them.
    (∃ (s : State) (f : Fin 128) (d : List Word) (e : Ep), (s.up) ∧ (s.carries f 0x07 d) ∧
      (s.chip.ep (bits (dw d 5) 12 0) = some e) ∧ (s.chip.bindDenied f (.ep (bits (dw d 5) 12 0)) = false) ∧
      (marksBad (!e.isIn) false (2 * e.t + bits (dw d 6) 7 0) (dw d 7) = none) ∧
      (marksBad (e.isIn || e.type == .control) (e.isIn && e.periodic) (2 * e.t + bits (dw d 6) 7 0) (dw d 8) = none)) :=
  ⟨⟨carrying2 0x01 [(4, 128)], 0, cmd 0x01 [(4, 128)], by decide⟩,
   ⟨carrying2 0x02 [(2, 0x1000), (5, 0x80401)], 0, cmd 0x02 [(2, 0x1000), (5, 0x80401)], by decide⟩,
   ⟨small fun c => (carryingIn c 0x03 [(5, 1)]).putCq 0 1 oneCq, 0, cmd 0x03 [(5, 1)], oneCq, by decide⟩,
   ⟨small wqDone, 0, cmd 0x04 wqArgs, oneCq, by decide⟩,
   ⟨small fun c => (carryingIn c 0x05 [(5, 1)]).putWq 0 1 doorWq, 0, cmd 0x05 [(5, 1)], doorWq, by decide⟩,
   ⟨small fun c => (carryingIn c 0x06 [(5, 1)]).putWq 0 1 { doorWq with stopped := true, err := 1 }, 0, cmd 0x06 [(5, 1)], { doorWq with stopped := true, err := 1 }, by decide⟩,
   ⟨setting, 0, cmd 0x07 chanArgs, bulkEp, by decide⟩⟩

/-- The hypotheses of ServiceAndFunctionCommandsComplete are met, clause by clause. -/
theorem test_meets_ServiceAndFunctionCommandsComplete :
    -- BIND_SERVICE of a service on an interface: a new instance with its flows begins to bind.
    (∃ (s : State) (f : Fin 128) (d : List Word) (v : Svc) (k : Nat), (s.up) ∧ (s.carries f 0x08 d) ∧
      (svcOf (bits (dw d 5) 7 0) = some v) ∧ (v ≠ .hlth) ∧ (s.chip.freeInstHandle = some k) ∧
      (((s.chip.bindIfChecks f (some v) (bits (dw d 6) 15 0) (bits (dw d 5) 15 8)).findSome? id) = none) ∧
      ((bits (dw d 7) 6 0 = 0 ∨ 4 ≤ bits (dw d 7) 6 0 ∧ bits (dw d 7) 6 0 ≤ 64)) ∧
      (s.chip.flowsInUse + (svcFlows v (s.chip.slotsOf (bits (dw d 6) 15 0) (bits (dw d 5) 15 8))).1 ≤ 16384) ∧
      (s.chip.bindKib d ≤ s.chip.bufFree)) ∧
    -- BIND_SERVICE of HLTH, which watches a root port.
    (∃ (s : State) (f : Fin 128) (d : List Word) (k : Nat), (s.up) ∧ (s.carries f 0x08 d) ∧
      (svcOf (bits (dw d 5) 7 0) = some .hlth) ∧ (s.chip.freeInstHandle = some k) ∧
      (s.chip.ownerOf (bits (dw d 5) 22 16) = f.val) ∧
      ((s.chip.insts.any fun e => e.2.svc == .hlth && e.2.port == bits (dw d 5) 22 16 && e.2.st != .detached) = false) ∧
      (bits (dw d 6) 15 0 = 0xFFFF) ∧ ((bits (dw d 7) 6 0 = 0 ∨ 4 ≤ bits (dw d 7) 6 0 ∧ bits (dw d 7) 6 0 ≤ 64)) ∧
      (s.chip.flowsInUse + (svcFlows .hlth (s.chip.slotsOf (bits (dw d 6) 15 0) (bits (dw d 5) 15 8))).1 ≤ 16384) ∧
      (s.chip.bindKib d ≤ s.chip.bufFree)) ∧
    -- UNBIND_SERVICE of an instance that runs.
    (∃ (s : State) (f : Fin 128) (d : List Word) (i : Inst), (s.up) ∧ (s.carries f 0x09 d) ∧
      (s.chip.instOwner (bits (dw d 5) 11 0) = some f.val) ∧ (s.chip.inst (bits (dw d 5) 11 0) = some i) ∧
      (i.svc ≠ .enum) ∧ (i.st ≠ .binding) ∧ (i.st ≠ .closing)) ∧
    -- PORT_CONTROL of an owned port carries out RESET, SUSPEND or RESUME, and answers PRT_STATUS.
    (∃ (s : State) (f : Fin 128) (d : List Word), (s.up) ∧ (s.carries f 0x0A d) ∧
      (s.chip.ownerOf (bits (dw d 5) 6 0) = f.val) ∧ ((1 ≤ bits (dw d 5) 11 8 ∧ bits (dw d 5) 11 8 ≤ 3))) ∧
    -- FUNCTION_RESET of a virtual function starts its reset.
    (∃ (s : State) (d : List Word), (s.up) ∧ (s.carries 0 0x0B d) ∧ (bits (dw d 5) 6 0 ≠ 0) ∧
      (s.chip.fnExists (bits (dw d 5) 6 0) = true)) ∧
    -- SET_FN_ARB sets the weight and burst that the function takes up next.
    (∃ (s : State) (d : List Word), (s.up) ∧ (s.carries 0 0x0C d) ∧ (s.chip.fnExists (bits (dw d 5) 6 0) = true) ∧
      (bits (dw d 5) 15 8 ≠ 0) ∧ (bits (dw d 5) 21 16 ≠ 0)) ∧
    -- RESHAPE with acceptable operands.
    (∃ (s : State) (d : List Word), (s.up) ∧ (s.carries 0 0x0D d) ∧ (s.chip.reshapeBad d = none)) ∧
    -- POWER_STATE starts the entry.
    (∃ (s : State) (d : List Word), (s.up) ∧ (s.carries 0 0x0E d) ∧ ((1 ≤ bits (dw d 5) 2 0 ∧
      bits (dw d 5) 2 0 ≤ 5)) ∧ (s.chip.powerRefused (bits (dw d 5) 2 0) (bits (dw d 5) 11 8) = false)) ∧
    -- NET_HOME homes the function.
    (∃ (s : State) (d : List Word), (s.up) ∧ (s.carries 0 0x0F d) ∧ (bits (dw d 5) 6 0 ≠ 0) ∧
      (s.chip.fnExists (bits (dw d 5) 6 0) = true) ∧ (s.chip.homed (bits (dw d 5) 6 0) = false) ∧
      ((s.chip.fn (bits (dw d 5) 6 0)).aq.enable = false) ∧ (s.chip.wqNums (bits (dw d 5) 6 0) = []) ∧
      (s.chip.cqNums (bits (dw d 5) 6 0) = []) ∧ ((s.chip.fns.filter fun e => e.2.home.isSome).length < 32) ∧
      ((s.chip.assoc (bits (dw d 5) 12 8)).valid = true) ∧ ((s.chip.assoc (bits (dw d 5) 12 8)).fn = none) ∧
      ((1 ≤ bits (dw d 6) 12 0 ∧ bits (dw d 6) 12 0 ≤ 4096)) ∧ ((4 ≤ bits (dw d 9) 4 0 ∧ bits (dw d 9) 4 0 ≤ 16)) ∧
      ((4 ≤ bits (dw d 9) 12 8 ∧ bits (dw d 9) 12 8 ≤ 16)) ∧ (((dw d 7).toNat % 4096 = 0 ∧
      (dw d 7).toNat + 64 * 2 ^ bits (dw d 9) 4 0 ≤ bits (dw d 6) 12 0 * 4096)) ∧ (((dw d 8).toNat % 4096 = 0 ∧
      (dw d 8).toNat + 64 * 2 ^ bits (dw d 9) 12 8 ≤ bits (dw d 6) 12 0 * 4096)) ∧ (s.chip.tst.netFail = false) ∧
      (bits (dw d 6) 12 0 ≤ s.chip.homePages)) ∧
    -- NET_UNHOME resets the homed function and takes its window away.
    (∃ (s : State) (d : List Word), (s.up) ∧ (s.carries 0 0x10 d) ∧ (s.chip.homed (bits (dw d 5) 6 0) = true)) :=
  ⟨⟨binding, 0, cmd 0x08 bindArgs, .strm, 0, by decide⟩,
   ⟨carrying2 0x08 hlthArgs, 0, cmd 0x08 hlthArgs, 0, by decide⟩,
   ⟨serving .strm 0x09 [(5, 3)], 0, cmd 0x09 [(5, 3)], strmInst, by decide⟩,
   ⟨carrying2 0x0A [(5, 0x100)], 0, cmd 0x0A [(5, 0x100)], by decide⟩,
   ⟨{ decoding with chip := carryingIn decoding.chip 0x0B [(5, 1)] }, cmd 0x0B [(5, 1)], by decide⟩,
   ⟨carrying2 0x0C [(5, 0x10100)], cmd 0x0C [(5, 0x10100)], by decide⟩,
   ⟨reshapeState, cmd 0x0D reshapeArgs, by decide⟩,
   ⟨carrying2 0x0E [(5, 1)], cmd 0x0E [(5, 1)], by decide⟩,
   ⟨homing, cmd 0x0F homeArgs, by decide⟩,
   ⟨small fun c => (carryingIn c 0x10 [(5, 1)]).updFn 1 fun x => { x with home := some { assoc := 0, pages := 1 } }, cmd 0x10 [(5, 1)], by decide⟩⟩

/-- The hypotheses of LongOperationCommandsComplete are met, clause by clause. -/
theorem test_meets_LongOperationCommandsComplete :
    -- SELFTEST starts its long operation.
    (∃ (s : State) (d : List Word), (s.up) ∧ (s.carries 0 0x11 d) ∧ (64 ≤ admLen d) ∧ ((1 ≤ stKind d ∧
      stKind d ≤ 4)) ∧ (stTargetBad d = false) ∧ (s.chip.testRefused d = false)) ∧
    -- PERIPH_DOWNLOAD reads its payload, opens an operation and sends the first chunk.
    (∃ (s : State) (f : Fin 128) (d : List Word) (payload : List Byte) (r : Chip), (s.up) ∧ (s.carries f 0x12 d) ∧
      (s.chip.epOwner (dlEp d) = some f.val) ∧ (dlLen d ≠ 0) ∧ (s.chip.bufFault f d (dlLen d) = none) ∧
      (s.chip.dlEpBad d = false) ∧ (s.chip.dlChunkBad d = false) ∧ ((dlControl d = true → bit (dw d 7) 7 = false ∧
      bits (dw d 7) 6 5 ≠ 0 ∧ bits (dw d 7) 6 5 ≠ 3)) ∧ (s.chip.dlInUse (dlEp d) = false) ∧
      (s.chip.opRoom f = some r)) ∧
    -- CAL_MEASURE opens an operation.
    (∃ (s : State) (d : List Word) (r : Chip), (s.up) ∧ (s.carries 0 0x13 d) ∧ (72 ≤ admLen d) ∧ ((16 ≤ cmSamples d ∧
      cmSamples d ≤ 4096)) ∧ (s.chip.cluRuns (bits (dw d 5) 3 0) = true) ∧ (s.chip.opRoom 0 = some r)) ∧
    -- CAL_WRITE of a body that its type allows starts the write.
    (∃ (s : State) (d : List Word) (payload : List Byte), (s.up) ∧ (s.carries 0 0x14 d) ∧
      (calLen (bits (dw d 5) 7 0) = some (admLen d)) ∧
      (calBodyOk (bits (dw d 5) 7 0) ((s.chip.fresh.2.hostReadData 0 (admAddr d) (admLen d) payload).take (admLen d)) = true) ∧
      (s.chip.fresh.2.calWorn (bits (dw d 5) 7 0) = false) ∧ (s.chip.fresh.2.calRefused s.locks = false)) ∧
    -- IMAGE_STAGE reads the image and starts to check it.
    (∃ (s : State) (d : List Word) (payload : List Byte), (s.up) ∧ (s.carries 0 0x15 d) ∧ ((1 ≤ admLen d ∧
      admLen d ≤ 4194304)) ∧ (s.chip.stageRefused = false)) ∧
    -- IMAGE_APPLY of sections that are staged.
    (∃ (s : State) (d : List Word), (s.up) ∧ (s.carries 0 0x16 d) ∧ (s.chip.applyBad (bits (dw d 5) 7 0) = false) ∧
      (s.chip.applyRefused = false)) ∧
    -- LONG_SUSPEND of a running operation waits for its safe point; of a suspended one it succeeds at once.
    (∃ (s : State) (f : Fin 128) (d : List Word) (o : Op), (s.up) ∧ (s.carries f 0x20 d) ∧
      (s.chip.opSeen f (bits (dw d 5) 15 0) = some o) ∧ ((o.st = .running ∨ o.st = .suspended))) ∧
    -- LONG_RESUME resumes it, or takes back a request to suspend.
    (∃ (s : State) (f : Fin 128) (d : List Word) (o : Op), (s.up) ∧ (s.carries f 0x21 d) ∧
      (s.chip.opSeen f (bits (dw d 5) 15 0) = some o) ∧ ((o.st = .running ∨ o.st = .suspended))) ∧
    -- LONG_CANCEL makes it CANCELLING and is answered at once.
    (∃ (s : State) (f : Fin 128) (d : List Word) (o : Op), (s.up) ∧ (s.carries f 0x22 d) ∧
      (s.chip.opSeen f (bits (dw d 5) 15 0) = some o) ∧ ((o.st = .running ∨ o.st = .suspended))) ∧
    -- QUERY_OP writes the records that the function sees.
    (∃ (s : State) (f : Fin 128) (d : List Word), (s.up) ∧ (s.carries f 0x23 d) ∧ (32 ≤ admLen d) ∧
      (s.chip.bufFault f d (admLen d) = none)) :=
  ⟨⟨carrying2 0x11 [(4, 64), (5, 1)], cmd 0x11 [(4, 64), (5, 1)], by decide⟩,
   ⟨downloading, 0, cmd 0x12 dlArgs, [], downloading.chip, by decide⟩,
   ⟨measuring, cmd 0x13 measArgs, measuring.chip, by decide⟩,
   ⟨carrying2 0x14 calArgs, cmd 0x14 calArgs, calBody, by decide⟩,
   ⟨carrying2 0x15 [(4, 1)], cmd 0x15 [(4, 1)], [], by decide⟩,
   ⟨staged, cmd 0x16 [(5, 0xFF)], by decide⟩,
   ⟨operating 0x20, 0, cmd 0x20 [(5, 7)], testOp, by decide⟩,
   ⟨operating 0x21, 0, cmd 0x21 [(5, 7)], testOp, by decide⟩,
   ⟨operating 0x22, 0, cmd 0x22 [(5, 7)], testOp, by decide⟩,
   ⟨carrying2 0x23 [(4, 32)], 0, cmd 0x23 [(4, 32)], by decide⟩⟩

/-- The hypotheses of LongOperationEventsComplete are met, clause by clause. -/
theorem test_meets_LongOperationEventsComplete :
    -- A safe point of a running operation that has nothing on the wire.
    (∃ (s : State) (i : Fin 65536) (o : Op), (s.up) ∧ (s.chip.op i = some o) ∧ (o.st = .running) ∧
      ((o.kind = .scrub ∨ o.kind = .download ∧ s.chip.opOnWire o = false ∧ o.byPower = false ∨ o.kind = .streamJob ∧
      s.chip.opOnWire o = false ∨ o.kind = .reshape ∧ s.chip.inMove o = false))) ∧
    -- Of a measurement, with one more sample made.
    (∃ (s : State) (i : Fin 65536) (o : Op), (s.up) ∧ (s.chip.op i = some o) ∧ (o.st = .running) ∧
      (o.kind = .calMeasure)) ∧
    -- An operation ends, by its kind.
    (∃ (s : State) (i : Fin 65536) (o : Op) (fail : Option (Nat × Nat)) (found : List Word), (s.up) ∧
      (s.chip.op i = some o) ∧ (o.st ≠ .done) ∧ (s.chip.dmaHeld 0 = false)) ∧
    -- A scrub period starts a scrub of 4,096 blocks when none runs.
    (∃ (s : State) (r : Chip), (s.up) ∧ (s.chip.grn.dramScrub = true) ∧ (s.chip.scrubOp = none) ∧
      (s.chip.opRoom 0 = some r)) ∧
    -- The scrubber reads a word of Garnet while its scrub runs: an error is corrected or poisons, the word is
    -- written back, and PROGRESS follows the address.
    (∃ (s : State) (w : GarnetWord) (addr : Fin 0x10000000) (e : Option Bool) (o : Op), (s.up) ∧
      ((wordOf w).group = 0) ∧ (s.chip.scrubOp = some o) ∧ (o.st = .running) ∧ (s.chip.dramRuns = true)) ∧
    -- A corrected word is written back.
    (∃ (s : State) (addr : Fin 0x10000000), (s.up)) ∧
    -- The delay between two chunks of a download ends.
    (∃ (s : State) (i : Fin 65536) (o : Op), (s.up) ∧ (s.chip.op i = some o) ∧ (o.kind = .download) ∧
      (o.delay = true)) :=
  ⟨⟨scrubbing, 7, scrubOp, by decide⟩,
   ⟨small fun c => c.updOps fun x => { x with recs := [{ scrubOp with kind := .calMeasure }] }, 7, { scrubOp with kind := .calMeasure }, by decide⟩,
   ⟨scrubbing, 7, scrubOp, none, [], by decide⟩,
   ⟨small fun c => c.updGrn fun g => { g with dramScrub := true }, (small fun c => c.updGrn fun g => { g with dramScrub := true }).chip, by decide⟩,
   ⟨scrubbing, .freeCell, 0xFFFFFFF, none, scrubOp, by decide⟩,
   ⟨running, 0, by decide⟩,
   ⟨small fun c => c.updOps fun x => { x with recs := [{ scrubOp with kind := .download, delay := true }] }, 7, { scrubOp with kind := .download, delay := true }, by decide⟩⟩

/-- The hypotheses of SchedulerRowsComplete are met, clause by clause. -/
theorem test_meets_SchedulerRowsComplete :
    -- The plan of a port is built for the microframe after next, once.
    (∃ (s : State) (p : Fin 128), (s.up) ∧ (s.chip.schedRuns = true) ∧ ((s.chip.clu (p / 8)).asleep = false) ∧
      (((s.chip.port p).sc.plans.any fun x => x.mfn == s.chip.mfn + 2#14) = false)) ∧
    -- An asynchronous endpoint with work joins the window of its port.
    (∃ (s : State) (p : Fin 128) (h : Fin 8192) (e : Ep), (s.up) ∧ (s.chip.schedRuns = true) ∧
      ((s.chip.port p).st = .enabled) ∧ (s.chip.epPort h = some p.val) ∧
      (((s.chip.port p).sc.window.contains h.val) = false) ∧ ((s.chip.port p).sc.window.length < 32) ∧
      (s.chip.ep h = some e) ∧ (e.periodic = false) ∧ (e.gone = false) ∧ (e.halted = false) ∧
      ((s.chip.chan h).isSome = true)) ∧
    -- A port microframe starts; a port that it enables wakes a dozing device.
    (∃ (s : State) (p : Fin 128) (excess : Bool), (s.up) ∧ (s.chip.cluRuns (p / 8) = true)) ∧
    -- The edge word of a cluster: the first locks it, one more than two cycles off unlocks it and is
    -- reported, any other leaves it locked.
    (∃ (s : State) (k : Fin 16) (off : Fin 15000), (s.up) ∧ (s.chip.mfnRuns = true) ∧
      ((s.chip.clu k).asleep = false) ∧ ((s.chip.clu k).locked = false)) ∧
    (∃ (s : State) (k : Fin 16) (off : Fin 15000), (s.up) ∧ (s.chip.mfnRuns = true) ∧
      ((s.chip.clu k).asleep = false) ∧ ((s.chip.clu k).locked = true) ∧ (off.val ≤ 2)) ∧
    (∃ (s : State) (k : Fin 16) (off : Fin 15000), (s.up) ∧ (s.chip.mfnRuns = true) ∧
      ((s.chip.clu k).asleep = false) ∧ ((s.chip.clu k).locked = true) ∧ (3 ≤ off.val)) ∧
    -- The port engine takes up its next transaction.
    (∃ (s : State) (p : Fin 128) (t : Fin 60000), (s.up) ∧ ((s.chip.clu (p / 8)).asleep = false)) ∧
    -- An express OUT that fits is sent at once.
    (∃ (s : State) (p : Fin 128) (h : Fin 8192) (t : Fin 60000) (e : Ep) (ch : Chan), (s.up) ∧
      ((s.chip.port p).st = .enabled) ∧ ((s.chip.port p).tokHold = false) ∧ ((s.chip.port p).sc.txn = none) ∧
      ((s.chip.port p).waiting = none) ∧ ((s.chip.port p).takeover = false) ∧ (s.chip.epPort h = some p.val) ∧
      (s.chip.ep h = some e) ∧ (s.chip.chan h = some ch) ∧ (ch.x.express = true) ∧ (ch.x.d.dataOut = true) ∧
      (e.halted = false) ∧ (ch.x.cause = none) ∧ (s.chip.chanHeld h = false) ∧
      ((s.chip.fitsAt p t ((s.chip.reqFor p h e ch.x false).need + 90 + s.chip.itemsNeed p) = true ∨ (s.chip.port p).sc.items = [] ∧
      s.chip.fitsAt p t (s.chip.reqFor p h e ch.x false).need = true))) ∧
    -- An LPM transaction: an EXT token, then the LPM token, and a response is awaited.
    (∃ (s : State) (p : Fin 128) (t : Fin 60000) (d : Dev), (s.up) ∧ ((s.chip.rootDev p).bind s.chip.dev = some d) ∧
      (s.chip.lpmReady p = true) ∧
      (s.chip.fitsAt p t (charge .ping (s.chip.hs p) 0 (tokenLen (s.chip.hs p) Pid.ext d.addr 0) 0 0 - Charge.tail .ping (s.chip.hs p)) = true)) :=
  ⟨⟨running, 127, by decide⟩,
   ⟨working, 0, 16, { bulkEp with wq := some (0, 1) }, by decide⟩,
   ⟨running, 0, false, by decide⟩,
   ⟨running, 15, 2, by decide⟩,
   ⟨{ running with chip := running.chip.updClu 15 fun x => { x with locked := true } }, 15, 2, by decide⟩,
   ⟨{ running with chip := running.chip.updClu 15 fun x => { x with locked := true } }, 15, 3, by decide⟩,
   ⟨running, 0, 0, by decide⟩,
   ⟨{ expressing with chip := expressing.chip.putCq 0 1 oneCq }, 0, 16, 1000, { intrOut with wq := some (0, 1) }, .raw 0 1 expressXfer, by decide⟩,
   ⟨lpmState, 0, 1000, lpmDev, by decide⟩⟩

/-- The hypotheses of WireResponsesComplete are met, clause by clause. -/
theorem test_meets_WireResponsesComplete :
    -- A SYNC arrives: the response awaited has begun; with none awaited it is late.
    (∃ (s : State) (p : Fin 128), (s.up) ∧ ((s.chip.port p).st = .enabled)) ∧
    -- A response timeout, a data packet and a handshake.
    (∃ (s : State) (p : Fin 128) (pid : Byte) (bs : List Byte) (q : RxQuality), (s.up)) ∧
    -- EOF2 with the device still sending on an enabled port with no transaction: the babble is counted and
    -- reported, the port is DISABLED with its event, its tree is detached, and enumeration is told.
    (∃ (s : State) (p : Fin 128), (s.up) ∧ ((s.chip.port p).st = .enabled) ∧ ((s.chip.port p).sc.txn = none)) ∧
    -- EOF2 with nothing on the wire has no effect.
    (∃ (s : State) (p : Fin 128), (s.up)) ∧
    -- A descriptor whose TMO has run out ends as TIMEOUT.
    (∃ (s : State) (f : Fin 128) (n : Fin 64) (count : Word) (q : Wq) (x : Xfer), (s.up) ∧ (s.chip.wq f n = some q) ∧
      ((q.work.find? fun x => x.count == count) = some x) ∧ (x.tmo = some 0) ∧ (x.result = none) ∧
      (s.chip.schedRuns = true)) ∧
    -- A pool wait past its limit ends the descriptor as POOL_WAIT_ABORT.
    (∃ (s : State) (h : Fin 8192) (e : Ep) (f n : Nat) (x : Xfer) (q : Wq) (y : Xfer), (s.up) ∧
      (s.chip.ep h = some e) ∧ (e.waiting = true) ∧ (e.waitLim ≠ 0) ∧ (s.chip.grantable h = false) ∧
      (s.chip.chan h = some (.raw f n x)) ∧ (s.chip.wq f n = some q)) ∧
    -- 100 ms after a port was DISABLED, with AUTOREC 1, it detects again.
    (∃ (s : State) (p : Fin 128), (s.up) ∧ ((s.chip.port p).st = .disabled)) :=
  ⟨⟨small fun c => c.updPort 0 fun x => { x with st := .enabled }, 0, by decide⟩,
   ⟨running, 0, 0xD2, [], .good, by decide⟩,
   ⟨small fun c => c.updPort 0 fun x => { x with st := .enabled }, 0, by decide⟩,
   ⟨running, 0, by decide⟩,
   ⟨timingOut, 0, 1, 0, timedWq, timedXfer, by decide⟩,
   ⟨{ onWire { bulkEp with waiting := true, waitLim := 1, cells := [{}, {}] } aXfer with chip := (onWire { bulkEp with waiting := true, waitLim := 1, cells := [{}, {}] } aXfer).chip.updFn 0 fun x => { x with cells := 0 } }, 16, { { bulkEp with waiting := true, waitLim := 1, cells := [{}, {}] } with wq := some (0, 1) }, 0, 1, aXfer, epWq aXfer, aXfer, by decide⟩,
   ⟨small fun c => c.updPort 0 fun x => { x with st := .disabled }, 0, by decide⟩⟩

/-- The hypotheses of PortCommandsComplete are met, clause by clause. -/
theorem test_meets_PortCommandsComplete :
    -- A command to a port in service, whose cluster runs, is carried out.
    (∃ (s : State) (p : Fin 128) (k : Bool), (s.up) ∧ (s.chip.regsLive = true) ∧ (s.chip.cmdBlocked p = false)) ∧
    -- RESET: an enabled port lets its transaction finish, a suspended port or one in L1 resets at once, a
    -- DISABLED port restarts detection.
    (∃ (s : State) (p : Fin 128), (s.up) ∧ (s.chip.regsLive = true) ∧ (s.chip.cmdBlocked p = false) ∧
      ((s.chip.port p).busy = false) ∧
      (((s.chip.port p).st = .enabled ∨ (s.chip.port p).st = .suspended ∨ (s.chip.port p).st = .l1 ∨ (s.chip.port p).st = .disabled))) ∧
    -- RESET, SUSPEND and RESUME of a port that is busy set CMDERR and do nothing else.
    (∃ (s : State) (p : Fin 128) (k : Bool), (s.up) ∧ (s.chip.regsLive = true) ∧ (s.chip.cmdBlocked p = false) ∧
      ((s.chip.port p).busy = true) ∧ (¬ ((s.chip.port p).st = .resuming ∧ (s.chip.port p).nowRws = true ∧
      (s.chip.port p).nowHost = false))) ∧
    -- SUSPEND: an enabled port goes there after its transaction, a port in L1 after L1.
    (∃ (s : State) (p : Fin 128), (s.up) ∧ (s.chip.regsLive = true) ∧ (s.chip.cmdBlocked p = false) ∧
      ((s.chip.port p).busy = false) ∧ (((s.chip.port p).st = .enabled ∨ (s.chip.port p).st = .l1))) ∧
    -- RESUME of a suspended port: K is driven at once when the port has been suspended long enough, else
    -- later.
    (∃ (s : State) (p : Fin 128) (k : Bool), (s.up) ∧ (s.chip.regsLive = true) ∧ (s.chip.cmdBlocked p = false) ∧
      ((s.chip.port p).busy = false) ∧ ((s.chip.port p).st = .suspended)) ∧
    -- REARM of an ISOLATED port turns it on again; of another it sets CMDERR.
    (∃ (s : State) (p : Fin 128), (s.up) ∧ (s.chip.regsLive = true) ∧ (s.chip.cmdBlocked p = false)) ∧
    -- SPARE and RETURN plan the swap of the port between its own engine and the spare.
    (∃ (s : State) (p : Fin 128), (s.up) ∧ (s.chip.regsLive = true) ∧ (s.chip.cmdBlocked p = false) ∧
      ((s.chip.port p).busy = false) ∧ ((s.chip.port p).takeover = false) ∧ (s.chip.spareTaken p = false) ∧
      ((s.chip.port p).ownFailed = false)) ∧
    -- A command to a port out of service sets CMDERR.
    (∃ (s : State) (p : Fin 128) (k : Bool), (s.up) ∧ (s.chip.regsLive = true) ∧ (s.chip.outOfService p = true)) ∧
    -- A test mode 1 to 5 is entered from DISCONNECTED, SUSPENDED or DISABLED.
    (∃ (s : State) (p : Fin 128) (m : Fin 8), (s.up) ∧ (s.chip.regsLive = true) ∧ (s.chip.cmdBlocked p = false) ∧
      ((1 ≤ m.val ∧ m.val ≤ 5)) ∧
      (((s.chip.port p).st = .disconnected ∨ (s.chip.port p).st = .suspended ∨ (s.chip.port p).st = .disabled))) ∧
    -- TEST is left by a power cycle of the port.
    (∃ (s : State) (p : Fin 128), (s.up) ∧ (s.chip.regsLive = true) ∧ ((s.chip.port p).st = .test)) ∧
    -- AUTOREC takes its value; set in a port that has been DISABLED for 100 ms, it detects again.
    (∃ (s : State) (p : Fin 128) (b : Bool), (s.up) ∧ (s.chip.regsLive = true)) :=
  ⟨⟨running, 127, false, by decide⟩,
   ⟨portIn .l1, 0, by decide⟩,
   ⟨portIn .resetting, 0, false, by decide⟩,
   ⟨portIn .enabled, 0, by decide⟩,
   ⟨portIn .suspended, 0, true, by decide⟩,
   ⟨portIn .isolated, 0, by decide⟩,
   ⟨portIn .enabled, 0, by decide⟩,
   ⟨small fun c => { c with tst := { c.tst with portBad := [3] } }, 3, false, by decide⟩,
   ⟨portIn .disabled, 0, 5, by decide⟩,
   ⟨portIn .test, 0, by decide⟩,
   ⟨portIn .disabled, 0, true, by decide⟩⟩

/-- The hypotheses of PortTimersComplete are met, clause by clause. -/
theorem test_meets_PortTimersComplete :
    -- The reset ends: the port is ENABLED at the speed found, its tokens held, and RESET_DONE is told.
    (∃ (s : State) (p : Fin 128), (s.up) ∧ ((s.chip.port p).st = .resetting)) ∧
    -- The token hold ends.
    (∃ (s : State) (p : Fin 128), (s.up) ∧ ((s.chip.port p).st = .enabled) ∧ ((s.chip.port p).tokHold = true)) ∧
    -- A resume delay ends: a suspended port may now be resumed, and a port that waits to resume drives K.
    (∃ (s : State) (p : Fin 128), (s.up) ∧ ((s.chip.port p).st = .suspended)) ∧
    (∃ (s : State) (p : Fin 128), (s.up) ∧ ((s.chip.port p).st = .resuming) ∧ ((s.chip.port p).driveK = false) ∧
      ((s.chip.port p).kEnded = false)) ∧
    -- K ends after a resume, and after an L1 exit: the low-speed EOP is sent.
    (∃ (s : State) (p : Fin 128), (s.up) ∧ ((s.chip.port p).driveK = true) ∧ ((s.chip.port p).st = .resuming)) ∧
    (∃ (s : State) (p : Fin 128), (s.up) ∧ ((s.chip.port p).driveK = true) ∧ ((s.chip.port p).st = .l1Resuming)) ∧
    -- The filtered line state changes.
    (∃ (s : State) (p : Fin 128) (l : Line) (dmHigh : Bool), (s.up) ∧ (s.chip.cluRuns (p / 8) = true) ∧
      (s.chip.outOfService p = false)) ∧
    -- The debounce of a connecting port ends: it is reset.
    (∃ (s : State) (p : Fin 128), (s.up) ∧ ((s.chip.port p).st = .connecting) ∧ (s.chip.cluRuns (p / 8) = true)) ∧
    -- In the reset of a port with a full-speed pull-up, a chirp within the window is answered; with none, the
    -- window is over; and the host chirp stops.
    (∃ (s : State) (p : Fin 128), (s.up) ∧ ((s.chip.port p).st = .resetting) ∧ ((s.chip.port p).pullup = 2) ∧
      ((s.chip.port p).chirped = false) ∧ ((s.chip.port p).chirpOver = false)) ∧
    (∃ (s : State) (p : Fin 128), (s.up) ∧ ((s.chip.port p).st = .resetting) ∧ ((s.chip.port p).pullup = 2) ∧
      ((s.chip.port p).chirped = false)) ∧
    (∃ (s : State) (p : Fin 128), (s.up) ∧ ((s.chip.port p).st = .resetting) ∧ ((s.chip.port p).pullup = 2) ∧
      ((s.chip.port p).chirped = true)) ∧
    -- A port in L1 with work, or that is to suspend, leaves it.
    (∃ (s : State) (p : Fin 128) (k : Bool), (s.up) ∧ ((s.chip.port p).st = .l1) ∧
      (((s.chip.port p).thenSuspend = true ∨ s.chip.treeIdle p = false))) ∧
    -- A state error or a missed checkpoint of the engine that serves a port is reported, and the spare takes
    -- over.
    (∃ (s : State) (p : Fin 128), (s.up) ∧ (s.chip.engineRuns p = true)) ∧
    -- The spare has loaded the state of a port with no traffic: it serves it, and FAILOVER is told; a failed
    -- load loses the port.
    (∃ (s : State) (p : Fin 128) (ok : Bool), (s.up) ∧ ((s.chip.port p).takeover = true) ∧
      ((s.chip.port p).st ≠ .enabled) ∧ (s.chip.spareServes p = none) ∧ (s.chip.engineRuns p = true)) :=
  ⟨⟨portIn .resetting, 0, by decide⟩,
   ⟨small fun c => c.updPort 0 fun x => { x with st := .enabled, tokHold := true }, 0, by decide⟩,
   ⟨portIn .suspended, 0, by decide⟩,
   ⟨portIn .resuming, 0, by decide⟩,
   ⟨small fun c => c.updPort 0 fun x => { x with st := .resuming, driveK := true }, 0, by decide⟩,
   ⟨small fun c => c.updPort 0 fun x => { x with st := .l1Resuming, driveK := true }, 0, by decide⟩,
   ⟨running, 0, .j, false, by decide⟩,
   ⟨portIn .connecting, 0, by decide⟩,
   ⟨small fun c => c.updPort 0 fun x => { x with st := .resetting, pullup := 2 }, 0, by decide⟩,
   ⟨small fun c => c.updPort 0 fun x => { x with st := .resetting, pullup := 2, chirped := false }, 0, by decide⟩,
   ⟨small fun c => c.updPort 0 fun x => { x with st := .resetting, pullup := 2, chirped := true }, 0, by decide⟩,
   ⟨small fun c => c.updPort 0 fun x => { x with st := .l1, thenSuspend := true }, 0, false, by decide⟩,
   ⟨running, 0, by decide⟩,
   ⟨small fun c => c.updPort 0 fun x => { x with st := .suspended, takeover := true }, 0, true, by decide⟩⟩

/-- The hypotheses of PortPowerLinkComplete are met, clause by clause. -/
theorem test_meets_PortPowerLinkComplete :
    -- A frame of the port power link starts.
    (∃ (s : State) (k : Fin 16), (s.alive)) ∧
    -- A return frame, valid or not.
    (∃ (s : State) (k : Fin 16) (w : BitVec 22), (s.up) ∧ (s.chip.cluRuns k = true) ∧
      ((s.chip.clu k).stopped = false)) ∧
    -- The link is lost: counted, reported, raised, and the power of its ports removed.
    (∃ (s : State) (k : Fin 16), (s.alive) ∧ (s.chip.cluRuns k = true) ∧ ((s.chip.clu k).lost = false) ∧
      ((s.chip.clu k).holding = false)) ∧
    -- A cluster that does not hold in time: its sleep is given up, or the entry of the device is.
    (∃ (s : State) (k : Fin 16), (s.up) ∧ ((s.chip.sleepJudge.clu k).stopped = false) ∧
      ((s.chip.sleepJudge.clu k).slStep = 3)) ∧
    (∃ (s : State) (k : Fin 16), (s.up) ∧ ((s.chip.sleepJudge.clu k).stopped = false) ∧
      ((s.chip.sleepJudge.clu k).slStep ≠ 3) ∧ (s.chip.sleepJudge.pwr.st = .entering) ∧
      (s.chip.sleepJudge.pwr.step = 5) ∧ ((s.chip.sleepJudge.clu k).holding = true)) ∧
    -- A conversion of channel 8 is the cluster's current, of channels 0 to 7 the voltage of a port; each is
    -- corrected by its calibration.
    (∃ (s : State) (k : Fin 16) (ch : Fin 9) (raw : Fin 16384), (s.alive) ∧ (s.chip.cluRuns k = true)) :=
  ⟨⟨running, 15, by decide⟩,
   ⟨running, 0, 0, by decide⟩,
   ⟨running, 0, by decide⟩,
   ⟨small fun c => c.updClu 0 fun x => { x with slStep := 3 }, 0, by decide⟩,
   ⟨{ running with chip := (entering 5 .nap).chip.updClu 0 fun x => { x with holding := true } }, 0, by decide⟩,
   ⟨running, 0, 8, 0, by decide⟩⟩

/-- The hypotheses of PortPowerActionsComplete are met, clause by clause. -/
theorem test_meets_PortPowerActionsComplete :
    -- A port whose power has not come is a brown-out.
    (∃ (s : State) (p : Fin 128), (s.alive) ∧ ((s.chip.port p).pw.awaiting = true)) ∧
    -- An enable that is due is made.
    (∃ (s : State) (p : Fin 128) (r : Bool), (s.alive) ∧ ((s.chip.port p).pw.enableDue = some r)) ∧
    -- While the cluster sheds load, one more port loses its power.
    (∃ (s : State) (k : Fin 16), (s.alive) ∧ ((s.chip.clu k).shedding = true) ∧ (s.chip.cluRuns k = true)) ∧
    -- A retry that is due is made.
    (∃ (s : State) (p : Fin 128), (s.alive) ∧ ((s.chip.port p).pw.retryDue = true)) ∧
    -- Power that has lasted gives its retries back.
    (∃ (s : State) (p : Fin 128), (s.alive) ∧ ((s.chip.port p).pw.want = true) ∧
      ((s.chip.port p).pw.awaiting = false)) ∧
    -- PWROFF and RETRY are written.
    (∃ (s : State) (p : Fin 128) (b : Bool), (s.alive) ∧ (s.chip.outOfService p = false)) ∧
    -- A port out of service sets CMDERR instead.
    (∃ (s : State) (p : Fin 128) (b : Bool), (s.alive) ∧ (s.chip.outOfService p = true)) ∧
    -- A primary detection on a port that advertises CDP, powered and with nothing connected, has DM driven;
    -- leaving the range ends it.
    (∃ (s : State) (p : Fin 128), (s.alive) ∧ ((s.chip.port p).pw.cdpEn = true) ∧ ((s.chip.port p).pw.ilimHi = true) ∧
      ((s.chip.port p).pw.en = true) ∧ (((s.chip.port p).st = .disconnected ∨ (s.chip.port p).st = .connecting)) ∧
      ((s.chip.port p).pw.cdpDrive = false)) ∧
    (∃ (s : State) (p : Fin 128), (s.alive) ∧ ((s.chip.port p).pw.cdpDrive = true)) :=
  ⟨⟨powerIn fun y => { y with awaiting := true }, 0, by decide⟩,
   ⟨powerIn fun y => { y with enableDue := some false }, 0, false, by decide⟩,
   ⟨small fun c => c.updClu 0 fun x => { x with shedding := true }, 0, by decide⟩,
   ⟨powerIn fun y => { y with retryDue := true }, 0, by decide⟩,
   ⟨powerIn fun y => { y with want := true }, 0, by decide⟩,
   ⟨running, 0, true, by decide⟩,
   ⟨small fun c => { c with tst := { c.tst with portBad := [3] } }, 3, true, by decide⟩,
   ⟨small fun c => (c.updPort 0 fun x => { x with st := .disconnected }).updPw 0 fun x => { x with cdpEn := true, ilimHi := true, en := true }, 0, by decide⟩,
   ⟨powerIn fun x => { x with cdpDrive := true }, 0, by decide⟩⟩

/-- The hypotheses of EnumerationRowsComplete are met, clause by clause. -/
theorem test_meets_EnumerationRowsComplete :
    -- DESCRIBE answers the device record.
    (∃ (s : State) (f : Fin 128) (n : Fin 64) (count : Word) (q : Wq) (h : Nat) (i : Inst) (x : Xfer) (d : Dev),
      (s.asks f n count q h i x .enum 0x01) ∧ ((s.chip.begun f n x).reqDev f x.d.argA = .inr d)) ∧
    -- SET_CONFIG, SET_ALT, DEV_SUSPEND and DEV_RESUME become jobs of the device's root port.
    (∃ (s : State) (f : Fin 128) (n : Fin 64) (count : Word) (q : Wq) (h : Nat) (i : Inst) (x : Xfer) (d : Dev),
      (s.asks f n count q h i x .enum 0x02) ∧ ((s.chip.begun f n x).reqDev f x.d.argA = .inr d)) ∧
    -- The same for SET_ALT.
    (∃ (s : State) (f : Fin 128) (n : Fin 64) (count : Word) (q : Wq) (h : Nat) (i : Inst) (x : Xfer) (d : Dev),
      (s.asks f n count q h i x .enum 0x03) ∧ ((s.chip.begun f n x).reqDev f x.d.argA = .inr d)) ∧
    -- The same for DEV_SUSPEND.
    (∃ (s : State) (f : Fin 128) (n : Fin 64) (count : Word) (q : Wq) (h : Nat) (i : Inst) (x : Xfer) (d : Dev),
      (s.asks f n count q h i x .enum 0x06) ∧ ((s.chip.begun f n x).reqDev f x.d.argA = .inr d)) ∧
    -- The same for DEV_RESUME.
    (∃ (s : State) (f : Fin 128) (n : Fin 64) (count : Word) (q : Wq) (h : Nat) (i : Inst) (x : Xfer) (d : Dev),
      (s.asks f n count q h i x .enum 0x07) ∧ ((s.chip.begun f n x).reqDev f x.d.argA = .inr d)) ∧
    -- DEV_RESET becomes a reset job.
    (∃ (s : State) (f : Fin 128) (n : Fin 64) (count : Word) (q : Wq) (h : Nat) (i : Inst) (x : Xfer) (d : Dev),
      (s.asks f n count q h i x .enum 0x08) ∧ ((s.chip.begun f n x).reqDev f x.d.argA = .inr d)) ∧
    -- EP_RESET clears the endpoint here, or in the device too.
    (∃ (s : State) (f : Fin 128) (n : Fin 64) (count : Word) (q : Wq) (h : Nat) (i : Inst) (x : Xfer) (e : Ep) (d : Dev),
      (s.asks f n count q h i x .enum 0x04) ∧ (s.chip.ep x.d.argA = some e) ∧ (e.gone = false) ∧
      ((s.chip.begun f n x).reqDev f e.dev = .inr d)) ∧
    -- EP_CONFIG sets the weight.
    (∃ (s : State) (f : Fin 128) (n : Fin 64) (count : Word) (q : Wq) (h : Nat) (i : Inst) (x : Xfer) (e : Ep) (d : Dev),
      (s.asks f n count q h i x .enum 0x05) ∧ (s.chip.ep x.d.argA = some e) ∧ (e.gone = false) ∧
      ((s.chip.begun f n x).reqDev f e.dev = .inr d)) ∧
    -- RECV is answered from the messages that wait.
    (∃ (s : State) (f : Fin 128) (n : Fin 64) (count : Word) (q : Wq) (h : Nat) (i : Inst) (x : Xfer) (v : Svc),
      (s.asks f n count q h i x v 0x80)) ∧
    -- A request that ENUM makes of a device has not ended in time.
    (∃ (s : State) (p : Fin 128), (s.up)) ∧
    -- A hub port has not ended its reset in time: it is reset again, twice at most, and then the step fails.
    (∃ (s : State) (p : Fin 128) (hub k a b : Nat) (w0 w1 : Word) (y : Bool) (rest : List EnumAct), (s.up) ∧
      (s.chip.resetPos p = some (hub, k)) ∧ ((s.chip.port p).run.acts = .req a b w0 w1 .resetEnd y :: rest)) ∧
    -- ENUM's messages of a function have waited long enough.
    (∃ (s : State) (f : Fin 128), (s.up)) :=
  ⟨⟨asking .enum 1, 0, 1, 0, askWq .enum (askXfer 1), askH .enum, askInst .enum, askXfer 1, askDev, by decide⟩,
   ⟨asking .enum 2, 0, 1, 0, askWq .enum (askXfer 2), askH .enum, askInst .enum, askXfer 2, askDev, by decide⟩,
   ⟨asking .enum 3, 0, 1, 0, askWq .enum (askXfer 3), askH .enum, askInst .enum, askXfer 3, askDev, by decide⟩,
   ⟨asking .enum 6, 0, 1, 0, askWq .enum (askXfer 6), askH .enum, askInst .enum, askXfer 6, askDev, by decide⟩,
   ⟨asking .enum 7, 0, 1, 0, askWq .enum (askXfer 7), askH .enum, askInst .enum, askXfer 7, askDev, by decide⟩,
   ⟨asking .enum 8, 0, 1, 0, askWq .enum (askXfer 8), askH .enum, askInst .enum, askXfer 8, askDev, by decide⟩,
   ⟨asking .enum 4, 0, 1, 0, askWq .enum (askXfer 4), askH .enum, askInst .enum, askXfer 4, bulkEp, askDev, by decide⟩,
   ⟨asking .enum 5, 0, 1, 0, askWq .enum (askXfer 5), askH .enum, askInst .enum, askXfer 5, bulkEp, askDev, by decide⟩,
   ⟨asking .hlth 0x80, 0, 1, 0, askWq .hlth (askXfer 0x80), askH .hlth, askInst .hlth, askXfer 0x80, .hlth, by decide⟩,
   ⟨running, 0, by decide⟩,
   ⟨hubReset, 0, 2, 1, 1, 2, 0, 0, false, [], by decide⟩,
   ⟨running, 0, by decide⟩⟩

/-- The hypotheses of HidxRowsComplete are met, clause by clause. -/
theorem test_meets_HidxRowsComplete :
    -- GET_RDESC answers the report descriptor.
    (∃ (s : State) (f : Fin 128) (n : Fin 64) (count : Word) (q : Wq) (h : Nat) (i : Inst) (x : Xfer),
      (s.asks f n count q h i x .hidx 0x01)) ∧
    -- MAP_LOAD takes a valid map, and refuses an invalid one at the offset at fault.
    (∃ (s : State) (f : Fin 128) (n : Fin 64) (count : Word) (q : Wq) (h : Nat) (i : Inst) (x : Xfer),
      (s.asks f n count q h i x .hidx 0x02)) ∧
    -- SET_MODE to a mode of the same protocol is at once; to another, SET_PROTOCOL is sent first.
    (∃ (s : State) (f : Fin 128) (n : Fin 64) (count : Word) (q : Wq) (h : Nat) (i : Inst) (x : Xfer),
      (s.asks f n count q h i x .hidx 0x03) ∧ ((x.d.argA ≠ 0 → (s.chip.begun f n x).bootKeyboard i = true)) ∧
      ((s.chip.begun f n x).unreachable h = false)) ∧
    -- KEYMAP_LOAD takes a key map, or goes back to the built-in one.
    (∃ (s : State) (f : Fin 128) (n : Fin 64) (count : Word) (q : Wq) (h : Nat) (i : Inst) (x : Xfer),
      (s.asks f n count q h i x .hidx 0x04)) ∧
    -- SEND_REPORT without an interrupt OUT endpoint is a SET_REPORT.
    (∃ (s : State) (f : Fin 128) (n : Fin 64) (count : Word) (q : Wq) (h : Nat) (i : Inst) (x : Xfer),
      (s.asks f n count q h i x .hidx 0x05) ∧ ((s.chip.begun f n x).unreachable h = false) ∧
      ((s.chip.begun f n x).instEp h .intr false = none)) ∧
    -- An output report goes over an interrupt OUT endpoint, its ID first.
    (∃ (s : State) (f : Fin 128) (n : Fin 64) (count : Word) (q : Wq) (h : Nat) (i : Inst) (x : Xfer) (e : Nat),
      (s.asks f n count q h i x .hidx 0x05) ∧ ((s.chip.begun f n x).unreachable h = false) ∧ (x.d.argA = 2) ∧
      ((s.chip.begun f n x).instEp h .intr false = some e)) ∧
    -- GET_REPORT asks the device.
    (∃ (s : State) (f : Fin 128) (n : Fin 64) (count : Word) (q : Wq) (h : Nat) (i : Inst) (x : Xfer),
      (s.asks f n count q h i x .hidx 0x06) ∧ ((s.chip.begun f n x).unreachable h = false)) ∧
    -- A report that an active instance has received is taken up.
    (∃ (s : State) (h : Fin 2048) (e : Nat), (s.up) ∧ (s.chip.serves h .hidx = true) ∧
      (s.chip.packetOn h .intr (fun _ => true) = some e)) ∧
    -- The gap after the last character ends the string.
    (∃ (s : State) (h : Fin 2048) (i : Inst), (s.up) ∧ (s.chip.inst h = some i) ∧ (i.svc = .hidx) ∧
      (i.hidx.idleRun = true) ∧ (i.hidx.text ≠ [])) :=
  ⟨⟨asking .hidx 1, 0, 1, 0, askWq .hidx (askXfer 1), askH .hidx, askInst .hidx, askXfer 1, by decide⟩,
   ⟨asking .hidx 2, 0, 1, 0, askWq .hidx (askXfer 2), askH .hidx, askInst .hidx, askXfer 2, by decide⟩,
   ⟨asking .hidx 3, 0, 1, 0, askWq .hidx (askXfer 3), askH .hidx, askInst .hidx, askXfer 3, by decide⟩,
   ⟨asking .hidx 4, 0, 1, 0, askWq .hidx (askXfer 4), askH .hidx, askInst .hidx, askXfer 4, by decide⟩,
   ⟨asking .hidx 5, 0, 1, 0, askWq .hidx (askXfer 5), askH .hidx, askInst .hidx, askXfer 5, by decide⟩,
   ⟨askingEp .hidx 5, 0, 1, 0, askWq .hidx { askXfer 5 with d := askDesc 5 2 }, askH .hidx, askInst .hidx, { askXfer 5 with d := askDesc 5 2 }, 16, by decide⟩,
   ⟨asking .hidx 6, 0, 1, 0, askWq .hidx (askXfer 6), askH .hidx, askInst .hidx, askXfer 6, by decide⟩,
   ⟨packeting .hidx .intr, 3, 16, by decide⟩,
   ⟨gapState, 3, gapInst, by decide⟩⟩

/-- The hypotheses of CcidRowsComplete are met, clause by clause. -/
theorem test_meets_CcidRowsComplete :
    -- POWER_ON activates the card; an active one is powered off first.
    (∃ (s : State) (f : Fin 128) (n : Fin 64) (count : Word) (q : Wq) (h : Nat) (i : Inst) (x : Xfer),
      (s.asks f n count q h i x .ccid 0x01) ∧ ((s.chip.begun f n x).unreachable h = false) ∧
      ((s.chip.begun f n x).slot h x.d.argA = s.chip.slot h x.d.argA)) ∧
    -- POWER_OFF.
    (∃ (s : State) (f : Fin 128) (n : Fin 64) (count : Word) (q : Wq) (h : Nat) (i : Inst) (x : Xfer),
      (s.asks f n count q h i x .ccid 0x02) ∧ ((s.chip.begun f n x).unreachable h = false)) ∧
    -- XFR to an active card.
    (∃ (s : State) (f : Fin 128) (n : Fin 64) (count : Word) (q : Wq) (h : Nat) (i : Inst) (x : Xfer),
      (s.asks f n count q h i x .ccid 0x03) ∧ ((s.chip.begun f n x).unreachable h = false)) ∧
    -- SLOT_STATUS answers the state and the protocol.
    (∃ (s : State) (f : Fin 128) (n : Fin 64) (count : Word) (q : Wq) (h : Nat) (i : Inst) (x : Xfer),
      (s.asks f n count q h i x .ccid 0x04)) ∧
    -- SET_OPTS of one slot or of all.
    (∃ (s : State) (f : Fin 128) (n : Fin 64) (count : Word) (q : Wq) (h : Nat) (i : Inst) (x : Xfer),
      (s.asks f n count q h i x .ccid 0x05)) ∧
    -- ESCAPE is passed to the reader.
    (∃ (s : State) (f : Fin 128) (n : Fin 64) (count : Word) (q : Wq) (h : Nat) (i : Inst) (x : Xfer),
      (s.asks f n count q h i x .ccid 0x06) ∧ ((s.chip.begun f n x).unreachable h = false)) ∧
    -- A slot change notice.
    (∃ (s : State) (h : Fin 2048) (e : Nat), (s.up) ∧ (s.chip.serves h .ccid = true) ∧
      (s.chip.packetOn h .intr (fun b => b == 0x50) = some e)) ∧
    -- A hardware error notice.
    (∃ (s : State) (h : Fin 2048) (e : Nat), (s.up) ∧ (s.chip.serves h .ccid = true) ∧
      (s.chip.packetOn h .intr (fun b => b == 0x51) = some e)) ∧
    -- What the reader has answered is taken up.
    (∃ (s : State) (h : Fin 2048) (i : Inst), (s.up) ∧ (s.chip.inst h = some i) ∧ (i.svc = .ccid) ∧
      (i.st ≠ .detached) ∧ (i.st ≠ .closing)) ∧
    -- A command's time runs out; the answer to an abort does not come.
    (∃ (s : State) (h : Fin 2048) (k : Fin 8), (s.up) ∧ (s.chip.hasSlot h k = true)) :=
  ⟨⟨asking .ccid 1, 0, 1, 0, askWq .ccid (askXfer 1), askH .ccid, askInst .ccid, askXfer 1, by decide⟩,
   ⟨asking .ccid 2, 0, 1, 0, askWq .ccid (askXfer 2), askH .ccid, askInst .ccid, askXfer 2, by decide⟩,
   ⟨asking .ccid 3, 0, 1, 0, askWq .ccid (askXfer 3), askH .ccid, askInst .ccid, askXfer 3, by decide⟩,
   ⟨asking .ccid 4, 0, 1, 0, askWq .ccid (askXfer 4), askH .ccid, askInst .ccid, askXfer 4, by decide⟩,
   ⟨asking .ccid 5, 0, 1, 0, askWq .ccid (askXfer 5), askH .ccid, askInst .ccid, askXfer 5, by decide⟩,
   ⟨asking .ccid 6, 0, 1, 0, askWq .ccid (askXfer 6), askH .ccid, askInst .ccid, askXfer 6, by decide⟩,
   ⟨noticing 0x50, 3, 16, by decide⟩,
   ⟨noticing 0x51, 3, 16, by decide⟩,
   ⟨noticing 0x50, 3, askInst .ccid, by decide⟩,
   ⟨noticing 0x50, 3, 0, by decide⟩⟩

/-- The hypotheses of StrmAndHlthRowsComplete are met, clause by clause. -/
theorem test_meets_StrmAndHlthRowsComplete :
    -- TX sends its bytes, after a job that runs.
    (∃ (s : State) (f : Fin 128) (n : Fin 64) (count : Word) (q : Wq) (h : Nat) (i : Inst) (x : Xfer) (e : Nat),
      (s.asks f n count q h i x .strm 0x01) ∧ ((s.chip.begun f n x).unreachable h = false) ∧
      ((s.chip.begun f n x).instEp h .bulk false = some e)) ∧
    -- SET_LINE of a CDC device.
    (∃ (s : State) (f : Fin 128) (n : Fin 64) (count : Word) (q : Wq) (h : Nat) (i : Inst) (x : Xfer),
      (s.asks f n count q h i x .strm 0x02) ∧ (i.strm.cdc = true) ∧ ((s.chip.begun f n x).unreachable h = false)) ∧
    -- SET_CTRL.
    (∃ (s : State) (f : Fin 128) (n : Fin 64) (count : Word) (q : Wq) (h : Nat) (i : Inst) (x : Xfer),
      (s.asks f n count q h i x .strm 0x03) ∧ (i.strm.cdc = true) ∧ ((s.chip.begun f n x).unreachable h = false)) ∧
    -- BREAK.
    (∃ (s : State) (f : Fin 128) (n : Fin 64) (count : Word) (q : Wq) (h : Nat) (i : Inst) (x : Xfer),
      (s.asks f n count q h i x .strm 0x04) ∧ (i.strm.cdc = true) ∧ ((s.chip.begun f n x).unreachable h = false)) ∧
    -- PORT_STATUS of a printer.
    (∃ (s : State) (f : Fin 128) (n : Fin 64) (count : Word) (q : Wq) (h : Nat) (i : Inst) (x : Xfer),
      (s.asks f n count q h i x .strm 0x05) ∧ (i.strm.cdc = false) ∧ ((s.chip.begun f n x).unreachable h = false)) ∧
    -- DEVICE_ID answers what was read at the bind.
    (∃ (s : State) (f : Fin 128) (n : Fin 64) (count : Word) (q : Wq) (h : Nat) (i : Inst) (x : Xfer),
      (s.asks f n count q h i x .strm 0x06) ∧ (i.strm.cdc = false)) ∧
    -- SOFT_RESET of a printer.
    (∃ (s : State) (f : Fin 128) (n : Fin 64) (count : Word) (q : Wq) (h : Nat) (i : Inst) (x : Xfer),
      (s.asks f n count q h i x .strm 0x07) ∧ (i.strm.cdc = false) ∧ ((s.chip.begun f n x).unreachable h = false)) ∧
    -- RX_CFG applies to the next chunk.
    (∃ (s : State) (f : Fin 128) (n : Fin 64) (count : Word) (q : Wq) (h : Nat) (i : Inst) (x : Xfer),
      (s.asks f n count q h i x .strm 0x08)) ∧
    -- A STREAM_JOB starts, or waits for the job that runs.
    (∃ (s : State) (f : Fin 128) (n : Fin 64) (count : Word) (q : Wq) (h : Nat) (i : Inst) (x : Xfer), (s.up) ∧
      (s.chip.wq f n = some q) ∧ (q.instOf = some h) ∧ (s.chip.inst h = some i) ∧ (s.chip.xfer f n count = some x) ∧
      (x.count = count) ∧ (x.svcRun = false) ∧ (x.fetched i.svc i.slots = true) ∧ (i.svc = .strm) ∧
      (x.d.ty = some .streamJob) ∧ (i.st ≠ .detached)) ∧
    -- Received data is gathered.
    (∃ (s : State) (h : Fin 2048) (e : Nat), (s.up) ∧ (s.chip.serves h .strm = true) ∧
      (s.chip.packetOn h .bulk (fun _ => true) = some e)) ∧
    -- A serial state notice.
    (∃ (s : State) (h : Fin 2048) (e : Nat), (s.up) ∧ (s.chip.serves h .strm = true) ∧
      (s.chip.packetOn h .intr (fun _ => true) = some e)) ∧
    -- The idle time ends a chunk.
    (∃ (s : State) (h : Fin 2048) (i : Inst), (s.up) ∧ (s.chip.inst h = some i) ∧ (i.svc = .strm) ∧
      (i.strm.rxTimer = true)) ∧
    -- A job that makes no progress is stalled.
    (∃ (s : State) (h : Fin 2048) (i : Inst), (s.up) ∧ (s.chip.inst h = some i) ∧ (i.svc = .strm) ∧
      (i.strm.job.isSome = true)) ∧
    -- SET_OPTS of HLTH applies from the next heartbeat.
    (∃ (s : State) (f : Fin 128) (n : Fin 64) (count : Word) (q : Wq) (h : Nat) (i : Inst) (x : Xfer),
      (s.asks f n count q h i x .hlth 0x01)) ∧
    -- SNAPSHOT answers the snapshot.
    (∃ (s : State) (f : Fin 128) (n : Fin 64) (count : Word) (q : Wq) (h : Nat) (i : Inst) (x : Xfer),
      (s.asks f n count q h i x .hlth 0x02)) :=
  ⟨⟨askingBulk 1, 0, 1, 0, askWq .strm (askXfer 1), askH .strm, askInst .strm, askXfer 1, 16, by decide⟩,
   ⟨asking .strm 2, 0, 1, 0, askWq .strm (askXfer 2), askH .strm, askInst .strm, askXfer 2, by decide⟩,
   ⟨asking .strm 3, 0, 1, 0, askWq .strm (askXfer 3), askH .strm, askInst .strm, askXfer 3, by decide⟩,
   ⟨asking .strm 4, 0, 1, 0, askWq .strm (askXfer 4), askH .strm, askInst .strm, askXfer 4, by decide⟩,
   ⟨printing 5, 0, 1, 0, askWq .strm (askXfer 5), askH .strm, printInst, askXfer 5, by decide⟩,
   ⟨printing 6, 0, 1, 0, askWq .strm (askXfer 6), askH .strm, printInst, askXfer 6, by decide⟩,
   ⟨printing 7, 0, 1, 0, askWq .strm (askXfer 7), askH .strm, printInst, askXfer 7, by decide⟩,
   ⟨asking .strm 8, 0, 1, 0, askWq .strm (askXfer 8), askH .strm, askInst .strm, askXfer 8, by decide⟩,
   ⟨jobState, 0, 1, 0, askWq .strm jobXfer, askH .strm, askInst .strm, jobXfer, by decide⟩,
   ⟨packeting .strm .bulk, 3, 16, by decide⟩,
   ⟨packeting .strm .intr, 3, 16, by decide⟩,
   ⟨rxState, 3, rxInst, by decide⟩,
   ⟨stallState, 3, stallInst, by decide⟩,
   ⟨asking .hlth 1, 0, 1, 0, askWq .hlth (askXfer 1), askH .hlth, askInst .hlth, askXfer 1, by decide⟩,
   ⟨asking .hlth 2, 0, 1, 0, askWq .hlth (askXfer 2), askH .hlth, askInst .hlth, askXfer 2, by decide⟩⟩

/-- The hypotheses of MoverAndPoolRowsComplete are met, clause by clause. -/
theorem test_meets_MoverAndPoolRowsComplete :
    -- The mover issues its next request.
    (∃ (s : State), (s.up) ∧ (s.chip.fabricRuns = true)) ∧
    -- A read of host memory returns: it leaves the list and what it was for goes on.
    (∃ (s : State) (k : Fin 512) (bs : List Byte) (r : MovRead), (s.up) ∧ (s.chip.grn.reads[k.val]? = some r) ∧
      ((s.chip.fn r.fn).home = none) ∧ (bs.length = r.len)) ∧
    -- A free cell goes to the next that waits.
    (∃ (s : State) (h : Nat), (s.up) ∧ (s.chip.nextWaiter = some h)) ∧
    -- Settings that are allowed are taken by the channel selected.
    (∃ (s : State) (mark : Bool) (w : Word) (e y : Ep), (s.up) ∧ (s.chip.ep s.chip.grn.sel = some e) ∧
      ((if mark then e.setMarks (if e.type = .control then s.chip.grn.ctlDir else e.isIn) (bits w 24 16) (bits w 8 0) else e.setQuota (bits w 23 16) (bits w 31 24)) = some y)) ∧
    -- With no channel selected, CFGERR is set.
    (∃ (s : State) (mark : Bool) (w : Word), (s.up) ∧ (s.chip.ep s.chip.grn.sel = none)) :=
  ⟨⟨running, by decide⟩,
   ⟨readingState, 0, [7#8, 8#8], readingRead, by decide⟩,
   ⟨waitAll, 0, by decide⟩,
   ⟨small withDev, false, 0x05000000, bulkEp, { bulkEp with qc := 0, waitLim := 5 }, by decide⟩,
   ⟨running, true, 0, by decide⟩⟩

/-- The hypotheses of TaskRowsComplete are met, clause by clause. -/
theorem test_meets_TaskRowsComplete :
    -- One ready task is placed.
    (∃ (s : State), (s.up)) ∧
    -- A context that is being copied, or fetched back, has come.
    (∃ (s : State) (i : Fin 16384) (seq : Fin 65536) (t : Task), (s.up) ∧ (s.chip.taskAt i seq = some t)) ∧
    -- A lane starts the first of its queue: it serves it, or its context or its record is lost.
    (∃ (s : State) (l : Fin 32) (t : Task), (s.up) ∧ (s.chip.laneTask l = none) ∧ ((s.chip.lane l).off ≠ 2) ∧
      (firstBy (fun a b => a.placedAt < b.placedAt) (s.chip.laneQueue l) = some t) ∧ (t.ctx = 0)) ∧
    -- The task in service ends: it is counted, a lane going off goes off, and a cancelled task frees the next
    -- of its flow.
    (∃ (s : State) (l : Fin 32) (t : Task), (s.up) ∧ (s.chip.laneTask l = some t)) ∧
    -- The oldest task of a flow is released.
    (∃ (s : State) (i : Fin 16384), (s.up)) ∧
    -- A task of no flow is released.
    (∃ (s : State) (t : Task), (s.up) ∧ ((s.chip.dsp.tasks.find? fun t => t.flow.isNone && t.st == .done) = some t)) ∧
    -- The timer of a waiting task expires.
    (∃ (s : State) (i : Fin 16384) (seq : Fin 65536) (t : Task), (s.up) ∧ (s.chip.taskAt i seq = some t) ∧
      (t.timer = true) ∧ (t.st = .waiting)) ∧
    -- A deadline, a fetch that ends and a periodic tick.
    (∃ (s : State) (f : Fin 128) (n : Fin 64) (count : Word) (h : Fin 2048), (s.up)) :=
  ⟨⟨running, by decide⟩,
   ⟨taskIn .queued, 0, 0, { aTask with st := .queued }, by decide⟩,
   ⟨taskIn .queued, 0, { aTask with st := .queued }, by decide⟩,
   ⟨taskIn .inService, 0, { aTask with st := .inService }, by decide⟩,
   ⟨taskIn .done, 9, by decide⟩,
   ⟨small fun c => c.updDsp fun d => { d with tasks := [{ aTask with flow := none, st := .done }] }, { aTask with flow := none, st := .done }, by decide⟩,
   ⟨small fun c => c.updDsp fun d => { d with tasks := [{ aTask with timer := true, st := .waiting }] }, 0, 0, { aTask with timer := true, st := .waiting }, by decide⟩,
   ⟨running, 0, 0, 0, 3, by decide⟩⟩

/-- The hypotheses of EventRowsComplete are met, clause by clause. -/
theorem test_meets_EventRowsComplete :
    -- CLAIM answers the highest source of the function and activates it.
    (∃ (s : State) (f : Fin 128), (s.alive) ∧ (s.chip.tst.safe = false)) ∧
    -- VCLAIM answers the highest of a vector that the function has, else 0.
    (∃ (s : State) (f : Fin 128) (v : Fin 64), (s.alive) ∧ (s.chip.tst.safe = false)) ∧
    -- COMPLETE, source settings and control.
    (∃ (s : State) (f : Fin 128) (i : Fin 32) (w : Word), (s.up)) ∧
    -- Shared-source settings and routes, under the lock of their block.
    (∃ (s : State) (n : Fin 64) (w : Word) (r : Option Word), (s.up)) ∧
    -- The coalescing of a vector that the register file of the function has.
    (∃ (s : State) (f : Fin 128) (v : Fin 64) (w : Word), (s.up) ∧ ((f.val = 0 ∨ v.val < 16))) ∧
    -- A coalescing timer runs out: the vector is judged.
    (∃ (s : State) (f : Fin 128) (v : Fin 64), (s.alive) ∧ ((s.chip.vec f v).timer = true)) ∧
    -- A GPIO input of a clocked fabric.
    (∃ (s : State) (n : Fin 16) (b : Bool), (s.up) ∧ (s.chip.fabricClocked = true)) ∧
    -- A latched input while the fabric is not clocked.
    (∃ (s : State) (n : Fin 64) (b : Bool), (s.up) ∧ (s.chip.fabricClocked = false) ∧ (isLatched n = true)) :=
  ⟨⟨running, 0, by decide⟩,
   ⟨running, 0, 63, by decide⟩,
   ⟨running, 0, 31, 1, by decide⟩,
   ⟨running, 63, 1, none, by decide⟩,
   ⟨running, 1, 15, 1, by decide⟩,
   ⟨small fun c => c.updVec 0 0 fun x => { x with timer := true }, 0, 0, by decide⟩,
   ⟨running, 15, true, by decide⟩,
   ⟨sleeping, 38, true, by decide⟩⟩

/-- The hypotheses of NetworkReceiveRowsComplete are met, clause by clause. -/
theorem test_meets_NetworkReceiveRowsComplete :
    -- A frame that is accepted and is no listed frame of the protocol: dropped and counted where it names no
    -- association, counted as a bad record where it does.
    (∃ (s : State) (i : Fin 2) (f : EthFrame) (hdr : Word), (s.up) ∧ (s.chip.rxRuns i = true) ∧
      ((bits hdr 7 0 == 1 && decide (1 ≤ bits hdr 11 8) && decide (bits hdr 11 8 ≤ 6)) = false)) ∧
    -- A DATA frame of an association: its acknowledgement is taken, and in sequence its records are applied
    -- in order and acknowledged.
    (∃ (s : State) (i : Fin 2) (f : RxFrame) (k g : Nat) (c' : Chip), (s.up) ∧ (s.chip.rxRuns i = true) ∧
      (s.chip.rxAssoc i f = (some k, c')) ∧ (((c'.takeAck k f.ack).assoc k).rxSeq = f.seq) ∧
      (((c'.takeAck k f.ack).assoc k).fn = some g)) ∧
    -- An ACK frame of an association.
    (∃ (s : State) (i : Fin 2) (f : RxFrame) (k : Nat) (c' : Chip), (s.up) ∧ (s.chip.rxRuns i = true) ∧
      (s.chip.rxAssoc i f = (some k, c'))) ∧
    -- An OPEN frame that its association accepts opens it.
    (∃ (s : State) (i : Fin 2) (f : RxFrame) (k g : Nat), (s.up) ∧ (s.chip.rxRuns i = true) ∧
      ((s.chip.rxFrame i f.eth).1 = .accepted) ∧ ((s.chip.rxFrame i f.eth).2.slotOf i f.assoc = some k) ∧
      (((s.chip.rxFrame i f.eth).2.assoc k).tagOk f.eth = true) ∧
      ((((s.chip.rxFrame i f.eth).2.assoc k).macReq = true → f.eth.sec ≠ none)) ∧
      ((((s.chip.rxFrame i f.eth).2.assoc k).peer = 0 ∨ ((s.chip.rxFrame i f.eth).2.assoc k).peer = f.eth.sa.toNat)) ∧
      (((s.chip.rxFrame i f.eth).2.assoc k).fn = some g)) ∧
    -- Each record of the last DATA frame of an association that is OPEN or STALLED is applied to its
    -- function.
    (∃ (s : State) (a : Fin 32) (j : Fin 65536) (f : Nat), (s.up) ∧ (s.chip.netRuns = true) ∧
      ((s.chip.assoc a).live = true) ∧ ((s.chip.assoc a).fn = some f)) :=
  ⟨⟨netUp, 0, aFrame, 0, by decide⟩,
   ⟨assocUp, 0, aDataFrame, 0, 1, (assocUp.chip.rxAssoc 0 aDataFrame).2, by decide⟩,
   ⟨assocUp, 0, aDataFrame, 0, (assocUp.chip.rxAssoc 0 aDataFrame).2, by decide⟩,
   ⟨assocUp, 0, aDataFrame, 0, 1, by decide⟩,
   ⟨assocUp, 0, 0, 1, by decide⟩⟩

/-- The hypotheses of NetworkTimersAndSettingsComplete are met, clause by clause. -/
theorem test_meets_NetworkTimersAndSettingsComplete :
    -- An association may send.
    (∃ (s : State) (k : Fin 32), (s.up)) ∧
    -- The link status of an enabled port changes; the timer runs while it differs from the link.
    (∃ (s : State) (i : Fin 2) (ok : Bool), (s.up) ∧ (s.chip.netRuns = true) ∧ ((s.chip.eth i).en = true)) ∧
    -- The link goes down: counted, shown, reported, and its associations fail over or stall.
    (∃ (s : State) (i : Fin 2), (s.up) ∧ ((s.chip.eth i).timer = true) ∧ ((s.chip.eth i).link = true) ∧
      ((s.chip.eth i).pcsOk = false)) ∧
    -- The link comes up: what was stalled on the other goes over.
    (∃ (s : State) (i : Fin 2), (s.up) ∧ ((s.chip.eth i).timer = true) ∧ ((s.chip.eth i).link = false) ∧
      ((s.chip.eth i).pcsOk = true)) ∧
    -- The unacknowledged frames are sent again, at a doubled interval; past the limit the association fails
    -- over, or stalls.
    (∃ (s : State) (k : Fin 32), (s.up) ∧ ((s.chip.assoc k).retx = true) ∧ ((s.chip.assoc k).live = true) ∧
      ((s.chip.assoc k).unacked ≠ [])) ∧
    -- An acknowledgement that is due is sent.
    (∃ (s : State) (k : Fin 32), (s.up) ∧ ((s.chip.assoc k).live = true) ∧ ((s.chip.assoc k).rxUnacked ≠ 0)) ∧
    -- A stalled association becomes DORMANT.
    (∃ (s : State) (k : Fin 32), (s.up) ∧ ((s.chip.assoc k).st = .stalled)) ∧
    -- The security associations are written.
    (∃ (s : State) (i : Fin 2) (b : Bool) (w : Word), (s.up) ∧ (s.chip.regsLive = true)) :=
  ⟨⟨running, 0, by decide⟩,
   ⟨netUp, 0, true, by decide⟩,
   ⟨small fun c => c.updEth 1 fun p => { p with timer := true, link := true, pcsOk := false }, 1, by decide⟩,
   ⟨small fun c => c.updEth 1 fun p => { p with timer := true, link := false, pcsOk := true }, 1, by decide⟩,
   ⟨retxState, 0, by decide⟩,
   ⟨small fun c => c.updAssoc 0 fun a => { a with st := .opened, rxUnacked := 1 }, 0, by decide⟩,
   ⟨small fun c => c.updAssoc 0 fun a => { a with st := .stalled }, 0, by decide⟩,
   ⟨running, 0, true, 0, by decide⟩⟩

/-- The hypotheses of PowerEntryRowsComplete are met, clause by clause. -/
theorem test_meets_PowerEntryRowsComplete :
    -- The drain of an entry has run out: what is left is cancelled.
    (∃ (s : State), (s.up) ∧ (s.chip.sleepJudge.pwr.st = .entering) ∧ (s.chip.sleepJudge.pwr.step = 2)) ∧
    -- The same of a cluster.
    (∃ (s : State) (k : Fin 16), (s.up) ∧ ((s.chip.sleepJudge.clu k).slStep = 1)) ∧
    -- The PCIe link changes its state.
    (∃ (s : State) (l : LinkSt), (s.up) ∧ (s.chip.tst.linkHeld = false) ∧
      ((s.chip.tst.postdone = true ∨ 4 < s.chip.tst.stage))) ∧
    -- The link has not reached L1.2 in time: NAP goes on with the host island clocked; DEEP is given up.
    (∃ (s : State), (s.up) ∧ (s.chip.entryJudge.pwr.st = .entering) ∧ (s.chip.entryJudge.pwr.step = 7) ∧
      (s.chip.entryJudge.pwr.target = .nap)) ∧
    (∃ (s : State), (s.up) ∧ (s.chip.entryJudge.pwr.st = .entering) ∧ (s.chip.entryJudge.pwr.step = 7) ∧
      (s.chip.entryJudge.pwr.target = .deep)) ∧
    -- The signatures are there: the closing window opens.
    (∃ (s : State), (s.up) ∧ (s.chip.entryJudge.pwr.st = .entering) ∧ (s.chip.entryJudge.pwr.step = 8) ∧
      ((s.chip.entryJudge.pwr.gates = true → s.chip.entryJudge.cal.busy = none))) ∧
    -- The cluster sleeps; a wake that came meanwhile wakes it again.
    (∃ (s : State) (k : Fin 16), (s.up) ∧ ((s.chip.clu k).slStep = 4)) ∧
    -- A signature that does not come is reported, and its contents are taken as lost.
    (∃ (s : State) (n : Fin 16), (s.up) ∧ (s.chip.pwr.st = .entering) ∧ (s.chip.pwr.step = 8) ∧
      (s.chip.pwr.gates = true) ∧ (n.val ≠ 0)) ∧
    (∃ (s : State), (s.up) ∧ (s.chip.pwr.st = .entering) ∧ (s.chip.pwr.step = 8) ∧ (s.chip.pwr.gates = true)) ∧
    -- The closing window ends with no level wake: the device is in the state it was entering.
    (∃ (s : State), (s.up) ∧ (s.chip.pwr.st = .entering) ∧ (s.chip.pwr.window = true) ∧ (s.chip.pwr.target ≠ .doze) ∧
      (s.chip.levelWakes s.chip.pwr.target = [])) :=
  ⟨⟨busyEntering 2 .nap, by decide⟩,
   ⟨{ running with chip := (withBusy running.chip).updClu 0 fun x => { x with slStep := 1 } }, 0, by decide⟩,
   ⟨running, .l0, by decide⟩,
   ⟨entering 7 .nap, by decide⟩,
   ⟨entering 7 .deep, by decide⟩,
   ⟨entering 8 .nap, by decide⟩,
   ⟨small fun c => c.updClu 15 fun x => { x with slStep := 4 }, 15, by decide⟩,
   ⟨entering 8 .nap, by decide⟩,
   ⟨entering 8 .nap, by decide⟩,
   ⟨small fun c => c.updPwr fun x => { x with st := .entering, step := 9, target := .deep, window := true }, by decide⟩⟩

/-- The hypotheses of WakeEventsComplete are met, clause by clause. -/
theorem test_meets_WakeEventsComplete :
    -- An armed port's event is a wake.
    (∃ (s : State) (p : Fin 128) (k : Bool), (s.up) ∧ (s.chip.pwr.armed.contains p.val = true) ∧
      ((s.chip.clu (p / 8)).asleep = false) ∧ ((s.chip.clu (p / 8)).slStep = 0) ∧
      (((s.chip.wakeOn 1 false (some p.val) k).clu (p / 8)) = s.chip.clu (p / 8))) ∧
    -- The wake timer reaches 0.
    (∃ (s : State), (s.up) ∧ (s.chip.pwr.wakeTmr ≠ 0#32)) ∧
    -- The wake timer, PWR_EXIT and CLKREQ#.
    (∃ (s : State) (w : Word), (s.up)) ∧
    -- PERST# falls: a conventional reset, or in a sleep only a hold.
    (∃ (s : State), (s.up) ∧ (s.chip.pwr.st ≠ .wakeFail) ∧ (s.chip.tst.linkHeld = false)) ∧
    -- PERST# rises.
    (∃ (s : State), (s.up) ∧ (s.chip.pci.perst = true)) :=
  ⟨⟨small fun c => c.updPwr fun x => { x with armed := [0] }, 0, true, by decide⟩,
   ⟨small fun c => c.updPwr fun x => { x with wakeTmr := 1#32 }, by decide⟩,
   ⟨running, 5, by decide⟩,
   ⟨running, by decide⟩,
   ⟨small fun c => { c with pci := { c.pci with perst := true } }, by decide⟩⟩

/-- The hypotheses of PowerExitClocksComplete are met, clause by clause. -/
theorem test_meets_PowerExitClocksComplete :
    -- A regulator is good: the next is started.
    (∃ (s : State) (r : Fin 4), (s.up) ∧ ((s.chip.pwr.st = .exiting)) ∧ (s.chip.pwr.step = 1) ∧
      (s.chip.pwr.regWait = false) ∧ (s.chip.pwr.reg = r.val) ∧ ((r.val < 2 ∨ r.val = 2 ∧
      s.chip.pwr.reg3Off = true))) ∧
    -- The last one is good: the oscillator is next, and a WAKE# that is owed is driven.
    (∃ (s : State) (r : Fin 4), (s.up) ∧ ((s.chip.pwr.st = .exiting)) ∧ (s.chip.pwr.step = 1) ∧
      (s.chip.pwr.regWait = false) ∧ (s.chip.pwr.reg = r.val) ∧ (2 ≤ r.val) ∧ ((r.val = 2 →
      s.chip.pwr.reg3Off = false))) ∧
    -- A regulator that does not come has failed.
    (∃ (s : State) (r : Fin 4), (s.up) ∧ ((s.chip.pwr.st = .exiting)) ∧ (s.chip.pwr.step = 1) ∧
      (s.chip.pwr.regWait = false) ∧ (s.chip.pwr.reg = r.val)) ∧
    -- It is started again.
    (∃ (s : State), (s.up) ∧ (s.chip.pwr.st = .exiting) ∧ (s.chip.pwr.step = 1) ∧ (s.chip.pwr.regWait = true)) ∧
    -- The oscillator is stable, or is not in time.
    (∃ (s : State), (s.up) ∧ (s.chip.pwr.st = .exiting) ∧ (s.chip.pwr.step = 2)) ∧
    -- The core PLL locks.
    (∃ (s : State), (s.up) ∧ (s.chip.pwr.st = .exiting) ∧ (s.chip.pwr.step = 3)) ∧
    -- A cluster PLL locks.
    (∃ (s : State) (k : Fin 16), (s.up) ∧ (s.chip.pwr.st = .exiting) ∧ (s.chip.pwr.step = 3) ∧
      (s.chip.pwr.pllWait.contains k.val = true)) ∧
    -- The core PLL is tried once more; then the device is management-only.
    (∃ (s : State), (s.up) ∧ (s.chip.pwr.st = .exiting) ∧ (s.chip.pwr.step = 3) ∧ (s.chip.pwr.corePll = false)) ∧
    -- A cluster PLL is tried once more; then its cluster stays off.
    (∃ (s : State) (k : Fin 16), (s.up) ∧ (s.chip.pwr.st = .exiting) ∧ (s.chip.pwr.step = 3) ∧
      (s.chip.pwr.pllWait.contains k.val = true)) :=
  ⟨⟨exiting 1, 0, by decide⟩,
   ⟨small fun c => c.updPwr fun x => { x with st := .exiting, step := 1, reg := 3 }, 3, by decide⟩,
   ⟨exiting 1, 0, by decide⟩,
   ⟨small fun c => c.updPwr fun x => { x with st := .exiting, step := 1, regWait := true }, by decide⟩,
   ⟨exiting 2, by decide⟩,
   ⟨exiting 3, by decide⟩,
   ⟨small fun c => c.updPwr fun x => { x with st := .exiting, step := 3, pllWait := [0] }, 0, by decide⟩,
   ⟨exiting 3, by decide⟩,
   ⟨small fun c => c.updPwr fun x => { x with st := .exiting, step := 3, pllWait := [0] }, 0, by decide⟩⟩

/-- The hypotheses of PowerExitIslandsComplete are met, clause by clause. -/
theorem test_meets_PowerExitIslandsComplete :
    -- The DRAM is ready: the islands are next.
    (∃ (s : State) (lost : Bool), (s.up) ∧ (s.chip.dramCheck.pwr.st = .exiting) ∧ (s.chip.dramCheck.pwr.step = 4)) ∧
    -- The DRAM is tried again, then with its contents given up, then the device goes to its safe state.
    (∃ (s : State), (s.up) ∧ (s.chip.pwr.st = .exiting) ∧ (s.chip.pwr.step = 4)) ∧
    -- An island is ready, with what it has lost.
    (∃ (s : State) (cls : Fin 9) (k : Fin 144) (lost : List (Fin 9)) (groups : List (Fin 16)), (s.up) ∧
      (s.chip.islAwaited (islNum cls k) = true) ∧ (cls.val ≠ 8) ∧ (s.chip.pwr.st = .exiting)) ∧
    -- An island is tried once more.
    (∃ (s : State) (cls : Fin 9) (k : Fin 144), (s.up) ∧ (s.chip.islAwaited (islNum cls k) = true) ∧
      (s.chip.pwr.islAgain.contains (islNum cls k) = false)) ∧
    -- At the second timeout an engine, a cluster or the network is given up; for another island the device
    -- goes to its safe state.
    (∃ (s : State) (cls : Fin 9) (k : Fin 144), (s.up) ∧ (s.chip.islAwaited (islNum cls k) = true) ∧
      (s.chip.pwr.islAgain.contains (islNum cls k) = true) ∧ (s.chip.pwr.st = .exiting)) ∧
    -- An idle island is gated again in DOZE.
    (∃ (s : State) (cls : Fin 9), (s.up) ∧ (s.chip.pwr.st = .doze) ∧ (cls.val ≠ 8)) ∧
    -- WAKE# is released.
    (∃ (s : State), (s.alive)) ∧
    -- Power good falls in a running device: it is reported.
    (∃ (s : State) (r : Fin 4), (s.up) ∧ ((s.chip.pwr.st = .active ∨ s.chip.pwr.st = .doze))) :=
  ⟨⟨exiting 4, true, by decide⟩,
   ⟨exiting 4, by decide⟩,
   ⟨islState, 2, 0, [2], [3], by decide⟩,
   ⟨islState, 2, 0, by decide⟩,
   ⟨islState2, 2, 0, by decide⟩,
   ⟨small fun c => c.updPwr fun x => { x with st := .doze, ungated := [5] }, 5, by decide⟩,
   ⟨running, by decide⟩,
   ⟨running, 3, by decide⟩⟩

/-- The hypotheses of FaultRowsComplete are met, clause by clause. -/
theorem test_meets_FaultRowsComplete :
    -- The collector takes its next message.
    (∃ (s : State), (s.alive) ∧ (s.chip.fabricClocked = true)) ∧
    -- The window of a source ends: its count is 0.
    (∃ (s : State) (i : Fin 1024), (s.alive) ∧ ((s.chip.fltSrc i).win = true)) ∧
    -- The reaction to a severe source that was not cleared is made, and recorded as ESCALATED.
    (∃ (s : State) (i : Fin 1024), (s.alive) ∧ ((s.chip.fltSrc i).react = true) ∧ ((s.chip.fltSrc i).severe = true)) ∧
    -- A clear of a source, of all, and an action.
    (∃ (s : State) (w : Word), (s.up) ∧ (s.chip.fabricRuns = true)) ∧
    -- A lockstep mismatch stops the scheduler, starts its recovery and is reported.
    (∃ (s : State) (a : BitVec 40), (s.up) ∧ (s.chip.mfnRuns = true)) ∧
    -- The reload is done; contexts that could not be read are lost.
    (∃ (s : State) (l : List (Fin 16 × Fin 2048)), (s.up) ∧ (s.chip.sch.recovering = true) ∧ (s.chip.sch.step < 4)) ∧
    -- A recovery that does not come: the safe state.
    (∃ (s : State), (s.up) ∧ (s.chip.sch.recovering = true) ∧ (s.chip.sch.step < 4)) :=
  ⟨⟨running, by decide⟩,
   ⟨small fun c => c.updFltSrc 1023 fun x => { x with win := true }, 1023, by decide⟩,
   ⟨small fun c => c.updFltSrc 0x80 fun x => { x with react := true, severe := true }, 0x80, by decide⟩,
   ⟨running, 0, by decide⟩,
   ⟨running, 0, by decide⟩,
   ⟨small fun c => c.updSch fun x => { x with recovering := true, step := 1 }, [], by decide⟩,
   ⟨small fun c => c.updSch fun x => { x with recovering := true, step := 1 }, by decide⟩⟩

/-- The hypotheses of ResetAndBootRowsComplete are met, clause by clause. -/
theorem test_meets_ResetAndBootRowsComplete :
    -- RESET_N low for at least 2 cycles of a powered device: it is taken as its length and the state decide;
    -- taken, the device is reset and stays so.
    (∃ (s : State) (n : Fin 65536), (s.chip.aon.off = false) ∧ (2 ≤ n.val)) ∧
    -- RESET_N is released.
    (∃ (s : State), (s.chip.aon.off = false)) ∧
    -- A fall of VDD_DRAM is remembered; of VDD_RET or VDD_AON, all but the fuses and the calibration store is
    -- lost, and with VDD_AON the test access port too.
    (∃ (s : State) (r : Rail), (r ≠ .dram)) ∧
    -- A stage of the self-test ends.
    (∃ (s : State) (found : PostFound), (s.up) ∧ (s.chip.tst.postdone = false) ∧ (s.chip.pwr.st = .active)) ∧
    -- The boot image has been read.
    (∃ (s : State) (flash : List Byte) (quad : Bool), (s.up) ∧ (s.chip.boot.rereading = false) ∧
      (s.chip.tst.postdone = false) ∧ (s.chip.boot.read = false) ∧ (7 ≤ s.chip.tst.stage)) ∧
    -- It has been read again.
    (∃ (s : State) (flash : List Byte) (quad : Bool), (s.up) ∧ (s.chip.boot.rereading = true)) ∧
    -- An image has been checked: it is staged and its command succeeds, or the command ends with the error.
    (∃ (s : State) (who : MaintWho) (e : Nat) (x : Option Image), (s.up) ∧ (s.chip.boot.staging = some (who, e, x))) ∧
    -- A write of the calibration store ends.
    (∃ (s : State) (who : MaintWho) (t : Nat) (body : List Byte) (ok : Bool), (s.alive) ∧
      (s.chip.cal.busy = some (who, t, body))) ∧
    -- A temperature below 115 °C: it is shown; shared source 32 rises at the warning threshold and falls 5 °C
    -- below.
    (∃ (s : State) (t : BitVec 11), (s.alive) ∧ (t.toInt < 460) ∧ (s.chip.fabricClocked = true)) :=
  ⟨⟨running, 2, by decide⟩,
   ⟨running, by decide⟩,
   ⟨running, .aon, by decide⟩,
   ⟨posting, {}, by decide⟩,
   ⟨small fun c => { c with tst := { c.tst with postdone := false, stage := 7 } }, [], true, by decide⟩,
   ⟨small fun c => { c with boot := { c.boot with rereading := true } }, [], true, by decide⟩,
   ⟨small fun c => { c with boot := { c.boot with staging := some (.admin, 3, none) } }, .admin, 3, none, by decide⟩,
   ⟨small fun c => { c with cal := { c.cal with busy := some (.admin, 1, []) } }, .admin, 1, [], true, by decide⟩,
   ⟨running, 459, by decide⟩⟩

/-- The hypotheses of BurnAndReshapeRowsComplete are met, clause by clause. -/
theorem test_meets_BurnAndReshapeRowsComplete :
    -- A burn of the repair fuses starts, or finds too few records free.
    (∃ (s : State) (w : Word), (s.up) ∧ (s.locks.tst = false) ∧ (bits w 31 24 = 0xA5) ∧ (bit w 0 = true) ∧
      (s.chip.tst.fuseBusy = false) ∧ (s.chip.burnable = true)) ∧
    -- It ends: the soft repairs are records, and burnt.
    (∃ (s : State), (s.alive) ∧ (s.chip.tst.fuseBusy = true)) ∧
    -- A burn of the key hash starts, or is refused with ERR.
    (∃ (s : State) (w : Word), (s.up) ∧ (bit w 0 = true)) ∧
    -- It ends: the hash is programmed; one that is programmed already stays.
    (∃ (s : State), (s.alive) ∧ (s.chip.boot.keyBusy = true)) ∧
    -- A burn of the debug lock starts, or is refused with ERR.
    (∃ (s : State) (w : Word), (s.up) ∧ (bit w 0 = true)) ∧
    -- It ends: debug is locked, and the test access port is at its reset with IDCODE.
    (∃ (s : State), (s.alive) ∧ (s.chip.aon.dbgBusy = true)) ∧
    -- A running reshape that nothing blocks is accepted.
    (∃ (s : State) (i : Fin 65536) (o : Op), (s.alive) ∧ (s.chip.op i = some o) ∧ (s.chip.pwr.st ≠ .entering) ∧
      (o.kind = .reshape) ∧ (o.st = .running) ∧ (s.chip.reshapeBlocked o = false) ∧ (s.chip.inMove o = false)) ∧
    -- The cut of a moved port, once its microframe has come.
    (∃ (s : State) (p : Fin 128) (o : Op) (k : Mfn), (s.alive) ∧ (s.chip.mover p = some o) ∧ (o.cut = some k) ∧
      (mfnAfter s.chip.mfn k < 8192)) ∧
    -- The handover of a cut port whose queues are empty.
    (∃ (s : State) (p : Fin 128) (o : Op), (s.alive) ∧ (s.chip.mover p = some o) ∧ ((s.chip.own p).cut = true) ∧
      (s.chip.portWqs p = [])) :=
  ⟨⟨running, 0xA5000001, by decide⟩,
   ⟨small fun c => { c with tst := { c.tst with fuseBusy := true } }, by decide⟩,
   ⟨running, 0xC3000001, by decide⟩,
   ⟨small fun c => { c with boot := { c.boot with keyBusy := true } }, by decide⟩,
   ⟨running, 0x96000001, by decide⟩,
   ⟨small fun c => { c with aon := { c.aon with dbgBusy := true } }, by decide⟩,
   ⟨reshaping, 7, reshapeOp, by decide⟩,
   ⟨movingCut, 3, movingOp (some 0), 0, by decide⟩,
   ⟨movedOut, 3, movingOp none, by decide⟩⟩

/-- The hypotheses of LanyardCommandsComplete are met, clause by clause. -/
theorem test_meets_LanyardCommandsComplete :
    -- READ of aligned dwords in the register space whose registers run.
    (∃ (s : State) (m : LnyCmd), (s.asksLny 0x01 m) ∧ (m.arg0.toNat % 4 = 0) ∧ ((1 ≤ m.arg1.toNat ∧
      m.arg1.toNat ≤ 4096)) ∧ (m.arg0.toNat + 4 * m.arg1.toNat ≤ 0x2000000) ∧
      (((List.range m.arg1.toNat).any fun i => !s.chip.regRuns (m.arg0.toNat + 4 * i)) = false)) ∧
    -- WRITE to a block that the service port may write.
    (∃ (s : State) (m : LnyCmd), (s.asksLny 0x02 m) ∧ (m.arg0.toNat % 4 = 0) ∧ (m.arg0.toNat < 0x2000000) ∧
      ([0x04, 0x05, 0x1B].contains (m.arg0.toNat / 0x10000) = true) ∧ (s.chip.regRuns m.arg0.toNat = true)) ∧
    -- HISTORY answers all 32 slots.
    (∃ (s : State) (m : LnyCmd), (s.asksLny 0x03 m)) ∧
    -- CLEAR of a source, or of all.
    (∃ (s : State) (m : LnyCmd), (s.asksLny 0x04 m)) ∧
    -- POWER with a state and a cluster that are allowed.
    (∃ (s : State) (m : LnyCmd), (s.asksLny 0x05 m) ∧ (bits m.arg0 7 3 = 0) ∧ (bits m.arg0 31 12 = 0) ∧
      (powerParamBad (bits m.arg0 2 0) (bits m.arg0 11 8) = false) ∧
      (s.chip.powerRefused (bits m.arg0 2 0) (bits m.arg0 11 8) = false)) ∧
    -- RETRY of a failed exit.
    (∃ (s : State) (m : LnyCmd), (s.asksLny 0x06 m)) ∧
    -- RESET with its key: the device is reset once the response has gone.
    (∃ (s : State) (m : LnyCmd), (s.asksLny 0x07 m) ∧ (m.arg0 = 0x5A5A#32)) ∧
    -- IDENTIFY answers the record of PF0.
    (∃ (s : State) (m : LnyCmd), (s.asksLny 0x08 m)) ∧
    -- CAL_EXPORT answers the whole store.
    (∃ (s : State) (m : LnyCmd), (s.asksLny 0x09 m)) ∧
    -- CAL_WRITE of an allowed body starts.
    (∃ (s : State) (m : LnyCmd), (s.asksLny 0x0A m) ∧ (calBodyOk m.arg0.toNat m.data = true) ∧
      (s.chip.calWorn m.arg0.toNat = false) ∧ (s.chip.calRefused s.locks = false)) ∧
    -- IMAGE_STAGE starts to check the image.
    (∃ (s : State) (m : LnyCmd), (s.asksLny 0x0B m) ∧ (s.chip.imageRuns = true) ∧ (s.chip.stageRefused = false)) ∧
    -- IMAGE_APPLY of staged sections.
    (∃ (s : State) (m : LnyCmd), (s.asksLny 0x0C m) ∧ (s.chip.imageRuns = true) ∧
      (s.chip.applyBad m.arg0.toNat = false) ∧ (s.chip.applyRefused = false)) :=
  ⟨⟨lnyIn 0x01 0 1 [], lnyMsg 0x01 0 1 [], by decide⟩,
   ⟨lnyIn 0x02 0x40000 1 [], lnyMsg 0x02 0x40000 1 [], by decide⟩,
   ⟨lnyIn 0x03 0 0 [], lnyMsg 0x03 0 0 [], by decide⟩,
   ⟨lnyIn 0x04 0 0 [], lnyMsg 0x04 0 0 [], by decide⟩,
   ⟨lnyIn 0x05 1 0 [], lnyMsg 0x05 1 0 [], by decide⟩,
   ⟨lnyIn 0x06 0 0 [], lnyMsg 0x06 0 0 [], by decide⟩,
   ⟨lnyIn 0x07 0x5A5A 0 [], lnyMsg 0x07 0x5A5A 0 [], by decide⟩,
   ⟨lnyIn 0x08 0 0 [], lnyMsg 0x08 0 0 [], by decide⟩,
   ⟨lnyIn 0x09 0 0 [], lnyMsg 0x09 0 0 [], by decide⟩,
   ⟨lnyIn 0x0A calType 0 calBody, lnyMsg 0x0A calType 0 calBody, by decide⟩,
   ⟨lnyIn 0x0B 0 0 [], lnyMsg 0x0B 0 0 [], by decide⟩,
   ⟨lnyStaged, lnyMsg 0x0C 0xFF 0 [], by decide⟩⟩

/-- The hypotheses of LanyardBusRowsComplete are met, clause by clause. -/
theorem test_meets_LanyardBusRowsComplete :
    -- VBUS changes in a powered device: it is shown, the pull-up is judged, and a reset whose response has
    -- not gone takes effect when VBUS falls.
    (∃ (s : State) (b : Bool), (s.alive) ∧ (s.chip.aon.off = false)) ∧
    -- A bus reset: the default state at the speed that was negotiated.
    (∃ (s : State) (hs : Bool), (s.alive) ∧ (s.chip.lnyConnected = true) ∧ (s.chip.aon.testen = false)) ∧
    -- Suspend and resume.
    (∃ (s : State), (s.alive) ∧ (s.chip.lnyBus = true)) ∧
    -- A control read: the data, at most the length asked, or STALL.
    (∃ (s : State) (rt rq : Byte) (v i len : Fin 65536), (s.alive) ∧ (s.chip.lnyBus = true) ∧
      (s.chip.lny.suspended = false) ∧ (0x80 ≤ rt.toNat)) ∧
    -- A control write without data.
    (∃ (s : State) (rt rq : Byte) (v i : Fin 65536), (s.alive) ∧ (s.chip.lnyBus = true) ∧
      (s.chip.lny.suspended = false) ∧ (rt.toNat < 0x80)) ∧
    -- A good OUT packet: STALL where halted, ACK and nothing where it repeats, NAK where both buffers are
    -- full, else it is taken.
    (∃ (s : State) (ep : Fin 16) (d : Bool) (bs : List Byte), (s.alive) ∧ (s.chip.lnyBulk ep = true) ∧
      (bs.length ≤ s.chip.lny.mps)) ∧
    -- One with a bad CRC is counted only.
    (∃ (s : State) (ep : Fin 16) (d : Bool) (bs : List Byte), (s.alive) ∧ (s.chip.lnyBulk ep = true) ∧
      (bs.length ≤ s.chip.lny.mps)) ∧
    -- PING.
    (∃ (s : State) (ep : Fin 16), (s.alive) ∧ (s.chip.lnyBulk ep = true) ∧ (s.chip.lny.speed = 3)) ∧
    -- An IN token: STALL, NAK, or the packet; acknowledged, it is gone, and a reset that waited for it is
    -- made.
    (∃ (s : State) (ep : Fin 16) (ack : Bool), (s.chip.lnyBulk ep = true) ∧
      (s.chip.lny.halted.contains (0x80 + ep.val) = true)) ∧
    (∃ (s : State) (ep : Fin 16) (ack : Bool), (s.chip.lnyBulk ep = true) ∧
      (s.chip.lny.halted.contains (0x80 + ep.val) = false) ∧ (s.chip.lny.inData ep = none)) ∧
    (∃ (s : State) (ep : Fin 16) (ack : Bool) (bs : _), (s.chip.lnyBulk ep = true) ∧
      (s.chip.lny.halted.contains (0x80 + ep.val) = false) ∧ (s.chip.lny.inData ep = some bs)) :=
  ⟨⟨running, true, by decide⟩,
   ⟨lnyUp, true, by decide⟩,
   ⟨lnyUp, by decide⟩,
   ⟨lnyUp, 0x80, 6, 0x100, 0, 18, by decide⟩,
   ⟨lnyUp, 0, 9, 0, 0, by decide⟩,
   ⟨lnyConf, 1, false, [], by decide⟩,
   ⟨lnyConf, 1, false, [], by decide⟩,
   ⟨lnyConf, 1, by decide⟩,
   ⟨{ lnyConf with chip := lnyConf.chip.updLny fun x => { x with halted := [0x81] } }, 1, true, by decide⟩,
   ⟨lnyConf, 1, true, by decide⟩,
   ⟨{ lnyConf with chip := lnyConf.chip.updLny fun x => { x with in1 := [[7]] } }, 1, true, [7], by decide⟩⟩

/-- The hypotheses of TetherReadsAndPowerComplete are met, clause by clause. -/
theorem test_meets_TetherReadsAndPowerComplete :
    -- The address is acknowledged, and is a wake where it is armed.
    (∃ (s : State) (a : Fin 128), (s.alive) ∧ (a.val = s.chip.tth.addr) ∧ (s.chip.pwr.window = false)) ∧
    -- STATUS answers its 8 bytes.
    (∃ (s : State), (s.tthTakes noPec false)) ∧
    -- SELECT sets the offset.
    (∃ (s : State) (w : Word) (pec : Option Bool), (s.tthTakes pec false)) ∧
    -- REGDATA reads 8 dwords and advances the offset.
    (∃ (s : State), (s.tthTakes noPec false)) ∧
    -- REGDATA writes a register of the blocks it may write.
    (∃ (s : State) (w : Word) (pec : Option Bool), (s.tthTakes pec true) ∧
      ((s.chip.tth.sel / 0x10000 = 0x04 ∨ s.chip.tth.sel / 0x10000 = 0x1D)) ∧ (s.chip.tth.sel ≠ 0x1D000C)) ∧
    -- RESULT answers the last command and its status.
    (∃ (s : State), (s.alive) ∧ (s.chip.pwr.window = false)) ∧
    -- POWER starts an entry.
    (∃ (s : State) (st k : Byte) (pec : Option Bool), (s.tthTakes pec true)) ∧
    -- WAKE wakes.
    (∃ (s : State) (pec : Option Bool), (s.tthTakes pec false)) :=
  ⟨⟨running, 0x58, by decide⟩,
   ⟨running, by decide⟩,
   ⟨running, 0x40000, none, by decide⟩,
   ⟨running, by decide⟩,
   ⟨tthAt 0x40000, 1, none, by decide⟩,
   ⟨running, by decide⟩,
   ⟨tthAt 0, 1, 0, none, by decide⟩,
   ⟨running, none, by decide⟩⟩

/-- The hypotheses of TetherActionsComplete are met, clause by clause. -/
theorem test_meets_TetherActionsComplete :
    -- RETRY.
    (∃ (s : State) (pec : Option Bool), (s.tthTakes pec true)) ∧
    -- CLEAR of a source, or of all.
    (∃ (s : State) (n : Fin 65536) (pec : Option Bool), (s.tthTakes pec true)) ∧
    -- DOORBELL raises shared source 37, or waits for the fabric.
    (∃ (s : State) (w : Word) (pec : Option Bool), (s.tthTakes pec false)) ∧
    -- MAILBOX is read: it is empty, and ALERT# ends unless a fault holds it.
    (∃ (s : State), (s.tthTakes noPec false)) ∧
    -- RESET with its key resets the device.
    (∃ (s : State) (b : Byte) (pec : Option Bool), (s.tthTakes pec true)) ∧
    -- The alert response answers the address and ends the alert.
    (∃ (s : State), (s.alive) ∧ (s.chip.tth.alertLow = true)) ∧
    -- A register of REGDATA does not answer in time: the dwords before it, then ones; whether it was read is
    -- free.
    (∃ (s : State) (k : Fin 8), (s.tthTakes noPec false) ∧ (regAlwaysOn (s.chip.tth.sel + 4 * k.val) = false) ∧
      (s.chip.regRuns (s.chip.tth.sel + 4 * k.val) = true)) ∧
    -- An SCL timeout is counted.
    (∃ (s : State), (s.alive)) ∧
    -- The host writes the mailbox.
    (∃ (s : State) (w : Word), (s.up) ∧ (s.chip.hostReach = true)) :=
  ⟨⟨tthAt 0, none, by decide⟩,
   ⟨tthAt 0, 0, none, by decide⟩,
   ⟨running, 5, none, by decide⟩,
   ⟨running, by decide⟩,
   ⟨tthAt 0, 0x5A, none, by decide⟩,
   ⟨small fun c => c.updTth fun x => { x with alertLow := true }, by decide⟩,
   ⟨tthAt 0x60000, 7, by decide⟩,
   ⟨running, by decide⟩,
   ⟨running, 1, by decide⟩⟩

/-- The hypotheses of TestPortEdgesComplete are met, clause by clause. -/
theorem test_meets_TestPortEdgesComplete :
    -- TRST_N low resets the port.
    (∃ (s : State) (r tms tdi : Bool), (s.chip.aon.off = false)) ∧
    -- A rising edge.
    (∃ (s : State) (tms tdi : Bool), (s.chip.aon.off = false) ∧ (s.jtag.debugScan s.otp.dbgLock true = false)) ∧
    -- A falling edge; what the boundary register shifts out is free.
    (∃ (s : State) (tms tdi : Bool), (s.chip.aon.off = false)) ∧
    -- A scan of the data register of an unlocked debug instruction is the only refusal.
    (∃ (s : State) (tms tdi : Bool), (s.chip.aon.off = false) ∧ (s.jtag.debugScan s.otp.dbgLock true = true)) :=
  ⟨⟨running, true, true, true, by decide⟩,
   ⟨running, true, true, by decide⟩,
   ⟨running, true, true, by decide⟩,
   ⟨{ running with jtag := { tap := .shDr, ir := 0x80 } }, true, true, by decide⟩⟩

/-- The hypotheses of StepRunsTheFrontCommand are met, clause by clause. -/
theorem test_meets_StepRunsTheFrontCommand :
    -- The command at the front is run with the rest of the queue.
    (∃ (s : State) (c : Instr) (rest : List Instr), (s.pending = c :: rest)) ∧
    -- On an empty queue the state stays as it is (the model's choice, log 1).
    (∃ (s : State), (s.pending = [])) :=
  ⟨⟨{ State.reset with pending := [.resetNRelease] }, .resetNRelease, [], by decide⟩,
   ⟨State.reset, by decide⟩⟩

/-- The hypotheses of OtherCommandsLeaveLocksFusesAndTap are met, clause by clause. -/
theorem test_meets_OtherCommandsLeaveLocksFusesAndTap :
    -- The frame of those commands.
    (∃ (c : Instr) (s t : State), (beyondChip c = false) ∧ (exec c s = .next t)) :=
  ⟨.resetNRelease, State.reset, { State.reset with chip := { State.reset.chip with aon := { State.reset.chip.aon with resetN := false } } }, by decide, rfl⟩

/-- The hypotheses of DeadDeviceIgnoresCommands are met, clause by clause. -/
theorem test_meets_DeadDeviceIgnoresCommands :
    -- Nothing else reaches it.
    (∃ (c : Instr) (s : State), (s.chip.dead = true) ∧ (reachesDead c = false)) :=
  ⟨.conventionalReset, { State.reset with chip := { State.reset.chip with aon := { State.reset.chip.aon with resetN := true } } }, by decide⟩

/-- The hypotheses of LockBitsStaySet are met, clause by clause. -/
theorem test_meets_LockBitsStaySet :
    -- Every step keeps them, or is a device reset.
    (∃ (s t : State), (step s = .next t)) ∧
    -- A write of 1 sets the bit of its block.
    (∃ (l : Locks) (w : Word), (bit w 31 = true)) ∧
    -- A device reset clears them.
    (∃ (s t : State) (a : Fin 8) (b : Bool), (exec (.powerOn a b) s = .next t)) ∧
    -- And so does RESET_N.
    (∃ (s t : State) (n : Fin 65536), (s.chip.aon.off = false) ∧ (10 ≤ n.val) ∧
      (exec (.resetNAssert n) s = .next t)) :=
  ⟨⟨State.reset, State.reset, rfl⟩,
   ⟨{}, 0x80000000#32, by decide⟩,
   ⟨State.reset, _, 0, false, rfl⟩,
   ⟨State.reset, _, 10, by decide, by decide, rfl⟩⟩

/-- The hypotheses of BurnedFusesStayBurned are met, clause by clause. -/
theorem test_meets_BurnedFusesStayBurned :
    -- Every step keeps them.
    (∃ (s t : State), (step s = .next t)) :=
  ⟨State.reset, State.reset, rfl⟩

/-- The hypotheses of TapStaysLegal are met, clause by clause. -/
theorem test_meets_TapStaysLegal :
    -- Every step keeps it.
    (∃ (s t : State), (s.jtag.legal s.otp.dbgLock) ∧ (step s = .next t)) :=
  ⟨State.reset, State.reset, by decide, rfl⟩

/-- The hypotheses of ResetValuesRead are met, clause by clause. -/
theorem test_meets_ResetValuesRead :
    -- Offset in the BAR0 of PF0, and value: GBL_ID, GBL_MFN, GBL_BOOT, GBL_DBG, GBL_TEMP, FN_ID, FN_CTRL,
    -- FN_PORTS0, EVT_VCOAL0, SCH_CTRL, SCH_PORT5_CFG, PRT_CTRL of port 0, PRT_LPM, PRT_ENGINE of port 5,
    -- PRT_CONN, PRT_PWRCFG, CLU_MONCFG, GRN_CTRL, GRN_PART, GRN_CELLS, GRN_FREE, GRN_SPILLFREE, GRN_SCRUBCFG,
    -- DSP_CTRL, DSP_STATUS, DSP_LANEMAP, DSP_FLOWS, SVC_CTRL, SVC_BUFFREE, EVT_SH_CTRL, PWR_CFG,
    -- FLT_KINDSEV0, FLT_KINDSEV1, TST_STATUS, TST_PORTOK0, TTH_CTRL, LNY_CTRL.
    (∃ (e : _),
      (e ∈ [(0x000000, 0x1F9D8002), (0x000004, 0x00000000), (0x000020, 0x83000000), (0x000090, 0x00000000), (0x000094, 0x00690000), (0x010000, 0x01288000), (0x010004, 0x00000000), (0x010020, 0xFFFFFFFF), (0x011200, 0x00000001), (0x080000, 0x0000BB80), (0x0810A0, 0x00050001), (0x100000, 0x00018000), (0x10000C, 0x00004002), (0x10281C, 0x00050000), (0x100100, 0x00000100), (0x100108, 0x00003301), (0x140010, 0x00000002), (0x160000, 0x00000003), (0x160004, 0x00CC0012), (0x160008, 0x00033000), (0x16000C, 0x00033000), (0x160018, 0x00000800), (0x16002C, 0x000A0004), (0x180000, 0x00000014), (0x180004, 0x00000020), (0x180008, 0xFFFFFFFF), (0x180014, 0x00000080), (0x188000, 0x00000008), (0x188008, 0x00003C00), (0x060000, 0x00000002), (0x040008, 0x0A640A02), (0x050008, 0x00028C00), (0x05000C, 0x00000000), (0x1B0004, 0x01000000), (0x1B0020, 0xFFFFFFFF), (0x1D0000, 0x00000003), (0x1D1000, 0x00000003)])) :=
  ⟨(0, 0x1F9D8002), by decide⟩

/-- The hypotheses of ArrivalsAreCounted are met, clause by clause. -/
theorem test_meets_ArrivalsAreCounted :
    -- An entry at a private level source.
    (∃ (c : Chip) (f i : Nat), (i < 17)) ∧
    -- A rise of the level of source 18.
    (∃ (c : Chip) (f : Nat), ((c.src f 18).input = false)) ∧
    -- A change of a shared input that is an arrival under its sense.
    (∃ (c : Chip) (i : Nat) (b : Bool), ((c.sh i).sense.arrives (c.sh i).src.input b = true)) ∧
    -- A claim of a private source.
    (∃ (c : Chip) (f : Nat) (v : Option Nat) (a : Cand), (Cand.best (c.candidates f v) = some a) ∧
      (a.shared = false) ∧ ((c.src f a.num).arrivals ≤ 255) ∧ ((c.src f a.num).prio ≤ 15)) ∧
    -- A claim of a shared source.
    (∃ (c : Chip) (f : Nat) (v : Option Nat) (a : Cand), (Cand.best (c.candidates f v) = some a) ∧ (a.shared = true) ∧
      ((c.sh a.num).src.arrivals ≤ 255) ∧ ((c.sh a.num).src.prio ≤ 15)) :=
  ⟨⟨State.reset.chip, 0, 16, by decide⟩,
   ⟨State.reset.chip, 0, by decide⟩,
   ⟨State.reset.chip, 16, true, by decide⟩,
   ⟨small (fun c => (c.updSrc 0 17 fun s => { s with enable := true }).raise 0 17) |>.chip, 0, none, ⟨0, false, 17⟩, by decide⟩,
   ⟨small (fun c => (c.updSh 37 fun s => { s with src := { s.src with enable := true } }).shPulse 37) |>.chip, 0, none, ⟨0, true, 37⟩, by decide⟩⟩

/-- The hypotheses of ClaimTakesTheHighestRanked are met, clause by clause. -/
theorem test_meets_ClaimTakesTheHighestRanked :
    -- Nothing claimable.
    (∃ (c : Chip) (f : Nat) (v : Option Nat), (c.candidates f v = [])) ∧
    -- One ranks above all others.
    (∃ (c : Chip) (f : Nat) (v : Option Nat), (c.candidates f v ≠ [])) ∧
    -- It becomes ACTIVE.
    (∃ (c : Chip) (f : Nat) (v : Option Nat) (a : Cand), (Cand.best (c.candidates f v) = some a)) :=
  ⟨⟨State.reset.chip, 0, none, by decide⟩,
   ⟨small (fun c => (c.updSrc 0 17 fun s => { s with enable := true }).raise 0 17) |>.chip, 0, none, by decide⟩,
   ⟨small (fun c => (c.updSrc 0 17 fun s => { s with enable := true }).raise 0 17) |>.chip, 0, none, ⟨0, false, 17⟩, by decide⟩⟩

/-- The hypotheses of StrayCompletionsCount are met, clause by clause. -/
theorem test_meets_StrayCompletionsCount :
    -- STRAY.
    (∃ (c : Chip) (f id : Nat), (¬ (id < 32 ∧ (c.src f id).st.isActive = true)) ∧ (¬ (0x40 ≤ id ∧ id < 0x80 ∧
      (c.sh (id - 0x40)).src.st.isActive = true ∧ (c.sh (id - 0x40)).claimer = f))) :=
  ⟨State.reset.chip, 0, 0x20, by decide⟩

/-- The hypotheses of ProducerCountRule are met, clause by clause. -/
theorem test_meets_ProducerCountRule :
    -- DOORBELL.
    (∃ (c : Chip) (f n : Nat) (p : Word) (ws : List Word) (q : Wq), (c.wq f n = some q) ∧ (q.stopped = false) ∧
      (q.deleting = none) ∧ (q.mode = .doorbell) ∧
      let adv := (p - q.pobs).toNat; let room := (q.ccount + BitVec.ofNat 32 (2 ^ q.log2) - q.pobs).toNat; (adv = 0)) ∧
    (∃ (c : Chip) (f n : Nat) (p : Word) (ws : List Word) (q : Wq), (c.wq f n = some q) ∧ (q.stopped = false) ∧
      (q.deleting = none) ∧ (q.mode = .doorbell) ∧
      let adv := (p - q.pobs).toNat; let room := (q.ccount + BitVec.ofNat 32 (2 ^ q.log2) - q.pobs).toNat; (0 < adv) ∧
      (adv ≤ room)) ∧
    (∃ (c : Chip) (f n : Nat) (p : Word) (ws : List Word) (q : Wq), (c.wq f n = some q) ∧ (q.stopped = false) ∧
      (q.deleting = none) ∧ (q.mode = .doorbell) ∧
      let adv := (p - q.pobs).toNat; let room := (q.ccount + BitVec.ofNat 32 (2 ^ q.log2) - q.pobs).toNat; (room < adv)) ∧
    -- PUSH.
    (∃ (c : Chip) (f n : Nat) (p : Word) (ws : List Word) (q : Wq), (c.wq f n = some q) ∧ (q.stopped = false) ∧
      (q.deleting = none) ∧ (q.mode = .push) ∧
      let d := c.putWq f n (q.buffer 0x04 ws); let adv := (p - q.pobs).toNat; let room := (q.ccount + BitVec.ofNat 32 (2 ^ q.log2) - q.pobs).toNat; (adv = 0)) ∧
    (∃ (c : Chip) (f n : Nat) (p : Word) (ws : List Word) (q : Wq), (c.wq f n = some q) ∧ (q.stopped = false) ∧
      (q.deleting = none) ∧ (q.mode = .push) ∧
      let d := c.putWq f n (q.buffer 0x04 ws); let adv := (p - q.pobs).toNat; let room := (q.ccount + BitVec.ofNat 32 (2 ^ q.log2) - q.pobs).toNat; (room < adv)) :=
  ⟨⟨withQueues.chip, 0, 1, 0, [], doorWq, by decide⟩,
   ⟨withQueues.chip, 0, 1, 16, [], doorWq, by decide⟩,
   ⟨withQueues.chip, 0, 1, 17, [], doorWq, by decide⟩,
   ⟨withQueues.chip, 0, 2, 0, [], pushWq, by decide⟩,
   ⟨withQueues.chip, 0, 2, 17, [], pushWq, by decide⟩⟩

/-- The hypotheses of PhaseFlipsEachLap are met, clause by clause. -/
theorem test_meets_PhaseFlipsEachLap :
    -- From lap to lap.
    (∃ (n : Nat) (c : Word), (n ≤ 16)) ∧
    -- The first lap.
    (∃ (n : Nat) (c : Word), (c.toNat < 2 ^ n)) :=
  ⟨⟨8, 0xFFFFFFFE#32, by decide⟩,
   ⟨8, 0xFF#32, by decide⟩⟩

/-- The hypotheses of AdminChecksInOrder are met, clause by clause. -/
theorem test_meets_AdminChecksInOrder :
    -- Not PF0 for a command of PF0.
    (∃ (c : Chip) (f op : Nat) (d : List Word) (k : List Word → List (Option (Nat × Word))) (g : List Word → Chip →
      Chip), ((c.fn f).aq.running = some d) ∧ ((c.fn f).aq.begun = false) ∧ (bits (dw d 0) 7 0 = op) ∧
      (pf0Only op = true) ∧ (f ≠ 0)) ∧
    -- The first of the others.
    (∃ (c : Chip) (f op : Nat) (d : List Word) (k : List Word → List (Option (Nat × Word))) (g : List Word → Chip →
      Chip) (st : Nat) (w : Word), ((c.fn f).aq.running = some d) ∧ ((c.fn f).aq.begun = false) ∧
      (bits (dw d 0) 7 0 = op) ∧ ((pf0Only op = true → f = 0)) ∧ (c.enteringBars op = false) ∧
      ((k d).findSome? id = some (st, w))) :=
  ⟨⟨(running.chip.updFn 1 fun _ => (carrying2 0x0B []).chip.fn 0), 1, 0x0B, cmd 0x0B, fun _ => [], fun _ c => c, by decide⟩,
   ⟨(carrying2 0x01 []).chip, 0, 0x01, cmd 0x01, fun _ => [some (1, 5)], fun _ c => c, 1, 5, by decide⟩⟩

/-- The hypotheses of SafeStateAnswersTheHost are met, clause by clause. -/
theorem test_meets_SafeStateAnswersTheHost :
    -- Writes.
    (∃ (s : State) (f : Fin 128) (bar4 : Bool) (off : Fin 0x2000000) (len : Fin 4097) (w hi : Word),
      (s.chip.tst.safe = true)) ∧
    -- Reads.
    (∃ (c : Chip) (l : Locks) (t : Otp) (f o : Nat) (bar4 : Bool), (c.tst.safe = true) ∧ (¬ (f = 0 ∧ bar4 = false ∧
      (o = 0x0008 ∨ o / 0x10000 = 0x1B)))) :=
  ⟨⟨safeState, 0, false, 0, 4, 0, 0, by decide⟩,
   ⟨safeState.chip, {}, {}, 0, 0x1A0000, false, by decide⟩⟩

/-- The hypotheses of FaultSettingsAtReset are met, clause by clause. -/
theorem test_meets_FaultSettingsAtReset :
    -- By class of source.
    (∃ (s : State) (k : Nat), (FltSrc.listed k = true)) ∧
    (∃ (s : State) (k : Nat), (FltSrc.listed k = true) ∧ let x := s.deviceReset.chip.fltSrc k; (k < 0x80)) ∧
    (∃ (s : State) (k : Nat), (FltSrc.listed k = true) ∧ let x := s.deviceReset.chip.fltSrc k; (0x80 ≤ k ∧
      k < 0x90)) ∧
    (∃ (s : State) (k : Nat), (FltSrc.listed k = true) ∧ let x := s.deviceReset.chip.fltSrc k; (0x90 ≤ k ∧
      k < 0xA0)) ∧
    (∃ (s : State) (k : Nat), (FltSrc.listed k = true) ∧ let x := s.deviceReset.chip.fltSrc k; (k = 0xA1)) ∧
    (∃ (s : State) (k : Nat), (FltSrc.listed k = true) ∧ let x := s.deviceReset.chip.fltSrc k; (0xB0 ≤ k ∧
      k < 0xD0)) ∧
    (∃ (s : State) (k : Nat), (FltSrc.listed k = true) ∧
      let x := s.deviceReset.chip.fltSrc k; (k = 0xD0 ∨ k = 0x100)) ∧
    (∃ (s : State) (k : Nat), (FltSrc.listed k = true) ∧ let x := s.deviceReset.chip.fltSrc k; (0xE0 ≤ k ∧
      k < 0xF0 ∨ k = 0x190)) ∧
    (∃ (s : State) (k : Nat), (FltSrc.listed k = true) ∧ let x := s.deviceReset.chip.fltSrc k; (0x110 ≤ k ∧
      k < 0x190)) :=
  ⟨⟨running, 16, by decide⟩,
   ⟨running, 127, by decide⟩,
   ⟨running, 143, by decide⟩,
   ⟨running, 159, by decide⟩,
   ⟨running, 161, by decide⟩,
   ⟨running, 207, by decide⟩,
   ⟨running, 256, by decide⟩,
   ⟨running, 239, by decide⟩,
   ⟨running, 384, by decide⟩⟩

/-- The hypotheses of KindSevMakesSevere are met, clause by clause. -/
theorem test_meets_KindSevMakesSevere :
    -- At the first event.
    (∃ (c : Chip) (src : Nat) (m : FltMsg), (c.flt.kindSev m.kind = true)) ∧
    -- The registers.
    (∃ (c : Chip) (l : Locks) (t : Otp) (k : Nat), (k < 32)) ∧
    (∃ (c : Chip) (l : Locks) (t : Otp) (k : Nat), (32 ≤ k) ∧ (k < 64)) ∧
    -- At reset.
    (∃ (k : Nat), (k < 64)) :=
  ⟨⟨State.reset.chip, 0x130, { kind := Kind.retentionLost, addr := 0, rep := 0 }, by decide⟩,
   ⟨State.reset.chip, {}, {}, 31, by decide⟩,
   ⟨State.reset.chip, {}, {}, 63, by decide⟩,
   ⟨63, by decide⟩⟩

/-- The hypotheses of WornSlotIsKept are met, clause by clause. -/
theorem test_meets_WornSlotIsKept :
    -- From the admin queue.
    (∃ (s : State) (payload : List Byte) (d : List Word), (s.up) ∧ (s.carries 0 0x14 d) ∧
      (calLen (bits (dw d 5) 7 0) = some (admLen d)) ∧
      (calBodyOk (bits (dw d 5) 7 0) ((s.chip.fresh.2.hostReadData 0 (admAddr d) (admLen d) payload).take (admLen d)) = true) ∧
      (1000 ≤ (s.chip.calSlot (bits (dw d 5) 7 0)).writes)) ∧
    -- From the service port.
    (∃ (s : State) (m : LnyCmd), (s.asksLny 0x0A m) ∧ (calBodyOk m.arg0.toNat m.data = true) ∧
      (1000 ≤ (s.chip.calSlot m.arg0.toNat).writes)) :=
  ⟨⟨calCmd, calBody, cmd 0x14 calArgs, by decide⟩,
   ⟨calLny, lnyMsg 0x0A 1 0 calBody, by decide⟩⟩

/-- The hypotheses of HomedWindowHoldsWhatIsWritten are met, clause by clause. -/
theorem test_meets_HomedWindowHoldsWhatIsWritten :
    -- Read after write.
    (∃ (c : Chip) (f : Nat) (a : Addr) (bs : List Byte) (h : Home), ((c.fn f).home = some h) ∧
      (h.within a.toNat bs.length = true)) :=
  ⟨windowed, 1, 4092#64, [1, 2, 3, 4], windowHome, by decide⟩

/-- The hypotheses of DebugLockBypasses are met, clause by clause. -/
theorem test_meets_DebugLockBypasses :
    -- Unlocked.
    (∃ (k : Nat), (k < 256)) :=
  ⟨0xFE, by decide⟩

/-- The hypotheses of IdcodeShiftsOut are met, clause by clause. -/
theorem test_meets_IdcodeShiftsOut :
    -- After k bits.
    (∃ (j : Jtag) (l f tdi0 : Bool) (bs : List Bool), (j.tap = .capDr) ∧ (j.ir = 1) ∧ (bs.length ≤ 31)) :=
  ⟨{ tap := .capDr }, false, false, false, [true], by decide⟩

/-- The hypotheses of RegistersReadBack are met, clause by clause. -/
theorem test_meets_RegistersReadBack :
    -- By register.
    (∃ (c : Chip) (t : Otp) (w : Word) (k : _), (k < 16)) :=
  ⟨State.reset.chip, {}, 5, 15, by decide⟩

/-- The hypotheses of LockedRegistersKeep are met, clause by clause. -/
theorem test_meets_LockedRegistersKeep :
    -- By block.
    (∃ (c : Chip) (l : Locks) (t : Otp) (w : Word), (l.flt = true)) ∧
    (∃ (c : Chip) (l : Locks) (t : Otp) (w : Word), (l.evt = true)) ∧
    (∃ (c : Chip) (l : Locks) (t : Otp) (w : Word), (l.sch = true)) ∧
    (∃ (c : Chip) (l : Locks) (t : Otp) (w : Word), (l.grn = true)) ∧
    (∃ (c : Chip) (l : Locks) (t : Otp) (w : Word), (l.dsp = true)) ∧
    (∃ (c : Chip) (l : Locks) (t : Otp) (w : Word), (l.svc = true)) ∧
    (∃ (c : Chip) (l : Locks) (t : Otp) (w : Word), (l.tst = true)) ∧
    (∃ (c : Chip) (l : Locks) (t : Otp) (w : Word), (l.tth = true)) ∧
    (∃ (c : Chip) (l : Locks) (t : Otp) (w : Word), (l.pwr = true)) :=
  ⟨⟨State.reset.chip, { flt := true }, {}, 5, by decide⟩,
   ⟨State.reset.chip, { evt := true }, {}, 5, by decide⟩,
   ⟨State.reset.chip, { sch := true }, {}, 5, by decide⟩,
   ⟨State.reset.chip, { grn := true }, {}, 5, by decide⟩,
   ⟨State.reset.chip, { dsp := true }, {}, 5, by decide⟩,
   ⟨State.reset.chip, { svc := true }, {}, 5, by decide⟩,
   ⟨State.reset.chip, { tst := true }, {}, 5, by decide⟩,
   ⟨State.reset.chip, { tth := true }, {}, 5, by decide⟩,
   ⟨State.reset.chip, { pwr := true }, {}, 5, by decide⟩⟩

end Sys2Proof.Tests
end

section
/-!
SUPPORT. The LOCK bits and what outlives a command: what each command leaves alone beside the chip, what it does to the
LOCK bits, what a device reset keeps; and the host's accesses to register space.
-/
namespace Sys2Proof.Machine

/-! ### What a command answers -/

/-- The outcome is a next state, and that state satisfies `P`. -/
def Answers (o : Host.Outcome State Fault Refusal) (P : State → Prop) : Prop := ∃ t, o = .next t ∧ P t

@[simp] theorem answers_next {t : State} {P : State → Prop} : Answers (.next t) P ↔ P t :=
  ⟨fun ⟨_, e, h⟩ => by cases e; exact h, fun h => ⟨t, rfl, h⟩⟩

/-- A branch on a condition satisfies what both sides do. -/
theorem answers_ite {p : Prop} [Decidable p] {a b : Host.Outcome State Fault Refusal} {P : State → Prop}
    (ha : Answers a P) (hb : Answers b P) : Answers (if p then a else b) P := by
  split
  · exact ha
  · exact hb

/-- What holds of the state answered holds of any next state of the same outcome. -/
theorem Answers.of_next {o : Host.Outcome State Fault Refusal} {P : State → Prop} {t : State} (h : Answers o P)
    (e : o = .next t) : P t :=
  answers_next.1 (e ▸ h)

section
variable {s : State} {P : State → Prop}

/-- A command of the service port has its effect, or changes the chip alone. -/
theorem answers_lnyRun (op : Nat) {g : LnyCmd → State} (h : ∀ c, P { s with chip := c }) (hg : ∀ m, P (g m)) :
    Answers (s.lnyRun op g) P := by
  unfold State.lnyRun
  dsimp only
  split
  · exact answers_next.2 (h s.chip)
  · split
    · exact answers_next.2 (h s.chip)
    · split
      · exact answers_next.2 (h _)
      · exact answers_next.2 (hg _)

theorem answers_lnyChip (op : Nat) (g : LnyCmd → Chip → Chip) (h : ∀ c, P { s with chip := c }) :
    Answers (s.lnyChip op g) P :=
  answers_lnyRun op h fun _ => h _

/-- A command of the Tether has its effect on the state with another chip, or changes the chip alone. -/
theorem answers_tthRun (code : Nat) (pec : Option Bool) (changes : Bool) {g : State → State}
    (h : ∀ c, P { s with chip := c }) (hg : ∀ c, P (g { s with chip := c })) :
    Answers (s.tthRun code pec changes g) P := by
  unfold State.tthRun
  dsimp only
  split
  · exact answers_next.2 (h s.chip)
  · split
    · exact answers_next.2 (h _)
    · split
      · exact answers_next.2 (h _)
      · exact answers_next.2 (hg _)

theorem answers_tthChip (code : Nat) (pec : Option Bool) (changes : Bool) (g : Chip → Chip)
    (h : ∀ c, P { s with chip := c }) : Answers (s.tthChip code pec changes g) P :=
  answers_tthRun code pec changes h fun _ => h _

end

/-! ### The frame of the commands on the chip (R17, R504, R549, R594, R595) -/

/-- The locks, the fuses, the test access port and the queue of commands are the same. -/
def State.sameBeyondChip (s t : State) : Prop :=
  t.locks = s.locks ∧ t.otp = s.otp ∧ t.jtag = s.jtag ∧ t.pending = s.pending

theorem State.sameBeyondChip_chip (s : State) (c : Chip) : s.sameBeyondChip { s with chip := c } := ⟨rfl, rfl, rfl, rfl⟩

theorem execTthFabricTimeout_sameBeyondChip (k : Fin 8) (s : State) :
    Answers (execTthFabricTimeout k s) s.sameBeyondChip := by
  unfold execTthFabricTimeout
  dsimp only
  split
  · exact answers_next.2 (s.sameBeyondChip_chip s.chip)
  · exact answers_tthChip _ _ _ _ s.sameBeyondChip_chip

/-- A command that `beyondChip` does not name changes the chip alone. -/
theorem exec_sameBeyondChip (c : Instr) (s : State) (hb : beyondChip c = false) :
    Answers (exec c s) s.sameBeyondChip := by
  have hc := s.sameBeyondChip_chip
  cases c
  case registerWrite | lnyWrite | tthRegdataWrite | fuseBurnDone | keyHashBurnDone | debugLockBurnDone | tckEdge
      | resetNAssert | powerOn | supplyFall | lnyVbusChange | lnyInToken | lnyReset | tthReset => cases hb
  case resetNRelease => exact answers_next.2 (hc _)
  case lnyRead | lnyHistory | lnyClear | lnyPower | lnyRetry | lnyIdentify | lnyCalExport | lnyCalWrite | lnyImageStage
      | lnyImageApply => delta exec; exact answers_lnyChip _ _ hc
  case tthStatus | tthSelect | tthRegdataRead | tthPower | tthWake | tthRetry | tthClear | tthDoorbell
      | tthMailboxRead => delta exec; exact answers_tthChip _ _ _ _ hc
  case tthFabricTimeout k => exact execTthFabricTimeout_sameBeyondChip k s
  all_goals exact ⟨_, rfl, hc _⟩

/-- Settles O37: each command that `beyondChip` does not name makes a change of the chip, directly or in the service
port's or the Tether's form of a command. -/
theorem otherCommandsLeaveLocksFusesAndTap : Obligations.OtherCommandsLeaveLocksFusesAndTap :=
  fun c s _ hb e => (exec_sameBeyondChip c s hb).of_next e

/-! ### What a write does to the LOCK bits (R17) -/

theorem Locks.within_refl (l : Locks) : l.within l := ⟨id, id, id, id, id, id, id, id, id, id, id⟩

theorem Locks.within_of_eq {l m : Locks} (h : m = l) : l.within m := h ▸ l.within_refl

theorem Locks.within_trans {l m n : Locks} (h : l.within m) (k : m.within n) : l.within n := by
  obtain ⟨h1, h2, h3, h4, h5, h6, h7, h8, h9, h10, h11⟩ := h
  obtain ⟨k1, k2, k3, k4, k5, k6, k7, k8, k9, k10, k11⟩ := k
  exact ⟨k1 ∘ h1, k2 ∘ h2, k3 ∘ h3, k4 ∘ h4, k5 ∘ h5, k6 ∘ h6, k7 ∘ h7, k8 ∘ h8, k9 ∘ h9, k10 ∘ h10, k11 ∘ h11⟩

theorem Locks.within_write (l : Locks) (o : Nat) (w : Word) : l.within (l.write o w) := by
  unfold Locks.write
  split
  · exact l.within_refl
  · split <;> simp [Locks.within]

theorem State.within_bar0Write (s : State) (f o : Nat) (w : Word) : s.locks.within (s.bar0Write f o w).locks := by
  unfold State.bar0Write
  split
  · exact s.locks.within_write o w
  · split <;> exact s.locks.within_refl

theorem State.within_bar0Write_pair (s : State) (f o p : Nat) (w v : Word) :
    s.locks.within ((s.bar0Write f o w).bar0Write f p v).locks :=
  Locks.within_trans (s.within_bar0Write f o w) (State.within_bar0Write _ f p v)

theorem State.within_regWrite (s : State) (f : Nat) (bar4 : Bool) (off len : Nat) (w hi : Word) :
    s.locks.within (s.regWrite f bar4 off len w hi).locks := by
  unfold State.regWrite
  split
  · exact s.locks.within_refl
  split
  · exact s.locks.within_refl
  split
  · exact s.within_bar0Write f off w
  split
  · split
    · exact s.locks.within_refl
    · exact s.within_bar0Write_pair f off (off + 4) w hi
  · exact s.within_bar0Write_pair f off (off + 4) w hi

/-- Every LOCK bit that is set in `s` is set in `t`. -/
def State.locksWithin (s t : State) : Prop := s.locks.within t.locks

theorem execRegisterWrite_locksWithin (f : Fin 128) (bar4 : Bool) (off : Fin 0x2000000) (len : Fin 4097) (w hi : Word)
    (s : State) : Answers (execRegisterWrite f bar4 off len w hi s) s.locksWithin := by
  have keep : ∀ c, s.locksWithin { s with chip := c } := fun _ => s.locks.within_refl
  unfold execRegisterWrite
  refine answers_ite (answers_next.2 (keep s.chip)) (answers_ite (answers_next.2 (keep _)) (answers_ite
    (answers_next.2 (keep s.chip)) (answers_ite (answers_next.2 (keep _)) (answers_next.2 ?_))))
  exact State.within_regWrite { s with chip := s.chip.wakeFabric } f bar4 off len w hi

theorem execLnyWrite_locksWithin (s : State) : Answers (execLnyWrite s) s.locksWithin := by
  have keep : ∀ c, s.locksWithin { s with chip := c } := fun _ => s.locks.within_refl
  refine answers_lnyRun _ keep fun m => ?_
  dsimp only
  split
  · exact keep _
  split
  · exact keep _
  split
  · exact keep _
  · exact State.within_bar0Write { s with chip := s.chip.wakeFabric.lnyDone Ad.success } 0 _ _

theorem execTthRegdataWrite_locksWithin (w : Word) (pec : Option Bool) (s : State) :
    Answers (execTthRegdataWrite w pec s) s.locksWithin := by
  have keep : ∀ c, s.locksWithin { s with chip := c } := fun _ => s.locks.within_refl
  refine answers_tthRun _ _ _ keep fun c => ?_
  dsimp only
  split
  · exact keep _
  split
  · exact keep _
  · exact State.within_bar0Write { s with chip := c.tthEnd Ad.success } 0 _ _

/-! ### The commands that change a fuse or the test access port leave the LOCK bits -/

theorem execFuseBurnDone_locks (s : State) : Answers (execFuseBurnDone s) fun t => t.locks = s.locks := by
  unfold execFuseBurnDone
  split <;> exact answers_next.2 rfl

theorem execKeyHashBurnDone_locks (s : State) : Answers (execKeyHashBurnDone s) fun t => t.locks = s.locks := by
  unfold execKeyHashBurnDone
  split <;> exact answers_next.2 rfl

theorem execDebugLockBurnDone_locks (s : State) : Answers (execDebugLockBurnDone s) fun t => t.locks = s.locks := by
  unfold execDebugLockBurnDone
  split <;> exact answers_next.2 rfl

theorem execTckEdge_locks {rising tms tdi trstN : Bool} {s t : State}
    (e : execTckEdge rising tms tdi trstN s = .next t) : t.locks = s.locks := by
  unfold execTckEdge at e
  split at e
  · cases e; rfl
  split at e
  · cases e; rfl
  split at e
  · cases e
  split at e <;> cases e <;> rfl

/-- A command that is no device reset leaves every LOCK bit that is set. -/
theorem exec_locksWithin {c : Instr} {s t : State} (hr : resetsDevice c = false) (e : exec c s = .next t) :
    s.locksWithin t := by
  cases c
  case registerWrite => exact (execRegisterWrite_locksWithin _ _ _ _ _ _ s).of_next e
  case lnyWrite => exact (execLnyWrite_locksWithin s).of_next e
  case tthRegdataWrite => exact (execTthRegdataWrite_locksWithin _ _ s).of_next e
  case fuseBurnDone => exact Locks.within_of_eq ((execFuseBurnDone_locks s).of_next e)
  case keyHashBurnDone => exact Locks.within_of_eq ((execKeyHashBurnDone_locks s).of_next e)
  case debugLockBurnDone => exact Locks.within_of_eq ((execDebugLockBurnDone_locks s).of_next e)
  case tckEdge => exact Locks.within_of_eq (execTckEdge_locks e)
  case resetNAssert | powerOn | supplyFall | lnyVbusChange | lnyInToken | lnyReset | tthReset => cases hr
  all_goals exact Locks.within_of_eq ((exec_sameBeyondChip _ s rfl).of_next e).1

/-! ### A device reset clears every LOCK bit (R17) -/

/-- The LOCK bits are those of `s`, or none is set. -/
def State.locksKeptOrCleared (s t : State) : Prop := t.locks = s.locks ∨ t.locks = {}

theorem execResetNAssert_locks (n : Fin 65536) (s : State) : Answers (execResetNAssert n s) s.locksKeptOrCleared := by
  unfold execResetNAssert
  split
  · exact answers_next.2 (.inl rfl)
  · dsimp only
    split
    · exact answers_next.2 (.inr rfl)
    · exact answers_next.2 (.inl rfl)

theorem execSupplyFall_locks (r : Rail) (s : State) : Answers (execSupplyFall r s) s.locksKeptOrCleared := by
  unfold execSupplyFall
  split
  · exact answers_next.2 (.inl rfl)
  · exact answers_next.2 (.inr rfl)

/-- A reset that waits for its moment is made at it, or not yet. -/
theorem State.locksKeptOrCleared_ite (s t : State) (b : Bool) (h : t.locks = s.locks) :
    s.locksKeptOrCleared (if b then t.deviceReset else t) := by
  cases b
  · exact .inl h
  · exact .inr rfl

theorem execLnyVbusChange_locks (b : Bool) (s : State) : Answers (execLnyVbusChange b s) s.locksKeptOrCleared := by
  unfold execLnyVbusChange
  repeat' split
  · exact answers_next.2 (.inl rfl)
  · exact answers_next.2 (.inl rfl)
  · exact answers_next.2 (s.locksKeptOrCleared_ite _ _ rfl)

theorem execLnyInToken_locks (ep : Fin 16) (ack : Bool) (s : State) :
    Answers (execLnyInToken ep ack s) s.locksKeptOrCleared := by
  unfold execLnyInToken
  dsimp only
  split
  · exact answers_next.2 (.inl rfl)
  split
  · exact answers_next.2 (.inl rfl)
  split
  · exact answers_next.2 (.inl rfl)
  split
  · exact answers_next.2 (.inl rfl)
  · exact answers_next.2 (s.locksKeptOrCleared_ite _ _ rfl)

theorem execLnyReset_locks (s : State) : Answers (execLnyReset s) s.locksKeptOrCleared := by
  refine answers_lnyRun _ (fun _ => .inl rfl) fun m => ?_
  dsimp only
  split
  · exact .inl rfl
  split
  · exact .inl rfl
  · exact .inr rfl

theorem execTthReset_locks (b : Byte) (pec : Option Bool) (s : State) :
    Answers (execTthReset b pec s) s.locksKeptOrCleared := by
  refine answers_tthRun _ _ _ (fun _ => .inl rfl) fun c => ?_
  dsimp only
  split
  · exact .inr rfl
  · exact .inl rfl

/-- A command that may be a device reset leaves the LOCK bits as they are, or is one, and clears them all. -/
theorem exec_locksKeptOrCleared {c : Instr} {s t : State} (hr : resetsDevice c = true) (e : exec c s = .next t) :
    s.locksKeptOrCleared t := by
  cases c
  case resetNAssert => exact (execResetNAssert_locks _ s).of_next e
  case powerOn => cases e; exact .inr rfl
  case supplyFall => exact (execSupplyFall_locks _ s).of_next e
  case lnyVbusChange => exact (execLnyVbusChange_locks _ s).of_next e
  case lnyInToken => exact (execLnyInToken_locks _ _ s).of_next e
  case lnyReset => exact (execLnyReset_locks s).of_next e
  case tthReset => exact (execTthReset_locks _ _ s).of_next e
  all_goals cases hr

/-- A pulse of RESET_N of 10 always-on cycles is always taken (R612). -/
theorem execResetNAssert_clears {n : Fin 65536} {s t : State} (ho : s.chip.aon.off = false) (hn : 10 ≤ n.val)
    (e : execResetNAssert n s = .next t) : t.locks = {} := by
  have h2 : ¬ n.val < 2 := by omega
  simp only [execResetNAssert, ho, h2, Chip.resetTaken, hn, decide_true, Bool.true_or, Bool.false_eq_true, or_self,
    if_false, if_true, Host.Outcome.next.injEq] at e
  exact e ▸ rfl

/-- A step leaves every LOCK bit that is set, or runs a device reset that clears them all (R17). -/
theorem step_locks {s t : State} (e : step s = .next t) :
    s.locks.within t.locks ∨ (t.locks = {} ∧ ∃ c, s.pending.head? = some c ∧ resetsDevice c = true) := by
  unfold step at e
  split at e
  next => cases e; exact .inl s.locks.within_refl
  next c rest hp =>
    cases hr : resetsDevice c with
    | false => exact .inl (exec_locksWithin (s := { s with pending := rest }) hr e)
    | true =>
      rcases exec_locksKeptOrCleared hr e with h | h
      · exact .inl (Locks.within_of_eq h)
      · exact .inr ⟨h, c, by simp [hp], hr⟩

/-- A write of 1 to the LOCK bit of a block's control register sets it. -/
theorem Locks.write_sets (l : Locks) {w : Word} (h : bit w 31 = true) :
    (l.write 0x040000 w).pwr = true ∧ (l.write 0x050000 w).flt = true ∧
    (l.write 0x060000 w).evt = true ∧ (l.write 0x080000 w).sch = true ∧ (l.write 0x160000 w).grn = true ∧
    (l.write 0x180000 w).dsp = true ∧ (l.write 0x188000 w).svc = true ∧ (l.write 0x1A0000 w).net = true ∧
    (l.write 0x1B0000 w).tst = true ∧ (l.write 0x1C0000 w).cal = true ∧ (l.write 0x1D0000 w).tth = true := by
  simp [Locks.write, h]

/-- Settles O39: a step runs one command, which is a device reset and clears the LOCK bits, or sets some by a write, or
leaves them. -/
theorem lockBitsStaySet : Obligations.LockBitsStaySet :=
  ⟨fun _ _ => step_locks, fun _ => ⟨rfl, rfl, rfl, rfl⟩, fun l _ => l.write_sets, fun _ _ _ => rfl,
    fun _ _ _ _ e => by cases e; rfl, fun _ _ _ => execResetNAssert_clears⟩

/-! ### Rows that run on the chip, by the change they make -/

/-- A command on the chip of a device that is alive makes the change `h` where its effect on that chip is `h`'s. -/
theorem State.run_eq_upd {s : State} {g h : Chip → Chip} (ha : s.alive) (e : g s.chip = h s.chip) :
    s.run g = .next (s.upd h) := by
  rw [State.run_alive ha, State.upd_congr e]

theorem State.live_eq_upd {s : State} {g h : Chip → Chip} (hu : s.up) (e : g s.chip = h s.chip) :
    s.live g = .next (s.upd h) := by
  rw [State.live_up hu, State.upd_congr e]

theorem execDeviceMicroframeEdge_runs {s : State} (hu : s.up) (hm : s.chip.mfnRuns = true) :
    execDeviceMicroframeEdge s =
      .next (s.upd fun c => ({ c with mfn := c.mfn + 1#14 }).tmoTick.svcTimeouts.drainAll.recoverEdge) :=
  State.live_eq_upd hu (if_pos hm)

theorem execCrossingWordReceived_good {s : State} (ha : s.alive) : execCrossingWordReceived .good s = .next s :=
  State.run_eq_upd (h := fun c => c) ha rfl

theorem execCrossingWordReceived_corrected {s : State} (ha : s.alive) :
    execCrossingWordReceived .corrected s = .next (s.upd fun c => c.report 0x190 Kind.correctedSymbol 0) :=
  State.run_eq_upd ha rfl

theorem execCrossingWordReceived_data {s : State} (ha : s.alive) (g : GarnetWord) :
    execCrossingWordReceived (.data g) s = .next (s.upd fun c => c.markPoison (wordOf g)) :=
  State.run_eq_upd ha rfl

theorem execCrossingWordReceived_resend {s : State} (ha : s.alive) (src : Fin 1024) :
    execCrossingWordReceived (.control src false) s = .next (s.upd fun c => c.emit .resend) :=
  State.run_eq_upd ha rfl

/-- A control word that fails twice is reported from the crossing and from the sender's own source (R24, log 13). -/
theorem execCrossingWordReceived_lost {s : State} (ha : s.alive) (src : Fin 1024) :
    execCrossingWordReceived (.control src true) s = .next (s.upd fun c =>
      (c.report 0x190 Kind.uncorrectable 0).report src.val Kind.uncorrectable 0) :=
  State.run_eq_upd ha rfl

theorem execRegisterWrite_decoded {s : State} {f : Fin 128} {bar4 : Bool} {off : Fin 0x2000000} {len : Fin 4097}
    (w hi : Word) (hr : s.chip.hostReach = true) (hs : s.chip.tst.safe = false) (hd : s.chip.decodes f = true)
    (hp : inPadding f (if bar4 then 4 else 0) off = false) (hl : accessOk off len = true) :
    execRegisterWrite f bar4 off len w hi s = .next ((s.upd Chip.wakeFabric).regWrite f bar4 off len w hi) := by
  simp [execRegisterWrite, hr, hs, hd, hp, hl, State.upd]

theorem execRegisterRead_decoded {s : State} {f : Fin 128} {bar4 : Bool} {off : Fin 0x2000000} {len : Fin 4097}
    (ha : s.alive) (hr : s.chip.hostReach = true) (hd : s.chip.decodes f = true)
    (hp : inPadding f (if bar4 then 4 else 0) off = false) (hl : accessOk off len = true) :
    execRegisterRead f bar4 off len s = .next (s.upd fun c => c.wakeFabric.regRead s.locks s.otp f bar4 off len) :=
  State.run_eq_upd ha (by simp [hr, hd, hp, hl])

/-- A write to padding has no effect (R52). -/
theorem execReservedOffsetAccess_paddingWrite {s : State} {f : Fin 128} {off : Fin 0x2000000} {len : Fin 4097}
    (ha : s.alive) (hr : s.chip.hostReach = true) (hd : s.chip.decodes f = true) (hp : inPadding f 0 off = true) :
    execReservedOffsetAccess f 0 off len true s = .next s :=
  State.run_eq_upd (h := fun c => c) ha (by simp [hr, hd, hp, barNum])

/-- A read of padding answers zeros (R52). -/
theorem execReservedOffsetAccess_paddingRead {s : State} {f : Fin 128} {off : Fin 0x2000000} {len : Fin 4097}
    (ha : s.alive) (hr : s.chip.hostReach = true) (hs : s.chip.tst.safe = false) (hd : s.chip.decodes f = true)
    (hp : inPadding f 0 off = true) :
    execReservedOffsetAccess f 0 off len false s =
      .next (s.upd fun c => c.emit (.readData (List.replicate len 0#8))) :=
  State.run_eq_upd ha (by simp [hr, hs, hd, hp, barNum])

/-- An entry in the AER registers homes no function. -/
@[simp] theorem Chip.homed_logAer (c : Chip) (f : Nat) (e : AerErr) (g : Nat) : (c.logAer f e).homed g = c.homed g := by
  unfold Chip.homed Chip.logAer
  by_cases h : g = f
  · subst h
    rw [Chip.updFn_same]
  · rw [Chip.updFn_ne _ _ h]

theorem execBar2WriteRefused_logged {s : State} {f : Fin 128} {off : Fin 16384} {len : Fin 4097} (hu : s.up)
    (hf : s.chip.fnExists f = true) (hh : s.chip.homed f = false) (ha : bar2Accepted off len = false)
    (hr : bar2Reserved off len = false) (hl : len.val ≠ 0) :
    execBar2WriteRefused f off len s =
      .next (s.upd fun c => (c.logAer f .unsupportedRequest).each (bar2Slots off len) fun c n => c.countDbign f n) :=
  State.live_eq_upd hu (by simp [hf, hh, ha, hr, hl])

theorem execUndecodedVfAccess_logged {s : State} {n : Fin 128} (write : Bool) (ha : s.alive) (hn : n.val ≠ 0)
    (hv : s.chip.pci.vfEnable = false ∨ s.chip.pci.vfMse = false ∨ s.chip.pci.numVfs < n.val) :
    execUndecodedVfAccess n write s = .next (s.upd fun c => c.undecoded write) := by
  have hno : ¬ (n.val = 0 ∨ (s.chip.pci.vfEnable ∧ s.chip.pci.vfMse ∧ n.val ≤ s.chip.pci.numVfs)) := by
    rintro (h | ⟨h1, h2, h3⟩)
    · exact hn h
    · rcases hv with h | h | h
      · simp [h] at h1
      · simp [h] at h2
      · omega
  exact State.run_eq_upd ha (if_neg hno)

theorem execHostReadFailed_up {s : State} (hu : s.up) (f : Fin 128) (r : ReadFor) (e : ReadFailure) :
    execHostReadFailed f r e s = .next (s.upd fun c =>
      ((c.logAer f (readFailureAer e)).report 0x100 (readFailureKind e) f).readFailed f r (e == .poisoned)) :=
  State.live_up hu

theorem execHostReadCompletionTimeout_up {s : State} (hu : s.up) (f : Fin 128) (r : ReadFor) :
    execHostReadCompletionTimeout f r s = .next (s.upd fun c =>
      ((c.logAer f .completionTimeout).report 0x100 Kind.timeout f).readFailed f r false) :=
  State.live_up hu

/-- Settles O1, one row after another. -/
theorem hostRegisterAccessesComplete : Obligations.HostRegisterAccessesComplete := by
  refine ⟨fun _ => execDeviceMicroframeEdge_runs, fun s ha => ?_, fun _ _ _ _ _ w hi => execRegisterWrite_decoded w hi,
    fun _ _ _ _ _ => execRegisterRead_decoded, fun _ _ _ _ ha hr hs hd hp => ?_,
    fun _ _ _ _ => execBar2WriteRefused_logged, fun _ _ ha hn hv => ?_, fun _ f r e hu => ?_⟩
  · exact ⟨execCrossingWordReceived_good ha, execCrossingWordReceived_corrected ha, execCrossingWordReceived_data ha,
      fun src => ⟨execCrossingWordReceived_resend ha src, execCrossingWordReceived_lost ha src⟩⟩
  · exact ⟨execReservedOffsetAccess_paddingWrite ha hr hd hp, execReservedOffsetAccess_paddingRead ha hr hs hd hp⟩
  · exact ⟨execUndecodedVfAccess_logged true ha hn hv, execUndecodedVfAccess_logged false ha hn hv⟩
  · exact ⟨execHostReadFailed_up hu f r e, execHostReadCompletionTimeout_up hu f r⟩

/-! ### The state right after reset (R17, R594) -/

/-- The test access port as it is at power-on is as R594 has it, whether the debug lock is burned or not. -/
theorem Jtag.legal_default (locked : Bool) : ({} : Jtag).legal locked := by
  cases locked <;> decide

/-- Settles O42. -/
theorem resetStateHoldsTheInvariants : Obligations.ResetStateHoldsTheInvariants :=
  ⟨rfl, Jtag.legal_default false, rfl, rfl⟩

/-! ### What a device reset keeps (R17, R489, R517, R536, R591, R593; log 192) -/

/-- What outlives a device reset; the level of VBUS, which is kept too, touches only shared source 38. -/
theorem Chip.deviceReset_keeps (c : Chip) :
    c.deviceReset.hist = c.hist ∧ c.deviceReset.cal.slots = c.cal.slots ∧ c.deviceReset.tst.count = c.tst.count ∧
    c.deviceReset.tth.strap = c.tth.strap := by
  unfold Chip.deviceReset
  split <;> simp

/-- The blocks that a device reset takes back to their state at reset. -/
theorem Chip.deviceReset_clears (c : Chip) :
    c.deviceReset.pwr = {} ∧ c.deviceReset.sch = {} ∧ c.deviceReset.grn = {} ∧ c.deviceReset.dsp = {} ∧
    c.deviceReset.svc = {} ∧ c.deviceReset.net = {} ∧ c.deviceReset.flt = {} ∧ c.deviceReset.fns = [] ∧
    c.deviceReset.wqs = [] ∧ c.deviceReset.cqs = [] ∧ c.deviceReset.mfn = 0 := by
  unfold Chip.deviceReset
  split <;> simp

/-- Settles O52: the state around the chip by its definition, the chip by the two lemmas on its reset. -/
theorem deviceResetKeeps : Obligations.DeviceResetKeeps :=
  ⟨fun s => ⟨rfl, rfl, rfl, rfl, s.chip.deviceReset_keeps⟩, fun s => s.chip.deviceReset_clears⟩

/-! ### A locked block's registers (R15, R17) -/

section
variable {l : Locks} (c : Chip) (t : Otp) (w : Word)

theorem Chip.fltWrite_locked (h : l.flt = true) : c.fltWrite l 0x08 w = c ∧ c.fltWrite l 0x0C w = c :=
  ⟨if_pos h, if_pos h⟩

theorem Chip.evshWrite_locked (h : l.evt = true) : c.evshWrite l 0 w = c := if_pos h

theorem Chip.schWrite_locked (h : l.sch = true) : c.schWrite l 0x00 w = c := if_pos h

theorem Chip.grnWrite_locked (h : l.grn = true) : c.grnWrite l 0x00 w = c ∧ c.grnWrite l 0x2C w = c :=
  ⟨if_pos h, if_pos h⟩

theorem Chip.dspWrite_locked (h : l.dsp = true) : c.dspWrite l 0x0000 w = c := if_pos h

theorem Chip.svcWrite_locked (h : l.svc = true) : c.dspWrite l 0x8000 w = c := if_pos h

theorem Chip.tstWrite_locked (h : l.tst = true) : c.tstWrite l t 0x30 w = c := if_pos (.inl h)

theorem Chip.tthWrite_locked (h : l.tth = true) : c.tthWrite l 0x0000 w = c ∧ c.tthWrite l 0x1000 w = c :=
  ⟨if_pos h, if_pos h⟩

theorem Chip.pwrWrite_locked (h : l.pwr = true) : c.pwrWrite l 0x08 w = c := if_pos h

end

/-- Settles O60: the offset names the block, whose write is guarded by its LOCK bit. -/
theorem lockedRegistersKeep : Obligations.LockedRegistersKeep := fun c _ t w =>
  ⟨c.fltWrite_locked w, c.evshWrite_locked w, c.schWrite_locked w, c.grnWrite_locked w, c.dspWrite_locked w,
    c.svcWrite_locked w, c.tstWrite_locked t w, c.tthWrite_locked w, c.pwrWrite_locked w⟩

end Sys2Proof.Machine
end

section
/-!
SUPPORT. The registers of PF0: GBL_ID, which reads the same in every state, and what the others read at reset.
-/
namespace Sys2Proof.Machine

/-! ### GBL_ID (R43) -/

/-- A read of function 0 returns the register of the block at the offset (R37). -/
@[simp] theorem Chip.bar0Read_pf (c : Chip) (l : Locks) (t : Otp) (o : Nat) : (c.bar0Read l t 0 o).1 = c.pfVal l t o :=
  rfl

theorem Chip.pfVal_gblId (c : Chip) (l : Locks) (t : Otp) : c.pfVal l t 0x0000 = 0x1F9D8002#32 := rfl

theorem Chip.pfWrite_gblId (c : Chip) (l : Locks) (t : Otp) (w : Word) : c.pfWrite l t 0x0000 w = c := rfl

/-- GBL_ID has no LOCK bit. -/
theorem Locks.write_gblId (l : Locks) (w : Word) : l.write 0x0000 w = l := ite_self l

theorem State.bar0Write_gblId (s : State) (w : Word) : s.bar0Write 0 0x0000 w = s := by
  simp [State.bar0Write, Chip.pfWrite_gblId, Locks.write_gblId]

/-- Settles O44: the word that GBL_ID reads is a constant, and neither the chip nor the locks take a write of it. -/
theorem gblIdReads : Obligations.GblIdReads := by
  refine ⟨fun c l t => ?_, State.bar0Write_gblId⟩
  rw [Chip.bar0Read_pf, Chip.pfVal_gblId]
  decide

/-! ### The registers at reset -/

/-- Settles O43: each register listed is evaluated on the one state right after reset. -/
theorem resetValuesRead : Obligations.ResetValuesRead := by
  unfold Obligations.ResetValuesRead
  simp only [Chip.bar0Read_pf]
  decide

end Sys2Proof.Machine
end

section
/-!
SUPPORT. The rows of the PCIe functions: VF Enable, NumVFs, the resets of functions and of the link, and the writes of
configuration space.
-/
namespace Sys2Proof.Machine

variable {s : State}

/-- NumVFs takes a value up to 127 while VF Enable is 0 (R55). -/
theorem execNumvfsWrite_vfsOff (w : Fin 65536) (ha : s.alive) (hv : s.chip.pci.vfEnable = false) :
    execNumvfsWrite w s =
      .next (s.upd fun c => if w.val ≤ 127 then { c with pci := { c.pci with numVfs := w } } else c) := by
  refine State.run_eq_upd ha ?_
  by_cases hw : w.val ≤ 127
  · have hn : ¬ 127 < w.val := by omega
    simp [hv, hw, hn]
  · have hn : 127 < w.val := by omega
    simp [hw, hn]

theorem execVfFlr_exists {f : Fin 128} (ha : s.alive) (h0 : f.val ≠ 0) (hf : s.chip.fnExists f = true) :
    execVfFlr f s = .next (s.upd fun c => c.flr f) :=
  State.run_eq_upd ha (if_pos ⟨h0, hf⟩)

theorem execConventionalReset_runs (ha : s.alive) (hp : s.chip.pwr.st = .active ∨ s.chip.pwr.st = .doze) :
    execConventionalReset s = .next (s.upd Chip.conventional) :=
  State.run_eq_upd ha (if_pos hp)

theorem execFlrComplete_alive (f : Fin 128) (ha : s.alive) :
    execFlrComplete f s = .next (s.upd fun c => c.updFn f fun x => { x with transPend := false }) :=
  State.run_alive ha

/-- A FUNCTION_RESET or NET_UNHOME command of PF0 waits for the end of the reset of `f` (R73, R406). -/
def Chip.resetAwaited (c : Chip) (f : Nat) : Bool :=
  (c.adminWaits 0 0x0B).any (fun e => bits (dw e 5) 6 0 == f) || (c.adminWaits 0 0x10).any (fun e => bits (dw e 5) 6 0 == f)

/-- The end of a function reset that runs (R73). -/
theorem execFunctionResetComplete_resetting {f : Fin 128} (ha : s.alive) (hr : (s.chip.fn f).resetting = true) :
    execFunctionResetComplete f s = .next (s.upd fun c =>
      let d := (c.updFn f fun x => { x with resetting := false, resetDone := true }).raise f 21
      if d.resetAwaited f then d.adminDone 0 Ad.success else d) :=
  State.run_eq_upd ha (if_neg (by simp [hr]))

theorem execBusMasterEnableWrite_exists {f : Fin 128} (b : Bool) (ha : s.alive) (hf : s.chip.fnExists f = true) :
    execBusMasterEnableWrite f b s =
      .next (s.upd fun c => c.dmaChange fun c => c.updFn f fun x => { x with bme := b }) :=
  State.run_eq_upd ha (if_pos hf)

theorem execMsixControlWrite_exists {f : Fin 128} (b m : Bool) (ha : s.alive) (hf : s.chip.fnExists f = true) :
    execMsixControlWrite f b m s =
      .next (s.upd fun c => (c.updFn f fun x => { x with msixEn := b, fmask := m }).holdsEnd f) :=
  State.run_eq_upd ha (if_pos hf)

theorem execPmStateWrite_alive (d3 : Bool) (ha : s.alive) :
    execPmStateWrite d3 s = .next (s.upd fun c => ({ c with pci := { c.pci with d3hot := d3 } }).allHoldsEnd) :=
  State.run_alive ha

theorem execMsixEntryWrite_alive (f : Fin 128) (v : Fin 64) (k : Fin 4) (w : Word) (ha : s.alive) :
    execMsixEntryWrite f v k w s = .next (s.upd fun c => c.msixPut f v k w) :=
  State.run_alive ha

/-- Settles O2, one row after another. -/
theorem functionRowsComplete : Obligations.FunctionRowsComplete :=
  ⟨fun _ ha => ⟨State.run_alive ha, State.run_alive ha, State.run_alive ha⟩,
    fun _ w => execNumvfsWrite_vfsOff w, fun _ _ => execVfFlr_exists, fun _ => execConventionalReset_runs,
    fun _ f => execFlrComplete_alive f, fun _ _ => execFunctionResetComplete_resetting,
    fun _ _ b m ha hf => ⟨execBusMasterEnableWrite_exists b ha hf, execMsixControlWrite_exists b m ha hf⟩,
    fun _ f v k w d3 ha => ⟨execPmStateWrite_alive d3 ha, execMsixEntryWrite_alive f v k w ha⟩⟩

end Sys2Proof.Machine
end

section
/-!
SUPPORT. The admin commands on services, ports and functions whose checks all pass (R425).
-/
namespace Sys2Proof.Machine

/-! ### Checks that pass -/

@[simp] theorem badParam_eq_none {b : Bool} {off lo : Nat} : badParam b off lo = none ↔ b = false := by
  cases b <;> simp [badParam]
@[simp] theorem denied_eq_none {b : Bool} : denied b = none ↔ b = false := by cases b <;> simp [denied]
@[simp] theorem lacking_eq_none {b : Bool} : lacking b = none ↔ b = false := by cases b <;> simp [lacking]
@[simp] theorem badState_eq_none {b : Bool} : badState b = none ↔ b = false := by cases b <;> simp [badState]

variable {s : State} {d : List Word}

section
variable {f op : Nat} {checks : Chip → List Word → List (Option (Nat × Word))} {e : Chip → List Word → Chip → Chip}

/-- The row of a command each of whose checks passes (R425). -/
theorem State.live_admin_passes (hu : s.up) (hc : s.carries f op d) (hp : ∀ x ∈ checks s.chip d, x = none) :
    (s.live fun c => c.admin f op (checks c) (e c)) = .next (s.upd fun c => e c d c) :=
  State.live_admin hu hc (List.findSome?_eq_none_iff.2 hp)

/-- It makes the change `h` where its effect on this chip is `h`'s. -/
theorem State.live_admin_eq {h : Chip → Chip} (hu : s.up) (hc : s.carries f op d)
    (hp : ∀ x ∈ checks s.chip d, x = none) (he : e s.chip d s.chip = h s.chip) :
    (s.live fun c => c.admin f op (checks c) (e c)) = .next (s.upd h) :=
  (State.live_admin_passes hu hc hp).trans (congrArg _ (State.upd_congr he))

end

/-! ### Services (R332, R335) -/

/-- A service with its flows begins to bind at the free handle `k`, and the command of `f` waits for it (R332). -/
def Chip.bindBegins (c : Chip) (f k : Nat) (v : Svc) (p h : Nat) (d : List Word) : Chip :=
  let e := (c.adminBegun f).newInst k f v p h (bits (dw d 5) 15 8) (c.bindKib d)
  (e.makeFlows k v (e.slotsOf (bits (dw d 6) 15 0) (bits (dw d 5) 15 8))).bindRun k

/-- The buffer that the command asks for is one that R332 allows, and there is room for it and for the flows. -/
def Chip.bindFits (c : Chip) (v : Svc) (d : List Word) : Prop :=
  (bits (dw d 7) 6 0 = 0 ∨ 4 ≤ bits (dw d 7) 6 0 ∧ bits (dw d 7) 6 0 ≤ 64) ∧
  c.flowsInUse + (svcFlows v (c.slotsOf (bits (dw d 6) 15 0) (bits (dw d 5) 15 8))).1 ≤ 16384 ∧ c.bindKib d ≤ c.bufFree

/-- With a handle free, the checks of what a bind takes pass. -/
theorem Chip.bindFits_checks {c : Chip} {v : Svc} {k : Nat} (hk : c.freeInstHandle = some k) (hf : c.bindFits v d) :
    ∀ x ∈ ([badParam (bits (dw d 7) 6 0 != 0 && (bits (dw d 7) 6 0 < 4 || 64 < bits (dw d 7) 6 0)) 0x1C 0,
      lacking (16384 < c.flowsInUse + (svcFlows v (c.slotsOf (bits (dw d 6) 15 0) (bits (dw d 5) 15 8))).1 ||
        c.freeInstHandle.isNone || c.bufFree < c.bindKib d)] : List (Option (Nat × Word))), x = none := by
  obtain ⟨hs, hn, hb⟩ := hf
  simpa [hk, hn, hb] using hs.resolve_left

/-- BIND_SERVICE of a service on an interface, whatever the field of the root port holds (log 36). -/
theorem execBindService_interface {f : Fin 128} {v : Svc} {k : Nat} (hu : s.up) (hc : s.carries f 0x08 d)
    (hv : svcOf (bits (dw d 5) 7 0) = some v) (hh : v ≠ .hlth) (hk : s.chip.freeInstHandle = some k)
    (hi : (s.chip.bindIfChecks f (some v) (bits (dw d 6) 15 0) (bits (dw d 5) 15 8)).findSome? id = none)
    (hf : s.chip.bindFits v d) :
    execBindService f s = .next (s.upd fun c =>
      c.bindBegins f k v ((c.devPort (bits (dw d 6) 15 0)).getD 0) (bits (dw d 6) 15 0) d) := by
  refine State.live_admin_eq hu hc ?_ ?_
  · simp only [hv, Option.some.injEq, hh, if_false, Option.getD_some]
    exact List.forall_mem_append.2 ⟨List.findSome?_eq_none_iff.1 hi, Chip.bindFits_checks hk hf⟩
  · simp [hv, hk, hh, Chip.bindBegins]

/-- BIND_SERVICE of HLTH, which watches a root port. -/
theorem execBindService_health {f : Fin 128} {k : Nat} (hu : s.up) (hc : s.carries f 0x08 d)
    (hv : svcOf (bits (dw d 5) 7 0) = some .hlth) (hk : s.chip.freeInstHandle = some k)
    (ho : s.chip.ownerOf (bits (dw d 5) 22 16) = f.val)
    (hw : (s.chip.insts.any fun e => e.2.svc == .hlth && e.2.port == bits (dw d 5) 22 16 && e.2.st != .detached) = false)
    (hn : bits (dw d 6) 15 0 = 0xFFFF) (hf : s.chip.bindFits .hlth d) :
    execBindService f s = .next (s.upd fun c => c.bindBegins f k .hlth (bits (dw d 5) 22 16) 0xFFFF d) := by
  refine State.live_admin_eq hu hc ?_ ?_
  · simp only [hv, if_true, Option.getD_some]
    exact List.forall_mem_append.2 ⟨by simp [ho, hw, hn], Chip.bindFits_checks hk hf⟩
  · simp [hv, hk, Chip.bindBegins]

/-- UNBIND_SERVICE of a service that neither binds nor unbinds (R335). -/
theorem execUnbindService_runs {f : Fin 128} {i : Inst} (hu : s.up) (hc : s.carries f 0x09 d)
    (ho : s.chip.instOwner (bits (dw d 5) 11 0) = some f.val) (hi : s.chip.inst (bits (dw d 5) 11 0) = some i)
    (he : i.svc ≠ .enum) (hb : i.st ≠ .binding) (hl : i.st ≠ .closing) :
    execUnbindService f s = .next (s.upd fun c => c.unbind f (bits (dw d 5) 11 0)) :=
  State.live_admin_passes hu hc (by simp [ho, hi, he, hb, hl])

/-! ### Ports and functions (R66, R73, R105, R202, R447) -/

/-- PORT_CONTROL of an owned port: the command of PRT_CTRL, answered with PRT_STATUS (R202). -/
theorem execPortControl_owned {f : Fin 128} (hu : s.up) (hc : s.carries f 0x0A d)
    (ho : s.chip.ownerOf (bits (dw d 5) 6 0) = f.val) (hk : 1 ≤ bits (dw d 5) 11 8 ∧ bits (dw d 5) 11 8 ≤ 3) :
    execPortControl f s = .next (s.upd fun c =>
      let r := c.portTry (bits (dw d 5) 6 0) (bits (dw d 5) 11 8)
      r.1.adminDone f (if r.2 then Ad.badState else Ad.success) 0#32 [r.1.prtStatus (bits (dw d 5) 6 0)]) :=
  State.live_admin_passes hu hc (by simp [ho, Nat.one_le_iff_ne_zero.1 hk.1, hk.2])

theorem execFunctionReset_exists (hu : s.up) (hc : s.carries 0 0x0B d) (h0 : bits (dw d 5) 6 0 ≠ 0)
    (hf : s.chip.fnExists (bits (dw d 5) 6 0) = true) :
    execFunctionReset s = .next (s.upd fun c => (c.adminBegun 0).fnReset (bits (dw d 5) 6 0)) :=
  State.live_admin_passes hu hc (by simp [h0, hf])

theorem execSetFnArb_exists (hu : s.up) (hc : s.carries 0 0x0C d) (hf : s.chip.fnExists (bits (dw d 5) 6 0) = true)
    (hw : bits (dw d 5) 15 8 ≠ 0) (hb : bits (dw d 5) 21 16 ≠ 0) :
    execSetFnArb s = .next (s.upd fun c => (c.updFn (bits (dw d 5) 6 0) fun x =>
      { x with nextArb := some (bits (dw d 5) 15 8, bits (dw d 5) 21 16) }).adminDone 0 Ad.success) :=
  State.live_admin_passes hu hc (by simp [hf, hw, hb])

theorem execReshape_acceptable (hu : s.up) (hc : s.carries 0 0x0D d) (hb : s.chip.reshapeBad d = none) :
    execReshape s = .next (s.upd fun c => c.reshape d) :=
  State.live_admin_passes hu hc (by simp [hb])

theorem execPowerState_allowed (hu : s.up) (hc : s.carries 0 0x0E d)
    (hs : 1 ≤ bits (dw d 5) 2 0 ∧ bits (dw d 5) 2 0 ≤ 5)
    (hr : s.chip.powerRefused (bits (dw d 5) 2 0) (bits (dw d 5) 11 8) = false) :
    execPowerState s = .next (s.upd fun c =>
      (c.adminBegun 0).powerStart .admin (bits (dw d 5) 2 0) (bits (dw d 5) 11 8)) :=
  State.live_admin_passes hu hc (by simp [hr, Nat.one_le_iff_ne_zero.1 hs.1, hs.2])

/-! ### Homed functions (R403, R406) -/

/-- A function may be homed: a virtual function without a home or a queue, while fewer than 32 are homed (R403). -/
def Chip.homable (c : Chip) (f : Nat) : Prop :=
  f ≠ 0 ∧ c.fnExists f = true ∧ c.homed f = false ∧ (c.fn f).aq.enable = false ∧ c.wqNums f = [] ∧ c.cqNums f = [] ∧
  (c.fns.filter fun e => e.2.home.isSome).length < 32

/-- A ring of `2 ^ e` entries of 64 bytes at the page of `w` lies in a window of `n` pages (R403). -/
def ringFits (w : Word) (e n : Nat) : Prop :=
  (4 ≤ e ∧ e ≤ 16) ∧ w.toNat % 4096 = 0 ∧ w.toNat + 64 * 2 ^ e ≤ n * 4096

theorem execNetHome_homable (hu : s.up) (hc : s.carries 0 0x0F d) (hf : s.chip.homable (bits (dw d 5) 6 0))
    (hv : (s.chip.assoc (bits (dw d 5) 12 8)).valid = true) (ha : (s.chip.assoc (bits (dw d 5) 12 8)).fn = none)
    (hn : 1 ≤ bits (dw d 6) 12 0 ∧ bits (dw d 6) 12 0 ≤ 4096)
    (hs : ringFits (dw d 7) (bits (dw d 9) 4 0) (bits (dw d 6) 12 0))
    (hq : ringFits (dw d 8) (bits (dw d 9) 12 8) (bits (dw d 6) 12 0))
    (hl : s.chip.tst.netFail = false) (hp : bits (dw d 6) 12 0 ≤ s.chip.homePages) :
    execNetHome s = .next (s.upd fun c => (c.netHome d).adminDone 0 Ad.success) := by
  obtain ⟨h0, hx, hh, he, hw, hcq, h32⟩ := hf
  obtain ⟨hse, hsa, hsw⟩ := hs
  obtain ⟨hqe, hqa, hqw⟩ := hq
  refine State.live_admin_passes hu hc ?_
  simp [h0, hx, hh, he, hw, hcq, h32, hv, ha, Nat.one_le_iff_ne_zero.1 hn.1, hn.2, hse, hsa, hsw, hqe, hqa, hqw, hl, hp]

/-- NET_UNHOME takes the window away at the command, while the function's reset runs (log 43). -/
theorem execNetUnhome_homed (hu : s.up) (hc : s.carries 0 0x10 d) (hh : s.chip.homed (bits (dw d 5) 6 0) = true) :
    execNetUnhome s = .next (s.upd fun c =>
      ((c.adminBegun 0).fnReset (bits (dw d 5) 6 0)).unhome (bits (dw d 5) 6 0)) :=
  State.live_admin_passes hu hc (by simp [hh])

/-- Settles O5, one command after another. -/
theorem serviceAndFunctionCommandsComplete : Obligations.ServiceAndFunctionCommandsComplete :=
  ⟨fun _ _ _ _ _ hu hc hv hh hk hi hs hn hb => execBindService_interface hu hc hv hh hk hi ⟨hs, hn, hb⟩,
    fun _ _ _ _ hu hc hv hk ho hw hx hs hn hb => execBindService_health hu hc hv hk ho hw hx ⟨hs, hn, hb⟩,
    fun _ _ _ _ => execUnbindService_runs, fun _ _ _ => execPortControl_owned, fun _ _ => execFunctionReset_exists,
    fun _ _ => execSetFnArb_exists, fun _ _ => execReshape_acceptable, fun _ _ => execPowerState_allowed,
    fun _ _ hu hc h0 hx hh he hw hq h32 hv ha hn hse hqe hs ht hl hp =>
      execNetHome_homable hu hc ⟨h0, hx, hh, he, hw, hq, h32⟩ hv ha hn ⟨hse, hs⟩ ⟨hqe, ht⟩ hl hp,
    fun _ _ => execNetUnhome_homed⟩

end Sys2Proof.Machine
end

section
/-!
SUPPORT. The burns of the fuses and the steps of a reshape.
-/
namespace Sys2Proof.Machine

variable {s : State}

/-! ### The burns (R504, R549, R595; logs 185 to 187) -/

/-- A burn of the repair fuses that nothing bars starts, or finds too few records free (R504). -/
theorem execFuseBurn_unbarred {w : Word} (hu : s.up) (hl : s.locks.tst = false) (hk : bits w 31 24 = 0xA5)
    (hs : bit w 0 = true) (hb : s.chip.tst.fuseBusy = false) (ha : s.chip.burnable = true) :
    execFuseBurn w s = .next (s.upd fun c =>
      if 256 < s.otp.used + c.tst.unburnt then { c with tst := { c.tst with fuseErr := true } }
      else { c with tst := { c.tst with fuseBusy := true } }) :=
  State.live_eq_upd hu (if_neg (by simp [hl, hk, hs, hb, ha]))

theorem execFuseBurnDone_busy (ha : s.alive) (hb : s.chip.tst.fuseBusy = true) :
    execFuseBurnDone s = .next { s with
      otp := { s.otp with used := s.otp.used + s.chip.tst.unburnt }
      chip := { s.chip with tst := { s.chip.tst with fuseBusy := false, sramBurnt := s.chip.tst.sramSoft } } } :=
  if_neg (by simp [ha, hb])

/-- PROG takes the hash that is staged and starts its burn, or sets ERR (R549, logs 186 and 187). -/
theorem execKeyHashProg_prog {w : Word} (hu : s.up) (hp : bit w 0 = true) :
    execKeyHashProg w s = .next (s.upd fun c =>
      let d := { c with boot := { c.boot with keyErr := c.boot.keyErr && !bit w 1 } }
      if bits w 31 24 ≠ 0xC3 ∨ c.boot.keyBusy = true ∨ s.otp.keyHash.isSome = true ∨ c.burnable = false then
        { d with boot := { d.boot with keyErr := true } }
      else { d with boot := { d.boot with
        keyBusy := true
        keyBurn := (List.range 8).map (Tab.get (fun _ => 0#32) c.boot.keyStage) } }) :=
  State.live_eq_upd hu (by simp [Chip.keyCtl, Chip.burnable, hp])

theorem execKeyHashBurnDone_busy (ha : s.alive) (hb : s.chip.boot.keyBusy = true) :
    execKeyHashBurnDone s = .next { s with
      otp := { s.otp with keyHash := s.otp.keyHash.or (some s.chip.boot.keyBurn) }
      chip := { s.chip with boot := { s.chip.boot with keyBusy := false, keyBurn := [] } } } :=
  if_neg (by simp [ha, hb])

/-- BURN starts the burn of the debug lock, or sets ERR (R595, log 187). -/
theorem execDebugLockBurn_burn {w : Word} (hu : s.up) (hp : bit w 0 = true) :
    execDebugLockBurn w s = .next (s.upd fun c =>
      let d := { c with aon := { c.aon with dbgErr := c.aon.dbgErr && !bit w 3 } }
      if bits w 31 24 ≠ 0x96 ∨ c.aon.dbgBusy = true ∨ s.otp.dbgLock = true ∨ c.burnable = false then
        { d with aon := { d.aon with dbgErr := true } }
      else { d with aon := { d.aon with dbgBusy := true } }) :=
  State.live_eq_upd hu (by simp [Chip.dbgCtl, Chip.burnable, hp])

theorem execDebugLockBurnDone_busy (ha : s.alive) (hb : s.chip.aon.dbgBusy = true) :
    execDebugLockBurnDone s = .next { s with
      otp := { s.otp with dbgLock := true }
      jtag := {}
      chip := { s.chip with aon := { s.chip.aon with dbgBusy := false } } } :=
  if_neg (by simp [ha, hb])

/-! ### The steps of a reshape (R68)

Each judges its own conditions on the chip: on a device that is alive its row runs it, whether they hold or not. -/

theorem execReshapeAcceptance_alive (i : Fin 65536) (ha : s.alive) :
    execReshapeAcceptance i s = .next (s.upd fun c => c.reshapeAccept i) :=
  State.run_alive ha

theorem execPortMoveCut_alive (p : Fin 128) (ha : s.alive) :
    execPortMoveCut p s = .next (s.upd fun c => c.moveCut p) :=
  State.run_alive ha

theorem execPortMoveHandover_alive (p : Fin 128) (ha : s.alive) :
    execPortMoveHandover p s = .next (s.upd fun c => c.handover p) :=
  State.run_alive ha

/-- Settles O29, the burns first and then the steps of a reshape, whose rows need no more than a device that is alive. -/
theorem burnAndReshapeRowsComplete : Obligations.BurnAndReshapeRowsComplete :=
  ⟨fun _ _ => execFuseBurn_unbarred, fun _ => execFuseBurnDone_busy, fun _ _ => execKeyHashProg_prog,
    fun _ => execKeyHashBurnDone_busy, fun _ _ => execDebugLockBurn_burn, fun _ => execDebugLockBurnDone_busy,
    fun _ i _ ha _ _ _ _ _ _ => execReshapeAcceptance_alive i ha, fun _ p _ _ ha _ _ _ => execPortMoveCut_alive p ha,
    fun _ p _ ha _ _ _ => execPortMoveHandover_alive p ha⟩

end Sys2Proof.Machine
end

section
/-!
SUPPORT. The counts of a ring and what a producer count does; the rows of the doorbells, the polls and the rings; and
the admin commands on queues and channels whose checks all pass (R425).
-/
namespace Sys2Proof.Machine

/-! ### A lap of the ring (R85 to R87) -/

/-- A word that wraps keeps each bit below its width. -/
theorem wrapped_div_two_pow_mod_two {n : Nat} (hn : n < 32) (k : Nat) : k % 2 ^ 32 / 2 ^ n % 2 = k / 2 ^ n % 2 := by
  have hd : 2 ^ n * 2 ∣ 2 ^ 32 := pow_dvd_pow 2 hn
  rw [← Nat.mod_mul_right_div_self, Nat.mod_mod_of_dvd k hd, Nat.mod_mul_right_div_self]

theorem toNat_add_two_pow {n : Nat} (hn : n < 32) (c : Word) :
    (c + BitVec.ofNat 32 (2 ^ n)).toNat = (c.toNat + 2 ^ n) % 2 ^ 32 := by
  rw [BitVec.toNat_add, BitVec.toNat_ofNat, Nat.mod_eq_of_lt (Nat.pow_lt_pow_right one_lt_two hn)]

theorem slotOf_nextLap {n : Nat} (hn : n < 32) (c : Word) : slotOf n (c + BitVec.ofNat 32 (2 ^ n)) = slotOf n c := by
  unfold slotOf
  rw [toNat_add_two_pow hn, Nat.mod_mod_of_dvd _ (pow_dvd_pow 2 hn.le), Nat.add_mod_right]

theorem phaseOf_nextLap {n : Nat} (hn : n < 32) (c : Word) :
    phaseOf n (c + BitVec.ofNat 32 (2 ^ n)) = 1 - phaseOf n c := by
  unfold phaseOf
  rw [toNat_add_two_pow hn, wrapped_div_two_pow_mod_two hn, Nat.add_div_right _ (Nat.two_pow_pos n)]
  omega

theorem phaseOf_firstLap {n : Nat} {c : Word} (h : c.toNat < 2 ^ n) : phaseOf n c = 0 := by
  rw [phaseOf, Nat.div_eq_of_lt h]

/-- Settles O49: 2^(n + 1) divides 2^32, so the bits of a count that make its slot and its PHASE do not see the wrap. -/
theorem phaseFlipsEachLap : Obligations.PhaseFlipsEachLap :=
  ⟨fun _ c hn => have h := Nat.lt_of_le_of_lt hn (by decide); ⟨slotOf_nextLap h c, phaseOf_nextLap h c⟩,
    fun _ _ => phaseOf_firstLap⟩

/-! ### What a producer count does (R94) -/

/-- How far the producer count `p` advances a work queue. -/
def Wq.advance (q : Wq) (p : Word) : Nat := (p - q.pobs).toNat

/-- How many entries its ring has room for beyond those published. -/
def Wq.room (q : Wq) : Nat := (q.ccount + BitVec.ofNat 32 (2 ^ q.log2) - q.pobs).toNat

section
variable {c : Chip} {f n : Nat} {p : Word} {q : Wq}

theorem pcheck_noAdvance (h : q.advance p = 0) : pcheck q.log2 p q.pobs q.ccount = .nothing := if_pos h

theorem pcheck_withinRoom (h : 0 < q.advance p) (hr : q.advance p ≤ q.room) :
    pcheck q.log2 p q.pobs q.ccount = .accept :=
  (if_neg h.ne').trans (if_pos hr)

theorem pcheck_pastRoom (h : q.room < q.advance p) : pcheck q.log2 p q.pobs q.ccount = .refuse :=
  (if_neg (Nat.zero_lt_of_lt h).ne').trans (if_neg h.not_ge)

theorem Chip.pcount_noAdvance (hq : c.wq f n = some q) (h : q.advance p = 0) : c.pcount f n p = c := by
  simp [Chip.pcount, hq, pcheck_noAdvance h]

theorem Chip.pcount_pastRoom (hq : c.wq f n = some q) (h : q.room < q.advance p) :
    c.pcount f n p = c.wqStop f n 1 := by
  simp [Chip.pcount, hq, pcheck_pastRoom h]

/-- An advance within the room publishes the entries; only a push is also taken at once (R99). -/
theorem Chip.pcount_withinRoom (hq : c.wq f n = some q) (hm : q.mode ≠ .push) (h : 0 < q.advance p)
    (hr : q.advance p ≤ q.room) : c.pcount f n p = c.putWq f n { q with pobs := p, slotBuf := [] } := by
  simp [Chip.pcount, hq, pcheck_withinRoom h hr, hm]

/-- The slot of a queue that is neither stopped nor being deleted takes doorbells (R95). -/
theorem Chip.slotDead_eq_false (hq : c.wq f n = some q) (hs : q.stopped = false) (hd : q.deleting = none) :
    c.slotDead f n = false := by
  simp [Chip.slotDead, hq, hs, hd]

theorem Chip.slotWrite_doorbell (hq : c.wq f n = some q) (hl : c.slotDead f n = false) (hm : q.mode = .doorbell)
    (ws : List Word) : c.slotWrite f n p ws = c.pcount f n p := by
  simp [Chip.slotWrite, hq, hl, hm]

/-- The dwords behind PCOUNT are kept first (R98). -/
theorem Chip.slotWrite_push (hq : c.wq f n = some q) (hl : c.slotDead f n = false) (hm : q.mode = .push)
    (ws : List Word) : c.slotWrite f n p ws = (c.putWq f n (q.buffer 0x04 ws)).pcount f n p := by
  simp [Chip.slotWrite, hq, hl, hm]

/-- The dwords kept leave the counts as they are. -/
theorem Wq.advance_buffer (q : Wq) (off : Nat) (ws : List Word) (p : Word) :
    (q.buffer off ws).advance p = q.advance p := rfl
theorem Wq.room_buffer (q : Wq) (off : Nat) (ws : List Word) : (q.buffer off ws).room = q.room := rfl

end

/-- Settles O48: by the mode of the queue, and then by the three outcomes of the producer count. -/
theorem producerCountRule : Obligations.ProducerCountRule := by
  refine ⟨fun c f n p ws q hq hs hd hm => ?doorbell, fun c f n p ws q hq hs hd hm => ?push⟩
  case doorbell =>
    have hp : q.mode ≠ .push := by simp [hm]
    rw [Chip.slotWrite_doorbell hq (Chip.slotDead_eq_false hq hs hd) hm]
    exact ⟨Chip.pcount_noAdvance hq, Chip.pcount_withinRoom hq hp, Chip.pcount_pastRoom hq⟩
  case push =>
    have hb : (c.putWq f n (q.buffer 0x04 ws)).wq f n = some (q.buffer 0x04 ws) := Chip.putWq_same ..
    rw [Chip.slotWrite_push hq (Chip.slotDead_eq_false hq hs hd) hm]
    exact ⟨fun h => Chip.pcount_noAdvance hb ((q.advance_buffer ..).trans h), fun h =>
      Chip.pcount_pastRoom hb (by rwa [Wq.room_buffer, Wq.advance_buffer])⟩

/-! ### Doorbells, polls and reads of the rings -/

section
variable {s : State}

theorem execWqDoorbell_open {f : Fin 128} (n : Fin 64) (p : Word) (ws : List Word) (hu : s.up)
    (ho : s.chip.bar2Open f = true) :
    execWqDoorbell f n p ws s = .next (s.upd fun c => (c.slotWrite f n p (ws.take 31)).dozeWake 6) :=
  State.live_eq_upd hu (if_pos ho)

theorem execPollDoorbell_open {f : Fin 128} (n : Fin 64) (p : Word) (hu : s.up) (ho : s.chip.bar2Open f = true) :
    execPollDoorbell f n p s = .next (s.upd fun c => (c.slotWrite f n p []).dozeWake 6) :=
  State.live_eq_upd hu (if_pos ho)

theorem execPushSlotWrite_open {f : Fin 128} {n : Fin 64} (o : Fin 24) (ws : List Word) (hu : s.up)
    (ho : s.chip.bar2Open f = true) (hd : s.chip.slotDead f n = false) :
    execPushSlotWrite f n o ws s = .next (s.upd fun c => c.updWq f n fun q =>
      if q.mode = .push then q.buffer (0x20 + 4 * o) (ws.take (24 - o)) else q) :=
  State.live_eq_upd hu (if_pos (by simp [ho, hd]))

/-- The interval ends for a poll-mode queue that may read (R93). -/
theorem execPollIntervalExpiry_due {f : Fin 128} {n : Fin 64} {q : Wq} (hu : s.up) (hq : s.chip.wq f n = some q)
    (hm : q.mode = .poll) (hr : q.reading = false) (hf : s.chip.fetchRuns = true)
    (hb : s.chip.bindAsleep q.bind = false) :
    execPollIntervalExpiry f n s = .next (s.upd fun c => c.putWq f n { q with pollDue := true }) :=
  State.live_eq_upd hu (by simp [hq, hm, hr, hf, hb])

theorem execRingReadIssue_up (hu : s.up) : execRingReadIssue s = .next (s.upd Chip.readOpportunity) := State.live_up hu

theorem execRingReadReturn_up (f : Fin 128) (n : Fin 64) (bs : List Byte) (hu : s.up) :
    execRingReadReturn f n bs s = .next (s.upd fun c => c.ringReturn f n bs) :=
  State.live_up hu

theorem execPhaseReread_queue {f : Fin 128} {n : Fin 64} {q : Wq} (hu : s.up) (hh : s.chip.dmaHeld f = false)
    (hq : s.chip.wq f n = some q) (hd : q.rereadDue = true) (hr : q.reading = false) (hs : q.stopped = false) :
    execPhaseReread f (some n) s = .next (s.upd fun c => c.issueRing f n) :=
  State.live_eq_upd hu (by simp [hq, hd, hr, hs, hh])

theorem execPhaseReread_admin {f : Fin 128} (hu : s.up) (hh : s.chip.dmaHeld f = false)
    (hd : (s.chip.fn f).aq.rereads ≠ 0) (hr : (s.chip.fn f).aq.reading = false)
    (hs : (s.chip.fn f).aq.stopped = false) :
    execPhaseReread f none s = .next (s.upd fun c => c.issueAdmin f) :=
  State.live_eq_upd hu (if_pos (by simp [hd, hr, hs, hh]))

theorem execCqConsumerDoorbell_open {f : Fin 128} (n : Fin 16) (w : Word) (hu : s.up)
    (ho : s.chip.bar2Open f = true) :
    execCqConsumerDoorbell f n w s = .next (s.upd fun c => (c.ccount f n w).dozeWake 6) :=
  State.live_eq_upd hu (if_pos ho)

/-- A spill area that does not drain before its queue goes is lost, and counted (R109). -/
theorem execCqSpillDrainTimeout_deleting {f : Fin 128} {n : Fin 16} {q : Cq} (hu : s.up)
    (hq : s.chip.cq f n = some q) (hd : q.deleting.isSome = true) :
    execCqSpillDrainTimeout f n s = .next (s.upd fun c =>
      (c.updFn f fun x => { x with lost := satAdd 0xFFFF x.lost q.spill.length }).endCqDelete f n) :=
  State.live_eq_upd hu (by simp [hq, hd])

/-! ### The admin queue (R123 to R125) -/

theorem execAqEnable_own {f : Fin 128} (w : Word) (hu : s.up) (hf : s.chip.fnExists f = true)
    (hh : s.chip.homed f = false) :
    execAqEnable f w s = .next (s.upd fun c => c.aqCfg f (w ||| 0x80000000#32)) :=
  State.live_eq_upd hu (if_pos (by simp [hf, hh]))

theorem execAqDisable_own {f : Fin 128} (w : Word) (hu : s.up) (hf : s.chip.fnExists f = true)
    (hh : s.chip.homed f = false) :
    execAqDisable f w s = .next (s.upd fun c => c.aqCfg f (w &&& 0x7FFFFFFF#32)) :=
  State.live_eq_upd hu (if_pos (by simp [hf, hh]))

theorem execAqReady_starting {f : Fin 128} (hu : s.up) (hs : (s.chip.fn f).aq.starting = true) :
    execAqReady f s = .next (s.upd fun c =>
      (c.updFn f fun x => { x with aq := { x.aq with starting := false, ready := true } }).sendOwed f) :=
  State.live_eq_upd hu (if_pos hs)

theorem execAqSubmissionDoorbell_open {f : Fin 128} (w : Word) (hu : s.up) (ho : s.chip.bar2Open f = true) :
    execAqSubmissionDoorbell f w s = .next (s.upd fun c => (c.sqPcount f w).dozeWake 6) :=
  State.live_eq_upd hu (if_pos ho)

theorem execAqCompletionDoorbell_open {f : Fin 128} (w : Word) (hu : s.up) (ho : s.chip.bar2Open f = true) :
    execAqCompletionDoorbell f w s = .next (s.upd fun c => (c.cqCcount f w).dozeWake 6) :=
  State.live_eq_upd hu (if_pos ho)

theorem execAdminFetch_next {f : Nat} (hu : s.up)
    (hn : nextAfter s.chip.fnNums s.chip.aqPtr s.chip.aqReady = some f) :
    execAdminFetch s = .next (s.upd fun c => ({ c with aqPtr := f }).issueAdmin f) :=
  State.live_eq_upd hu (by simp [hn])

/-- The PHASE of what is read says whether it is new (R86); a function that has no home has no window to be poisoned. -/
theorem execAdminCommandReadReturn_unhomed {f : Fin 128} (bs : List Byte) (hu : s.up)
    (hr : (s.chip.fn f).aq.reading = true) (hh : (s.chip.fn f).home = none) :
    execAdminCommandReadReturn f bs s = .next (s.upd fun c =>
      let q := (c.fn f).aq
      let d := bytesWords (c.hostReadData f (entryAddr q.sqBase q.sqLog q.sqC 64) 64 bs) 16
      if b2n (bit (dw d 0) 31) = phaseOf q.sqLog q.sqC then c.adminStart f d
      else if q.rereads = 2 then c.aqStop f 2
      else c.updAq f fun q => { q with reading := false, rereads := q.rereads + 1 }) :=
  State.live_eq_upd hu (by simp [hr, hh])

end

/-- Settles O3, one row after another. -/
theorem doorbellRowsComplete : Obligations.DoorbellRowsComplete :=
  ⟨fun _ _ n p ws hu ho => ⟨execWqDoorbell_open n p ws hu ho, execPollDoorbell_open n p hu ho⟩,
    fun _ _ _ o ws _ hu ho hd _ _ => execPushSlotWrite_open o ws hu ho hd, fun _ _ _ _ => execPollIntervalExpiry_due,
    fun _ f n bs hu => ⟨execRingReadIssue_up hu, execRingReadReturn_up f n bs hu⟩,
    fun _ _ hu hh => ⟨fun _ _ => execPhaseReread_queue hu hh, execPhaseReread_admin hu hh⟩,
    fun _ _ n w hu => ⟨execCqConsumerDoorbell_open n w hu, fun _ => execCqSpillDrainTimeout_deleting hu⟩,
    fun _ _ w hu hf hh => ⟨execAqEnable_own w hu hf hh, execAqDisable_own w hu hf hh, execAqReady_starting hu⟩,
    fun _ _ w hu ho => ⟨execAqSubmissionDoorbell_open w hu ho, execAqCompletionDoorbell_open w hu ho⟩,
    fun _ _ => execAdminFetch_next, fun _ _ bs => execAdminCommandReadReturn_unhomed bs⟩

/-! ### Admin commands on queues and channels (R106 to R110, R282) -/

section
variable {s : State} {f : Fin 128} {d : List Word}

theorem execIdentify_fits (hu : s.up) (hc : s.carries f 0x01 d) (hl : 128 ≤ admLen d)
    (hb : s.chip.bufFault f d 128 = none) :
    execIdentify f s =
      .next (s.upd fun c => (c.hostWrite f (admAddr d) (c.identity f)).adminDone f Ad.success) :=
  State.live_admin_passes hu hc (by simp [hl, hb])

/-- A ring of `2 ^ e` entries at the address in the command is one that R84 allows. -/
def Chip.ringAllowed (c : Chip) (f : Nat) (d : List Word) (e : Nat) : Prop :=
  (4 ≤ e ∧ e ≤ 16) ∧ c.ringFault f d e = none

theorem execCreateCq_fits (hu : s.up) (hc : s.carries f 0x02 d) (hn : bits (dw d 5) 3 0 < (s.chip.fn f).cqs)
    (hq : s.chip.cq f (bits (dw d 5) 3 0) = none) (hr : s.chip.ringAllowed f d (bits (dw d 5) 12 8))
    (hs : bits (dw d 5) 19 16 = 0 ∨ 8 ≤ bits (dw d 5) 19 16 ∧ bits (dw d 5) 19 16 ≤ 12)
    (hf : spillEntries (bits (dw d 5) 19 16) / 256 ≤ s.chip.spillFree) :
    execCreateCq f s = .next (s.upd fun c =>
      ((c.putCq f (bits (dw d 5) 3 0)
        { log2 := bits (dw d 5) 12 8, base := admAddr d, spillSize := spillEntries (bits (dw d 5) 19 16) }).cqLevel f
        (bits (dw d 5) 3 0)).adminDone f Ad.success) := by
  obtain ⟨⟨he4, he16⟩, hrf⟩ := hr
  exact State.live_admin_passes hu hc (by simpa [hn, hq, he4, he16, hrf, hf] using hs.resolve_left)

/-- DELETE_CQ of a queue that no work queue names (R109). -/
theorem execDeleteCq_unnamed {q : Cq} (hu : s.up) (hc : s.carries f 0x03 d)
    (hq : s.chip.cq f (bits (dw d 5) 3 0) = some q) (hd : q.deleting = none)
    (hw : ((s.chip.wqNums f).any fun w =>
      ((s.chip.wq f w).map Wq.cq) == some (bits (dw d 5) 3 0)) = false) :
    execDeleteCq f s = .next (s.upd fun c =>
      let e := (c.adminBegun f).updCq f (bits (dw d 5) 3 0) fun q => { q with deleting := some true }
      if (e.cq f (bits (dw d 5) 3 0)).any fun q => q.spill.isEmpty then e.endCqDelete f (bits (dw d 5) 3 0) else e) :=
  State.live_admin_passes hu hc (by simp [hq, hd, hw])

/-- CREATE_WQ may take its number, its completion queue, its binding and its mode (R106): a poll-mode queue has an
interval and belongs to a function that has no home. -/
def Chip.wqCreatable (c : Chip) (f : Nat) (d : List Word) : Prop :=
  c.bindDenied f (admBind d) = false ∧ bits (dw d 5) 5 0 < (c.fn f).wqs ∧ c.wq f (bits (dw d 5) 5 0) = none ∧
  (∃ q, c.cq f (bits (dw d 5) 11 8) = some q ∧ q.deleting = none) ∧ bits (dw d 5) 25 24 ≠ 3 ∧
  (bits (dw d 5) 25 24 = 0 → c.homed f = false ∧ bits (dw d 6) 19 16 ≠ 0) ∧ c.bindTaken (admBind d) = false

theorem execCreateWq_creatable (hu : s.up) (hc : s.carries f 0x04 d) (hw : s.chip.wqCreatable f d)
    (hr : s.chip.ringAllowed f d (bits (dw d 5) 20 16)) (hg : bits (dw d 7) 7 0 ≠ 0)
    (hb : 1 ≤ bits (dw d 7) 14 8 ∧ bits (dw d 7) 14 8 ≤ 64) :
    execCreateWq f s = .next (s.upd fun c =>
      ((c.putWq f (bits (dw d 5) 5 0) (c.newWq d)).bindWq (admBind d) f (bits (dw d 5) 5 0)).adminDone f
        Ad.success) := by
  obtain ⟨hbd, hn, hq, ⟨q, hcq, hqd⟩, hm3, hm0, hbt⟩ := hw
  obtain ⟨⟨he4, he16⟩, hrf⟩ := hr
  refine State.live_admin_passes hu hc ?_
  simpa [hbd, hn, hq, hcq, hqd, hm3, hbt, he4, he16, hrf, hg, Nat.one_le_iff_ne_zero.1 hb.1, hb.2] using
    forall_and.1 hm0

/-- DELETE_WQ ends the work of the queue as CANCELLED and waits for it (R108). -/
theorem execDeleteWq_present {q : Wq} (hu : s.up) (hc : s.carries f 0x05 d)
    (hq : s.chip.wq f (bits (dw d 5) 5 0) = some q) (hd : q.deleting = none) :
    execDeleteWq f s = .next (s.upd fun c =>
      ((c.adminBegun f).updWq f (bits (dw d 5) 5 0) fun q =>
        { q with deleting := some true, draining := false, reading := false, ended := 0 }).endWork f
        (bits (dw d 5) 5 0) St.cancelled) :=
  State.live_admin_passes hu hc (by simp [hq, hd])

theorem execRestartWq_stopped {q : Wq} (hu : s.up) (hc : s.carries f 0x06 d)
    (hq : s.chip.wq f (bits (dw d 5) 5 0) = some q) (hs : q.stopped = true) (hd : q.deleting = none)
    (he : q.err ≠ 4) :
    execRestartWq f s = .next (s.upd fun c => (c.updWq f (bits (dw d 5) 5 0) fun q =>
      { q with
        stopped := false, err := 0, ccount := dw d 6, pobs := dw d 6, reading := false, rereads := 0
        rereadDue := false, pollDue := q.mode == .poll, slotBuf := [] }).adminDone f Ad.success) :=
  State.live_admin_passes hu hc (by simp [hq, hs, hd, he])

/-- The settings of SET_CHANNEL: the quota, the wait limit, and the marks of each direction that the endpoint has
(R282). -/
def Ep.setChannel (d : List Word) (e : Ep) : Ep :=
  let e := { e with qc := bits (dw d 6) 7 0, waitLim := bits (dw d 6) 15 8 }
  let e := if e.isIn then e else { e with hmOut := bits (dw d 7) 8 0, lmOut := bits (dw d 7) 24 16 }
  if e.type = .control ∨ (e.isIn ∧ !e.periodic) then
    { e with hmIn := bits (dw d 8) 8 0, lmIn := bits (dw d 8) 24 16 }
  else e

theorem execSetChannel_marksGood {e : Ep} (hu : s.up) (hc : s.carries f 0x07 d)
    (he : s.chip.ep (bits (dw d 5) 12 0) = some e) (hb : s.chip.bindDenied f (.ep (bits (dw d 5) 12 0)) = false)
    (ho : marksBad (!e.isIn) false (2 * e.t + bits (dw d 6) 7 0) (dw d 7) = none)
    (hi : marksBad (e.isIn || e.type == .control) (e.isIn && e.periodic) (2 * e.t + bits (dw d 6) 7 0) (dw d 8) =
      none) :
    execSetChannel f s = .next (s.upd fun c =>
      let e := c.updEp (bits (dw d 5) 12 0) (Ep.setChannel d)
      e.adminDone f Ad.success 0#32 ((e.ep (bits (dw d 5) 12 0)).map Ep.settings |>.getD [])) :=
  State.live_admin_passes hu hc (by simp [he, hb, ho, hi])

end

/-- Settles O4, one command after another. -/
theorem queueCommandsComplete : Obligations.QueueCommandsComplete :=
  ⟨fun _ _ _ => execIdentify_fits,
    fun _ _ _ hu hc hn hq he hs hr hf => execCreateCq_fits hu hc hn hq ⟨he, hr⟩ hs hf,
    fun _ _ _ _ => execDeleteCq_unnamed,
    fun _ _ _ q hu hc hbd hn hw hq hqd he hm3 hm0 hbt hg hb hr =>
      execCreateWq_creatable hu hc ⟨hbd, hn, hw, ⟨q, hq, hqd⟩, hm3, hm0, hbt⟩ ⟨he, hr⟩ hg hb,
    fun _ _ _ _ => execDeleteWq_present, fun _ _ _ _ => execRestartWq_stopped,
    fun _ _ _ _ => execSetChannel_marksGood⟩

end Sys2Proof.Machine
end

section
/-!
SUPPORT. The rows of the wire: what a response, a packet, EOF2, the timers of a descriptor and of a DISABLED port do.
-/
namespace Sys2Proof.Machine

/-! ### What a babble leaves alone in its port -/

section
variable (c : Chip) (p : Nat)

@[simp] theorem Chip.report_port (src kind addr : Nat) : (c.report src kind addr).port p = c.port p :=
  Chip.port_of (by simp) p

@[simp] theorem Chip.portEvent_sc (i : Nat) : ((c.portEvent p i).port p).sc = (c.port p).sc := by
  simp [Chip.portEvent]

/-- A babble is counted beside the transaction on the wire (R213). -/
@[simp] theorem Chip.countBabble_txn : ((c.countBabble p).port p).sc.txn = (c.port p).sc.txn := by
  simp [Chip.countBabble]

end

/-! ### Responses (R204, R205) -/

/-- A SYNC begins the response awaited, or, with no transaction on the wire, a late packet (R204, R205). -/
def PortSch.sync (x : PortSch) : PortSch :=
  match x.txn with
  | some t => if t.wait = .response then { x with txn := some { t with wait := .packet } } else x
  | none => { x with txn := some { ep := 0xFFFF, kind := .lpm, wait := .late } }

section
variable {s : State} {p : Fin 128}

theorem execResponseSync_enabled (hu : s.up) (he : (s.chip.port p).st = .enabled) :
    execResponseSync p s = .next (s.upd fun c => c.updSc p PortSch.sync) :=
  State.live_eq_upd hu (if_neg (by simp [he]))

theorem execResponseTimeout_up (hu : s.up) : execResponseTimeout p s = .next (s.upd fun c => c.responseTimeout p) :=
  State.live_up hu

theorem execDataPacketReceived_up (pid : Byte) (bs : List Byte) (q : RxQuality) (hu : s.up) :
    execDataPacketReceived p pid bs q s = .next (s.upd fun c => c.dataPacket p pid.toNat bs q) :=
  State.live_up hu

theorem execHandshakeReceived_up (pid : Byte) (q : RxQuality) (hu : s.up) :
    execHandshakeReceived p pid q s = .next (s.upd fun c => c.handshake p pid.toNat q) :=
  State.live_up hu

/-! ### EOF2 (R213, R214) -/

/-- A babble with no transaction on the wire: it is counted and reported, and the port is DISABLED (R213, R214). -/
def Chip.babbleDisable (c : Chip) (p : Nat) : Chip :=
  let d := (((c.countBabble p).report p Kind.babble (eof2 (c.port p).speed)).updSc p PortSch.quiet).updPort p fun x =>
    { x with waiting := none, disabled100 := false, tokHold := false }
  (((d.setPort p .disabled).portEvent p Ev.disabled).detachTree p 0x04).happen p 0 (.enum p 0 0)

/-- No descriptor ends, for the count and the report leave the port without a transaction. -/
theorem execEof2Reached_sending (hu : s.up) (he : (s.chip.port p).st = .enabled)
    (ht : (s.chip.port p).sc.txn = none) :
    execEof2Reached p true s = .next (s.upd fun c => c.babbleDisable p) :=
  State.live_eq_upd hu (by simp [he, ht, Chip.babbleDisable])

theorem execEof2Reached_quiet (hu : s.up) : execEof2Reached p false s = .next (s.upd fun c => c) :=
  State.live_eq_upd hu (if_pos rfl)

/-! ### Timers (R144, R214, R290) -/

theorem execDescriptorTimeout_due {f : Fin 128} {n : Fin 64} {count : Word} {q : Wq} {x : Xfer} (hu : s.up)
    (hq : s.chip.wq f n = some q) (hx : (q.work.find? fun x => x.count == count) = some x) (ht : x.tmo = some 0)
    (hr : x.result = none) (hs : s.chip.schedRuns = true) :
    execDescriptorTimeout f n count s = .next (s.upd fun c => c.causeEnd f n x St.timeout) :=
  State.live_eq_upd hu (by simp [hq, hx, ht, hr, hs])

theorem execPoolWaitAbort_pastLimit {h : Fin 8192} {e : Ep} {f n : Nat} {x : Xfer} (hu : s.up)
    (he : s.chip.ep h = some e) (hw : e.waiting = true) (hl : e.waitLim ≠ 0) (hg : s.chip.grantable h = false)
    (hc : s.chip.chan h = some (.raw f n x)) :
    execPoolWaitAbort h s = .next (s.upd fun c => c.poolAborted h f n x) :=
  State.live_eq_upd hu (by simp [he, hw, hl, hg, hc])

/-- AUTOREC is read after the mark that the 100 ms are over, which leaves it alone (R214). -/
theorem execAutorecExpiry_disabled (hu : s.up) (hd : (s.chip.port p).st = .disabled) :
    execAutorecExpiry p s = .next (s.upd fun c =>
      let d := c.updPort p fun x => { x with disabled100 := true }
      if (c.port p).autoRec then d.redetect p else d) :=
  State.live_eq_upd hu (by simp [hd])

end

/-- Settles O9, one row after another. -/
theorem wireResponsesComplete : Obligations.WireResponsesComplete :=
  ⟨fun _ _ => execResponseSync_enabled,
    fun _ _ pid bs q hu =>
      ⟨execResponseTimeout_up hu, execDataPacketReceived_up pid bs q hu, execHandshakeReceived_up pid q hu⟩,
    fun _ _ => execEof2Reached_sending, fun _ _ => execEof2Reached_quiet,
    fun _ _ _ _ _ _ => execDescriptorTimeout_due,
    fun _ _ _ _ _ _ _ _ hu he hw hl hg hc _ => execPoolWaitAbort_pastLimit hu he hw hl hg hc,
    fun _ _ => execAutorecExpiry_disabled⟩

end Sys2Proof.Machine
end

section
/-!
SUPPORT. The rows of the frame scheduler: building plans, the ticks of the wire, and what a port engine starts.
-/
namespace Sys2Proof.Machine

variable {s : State} {p : Fin 128}

/-! ### Plans and windows (R144, R170, R172) -/

theorem execPlanBuild_unplanned (hu : s.up) (hr : s.chip.schedRuns = true) (ha : (s.chip.clu (p / 8)).asleep = false)
    (hp : ((s.chip.port p).sc.plans.any fun x => x.mfn == s.chip.mfn + 2#14) = false) :
    execPlanBuild p s = .next (s.upd fun c =>
      (c.updSch fun x => { x with running := true, owedPlans := x.owedPlans.filter fun k => k != p.val }).buildPlan p
        (c.mfn + 2#14)) :=
  State.live_eq_upd hu (if_neg (by simp [hr, ha, hp]))

/-- The window of port `p` of a running scheduler has room for the channel `h`, which is not in it yet (R172). -/
def Chip.windowOpen (c : Chip) (p : Fin 128) (h : Fin 8192) : Prop :=
  c.schedRuns = true ∧ (c.port p).st = .enabled ∧ c.epPort h = some p.val ∧
  (c.port p).sc.window.contains h.val = false ∧ (c.port p).sc.window.length < 32

/-- An asynchronous endpoint that is neither halted nor going has a descriptor to work on at its channel. -/
def Chip.joinable (c : Chip) (h : Fin 8192) (e : Ep) : Prop :=
  c.ep h = some e ∧ e.periodic = false ∧ e.gone = false ∧ e.halted = false ∧ (c.chan h).isSome = true

theorem execJoinWord_joins {h : Fin 8192} {e : Ep} (hu : s.up) (hw : s.chip.windowOpen p h)
    (hj : s.chip.joinable h e) :
    execJoinWord p h s = .next (s.upd fun c =>
      (c.startWindow [h.val]).updSc p fun x => { x with window := x.window ++ [h.val] }) := by
  obtain ⟨hr, hen, hp, hc, hl⟩ := hw
  obtain ⟨he, hper, hg, hh, hd⟩ := hj
  obtain ⟨ch, hch⟩ := Option.isSome_iff_exists.1 hd
  have hn : h.val ∉ (s.chip.port p).sc.window := by simpa using hc
  exact State.live_eq_upd hu (by simp [hr, hen, hp, hn, Nat.not_le.2 hl, he, hper, hg, hh, hch])

/-! ### Ticks of the wire (R165, R166) -/

theorem execPortMicroframeStart_runs (excess : Bool) (hu : s.up) (hr : s.chip.cluRuns (p / 8) = true) :
    execPortMicroframeStart p excess s = .next (s.upd fun c =>
      let d := c.portStart p excess
      if (c.port p).st != .enabled && (d.port p).st == .enabled then d.dozeWake 8 else d) :=
  State.live_eq_upd hu (if_neg (by simp [hr]))

section
variable {k : Fin 16} {off : Fin 15000}

theorem execEdgeWordCompare_locks (hu : s.up) (hm : s.chip.mfnRuns = true) (ha : (s.chip.clu k).asleep = false)
    (hl : (s.chip.clu k).locked = false) :
    execEdgeWordCompare k off s = .next (s.upd fun c => c.updClu k fun x => { x with locked := true }) :=
  State.live_eq_upd hu (by simp [hm, ha, hl])

theorem execEdgeWordCompare_near (hu : s.up) (hm : s.chip.mfnRuns = true) (ha : (s.chip.clu k).asleep = false)
    (hl : (s.chip.clu k).locked = true) (ho : off.val ≤ 2) : execEdgeWordCompare k off s = .next s :=
  State.live_eq_upd (h := fun c => c) hu (by simp [hm, ha, hl, ho])

/-- A locked cluster whose edge is too far from the edge word's unlocks, and reports it (R165). -/
theorem execEdgeWordCompare_far (hu : s.up) (hm : s.chip.mfnRuns = true) (ha : (s.chip.clu k).asleep = false)
    (hl : (s.chip.clu k).locked = true) (ho : 3 ≤ off.val) :
    execEdgeWordCompare k off s = .next (s.upd fun c =>
      (c.updClu k fun x => { x with locked := false }).report (0x080 + k) Kind.protocol 0) := by
  have h2 : 2 < off.val := ho
  exact State.live_eq_upd hu (by simp [hm, ha, hl, h2])

end

/-! ### What a port engine starts (R173, R176, R223) -/

section
variable {t : Fin 60000}

theorem execTransactionStart_awake (hu : s.up) (ha : (s.chip.clu (p / 8)).asleep = false) :
    execTransactionStart p t s = .next (s.upd fun c => c.txnStart p t) :=
  State.live_eq_upd hu (if_neg (by simp [ha]))

/-- The port is enabled, with no transaction on the wire and nothing to do before the next. -/
def Port.mayStart (x : Port) : Prop :=
  x.st = .enabled ∧ x.tokHold = false ∧ x.sc.txn = none ∧ x.waiting = none ∧ x.takeover = false

/-- The work of channel `h` of port `p` is an EXPRESS OUT that may be sent (R173). -/
def Chip.expressReady (c : Chip) (p : Fin 128) (h : Fin 8192) (e : Ep) (ch : Chan) : Prop :=
  c.epPort h = some p.val ∧ c.ep h = some e ∧ c.chan h = some ch ∧ ch.x.express = true ∧ ch.x.d.dataOut = true ∧
  e.halted = false ∧ ch.x.cause = none ∧ c.chanHeld h = false

/-- A transaction of `need` bit times fits at `t` with its gap of 90 and every periodic item still to run, or by itself
where no item is left (R173). -/
def Chip.insertFits (c : Chip) (p : Fin 128) (t : Fin 60000) (need : Nat) : Prop :=
  c.fitsAt p t (need + 90 + c.itemsNeed p) = true ∨ (c.port p).sc.items = [] ∧ c.fitsAt p t need = true

theorem execExpressOutInsert_fits {h : Fin 8192} {e : Ep} {ch : Chan} (hu : s.up) (hi : (s.chip.port p).mayStart)
    (hx : s.chip.expressReady p h e ch) (hf : s.chip.insertFits p t (s.chip.reqFor p h e ch.x false).need) :
    execExpressOutInsert p h t s = .next (s.upd fun c =>
      (c.updChan h fun x => { x with started := true }).send p h e (c.reqFor p h e ch.x false) none false) := by
  obtain ⟨hen, hto, htx, hwa, hta⟩ := hi
  obtain ⟨hp, he, hch, hex, hou, hha, hca, hhe⟩ := hx
  unfold Chip.insertFits at hf
  exact State.live_eq_upd hu (by simp [hen, hto, htx, hwa, hta, hp, he, hch, hex, hou, hha, hca, hhe, hf])

theorem execLpmTransaction_fits {d : Dev} (hu : s.up) (hd : (s.chip.rootDev p).bind s.chip.dev = some d)
    (hr : s.chip.lpmReady p = true)
    (hf : s.chip.fitsAt p t (charge .ping (s.chip.hs p) 0 (tokenLen (s.chip.hs p) Pid.ext d.addr 0) 0 0 -
      Charge.tail .ping (s.chip.hs p)) = true) :
    execLpmTransaction p t s = .next (s.upd fun c =>
      let e := c.emit (.usb p (.token Pid.ext d.addr 0))
      (e.emit (.usb p (.lpm d.addr (e.port p).besl d.remoteWake))).updSc p fun x =>
        { x with tokens := true, txn := some { ep := 0xFFFF, kind := .lpm, async := true } }) :=
  State.live_eq_upd hu (by simp [hd, hr, hf])

end

/-- Settles O8, one row after another. -/
theorem schedulerRowsComplete : Obligations.SchedulerRowsComplete :=
  ⟨fun _ _ => execPlanBuild_unplanned,
    fun _ _ _ _ hu hr hen hp hc hl he hper hg hh hd =>
      execJoinWord_joins hu ⟨hr, hen, hp, hc, hl⟩ ⟨he, hper, hg, hh, hd⟩,
    fun _ _ => execPortMicroframeStart_runs,
    fun _ _ _ hu hm ha =>
      ⟨execEdgeWordCompare_locks hu hm ha, execEdgeWordCompare_near hu hm ha, execEdgeWordCompare_far hu hm ha⟩,
    fun _ _ _ => execTransactionStart_awake,
    fun _ _ _ _ _ _ hu hen hto htx hwa hta hp he hch hex hou hha hca hhe =>
      execExpressOutInsert_fits hu ⟨hen, hto, htx, hwa, hta⟩ ⟨hp, he, hch, hex, hou, hha, hca, hhe⟩,
    fun _ _ _ _ => execLpmTransaction_fits⟩

end Sys2Proof.Machine
end

section
/-!
SUPPORT. The rows of the fault collector and of the scheduler's lockstep recovery.
-/
namespace Sys2Proof.Machine

variable {s : State}

/-! ### Messages, windows and reactions (R475, R479) -/

theorem execFaultMessageAccept_clocked (ha : s.alive) (hc : s.chip.fabricClocked = true) :
    execFaultMessageAccept s = .next (s.upd Chip.acceptNext) :=
  State.run_eq_upd ha (if_pos hc)

section
variable {i : Fin 1024}

theorem execFaultWindowExpiry_open (ha : s.alive) (hw : (s.chip.fltSrc i).win = true) :
    execFaultWindowExpiry i s = .next (s.upd fun c => c.updFltSrc i fun x => { x with count := 0, win := false }) :=
  State.run_eq_upd ha (if_pos hw)

/-- Source `i` escalates: its action is taken, ESCALATED is set after it (log 169), and the escalation is recorded with
the action, uncounted (R479). -/
def Chip.escalate (c : Chip) (i : Nat) : Chip :=
  let d := (c.react i (c.fltSrc i).action).updFltSrc i fun x => { x with react := false, escalated := true }
  let d := d.record i { kind := Kind.escalated, addr := (c.fltSrc i).action } false (d.fltSrc i).count
  (d.tellOwner i Kind.escalated).judgeFaults

theorem execReactionTimerExpiry_severe (ha : s.alive) (hr : (s.chip.fltSrc i).react = true)
    (hs : (s.chip.fltSrc i).severe = true) :
    execReactionTimerExpiry i s = .next (s.upd fun c => c.escalate i) :=
  State.run_eq_upd ha (if_neg (by simp [hr, hs]))

end

/-! ### Writes of the collector (R480, R485) -/

section
variable (w : Word)

theorem execFaultSourceClear_runs (hu : s.up) (hf : s.chip.fabricRuns = true) :
    execFaultSourceClear w s = .next (s.upd fun c => c.srcStat w) :=
  State.live_eq_upd hu (if_pos hf)

theorem execClearall_runs (hu : s.up) (hf : s.chip.fabricRuns = true) :
    execClearall s = .next (s.upd Chip.clearAll) :=
  State.live_eq_upd hu (if_pos hf)

theorem execFaultActionWrite_runs (hu : s.up) (hf : s.chip.fabricRuns = true) :
    execFaultActionWrite w s = .next (s.upd fun c => c.srcAct s.locks.flt w) :=
  State.live_eq_upd hu (if_pos hf)

end

/-! ### Lockstep (R192, R193, R195) -/

theorem execLockstepMismatch_runs (a : BitVec 40) (hu : s.up) (hm : s.chip.mfnRuns = true) :
    execLockstepMismatch a s = .next (s.upd fun c =>
      (c.updSch fun x => { x with recovering := true, running := false, step := 1, at_ := c.mfn }).report 0x0A1
        Kind.lockstep a.toNat) :=
  State.live_eq_upd hu (if_neg (by simp [hm]))

theorem execLockstepReloadDone_recovering (l : List (Fin 16 × Fin 2048)) (hu : s.up)
    (hr : s.chip.sch.recovering = true) (h4 : s.chip.sch.step < 4) :
    execLockstepReloadDone l s = .next (s.upd fun c =>
      (c.updSch fun x => { x with step := 4 }).each l fun c e => c.contextLost e.1 e.2) :=
  State.live_eq_upd hu (if_pos (by simp [hr, h4]))

theorem execLockstepResetTimeout_recovering (hu : s.up) (hr : s.chip.sch.recovering = true)
    (h4 : s.chip.sch.step < 4) :
    execLockstepResetTimeout s = .next (s.upd fun c =>
      (c.report 0x0A0 Kind.uncorrectable 0).enterSafe 4 0x0A0 Kind.uncorrectable) :=
  State.live_eq_upd hu (if_pos (by simp [hr, h4]))

/-- Settles O27, one row after another. -/
theorem faultRowsComplete : Obligations.FaultRowsComplete :=
  ⟨fun _ => execFaultMessageAccept_clocked, fun _ _ => execFaultWindowExpiry_open,
    fun _ _ ha hr hs => (execReactionTimerExpiry_severe ha hr hs).trans (congrArg _ (State.upd_congr rfl)),
    fun _ w hu hf =>
      ⟨execFaultSourceClear_runs w hu hf, execClearall_runs hu hf, execFaultActionWrite_runs w hu hf⟩,
    fun _ => execLockstepMismatch_runs, fun _ => execLockstepReloadDone_recovering,
    fun _ => execLockstepResetTimeout_recovering⟩

end Sys2Proof.Machine
end

section
/-!
SUPPORT. The rows of the commands to a port engine: what PRT_CTRL.CMD, TESTMODE and AUTOREC do to the port.
-/
namespace Sys2Proof.Machine

/-! ### The commands by the state of their port (R201, R202) -/

section
variable {c : Chip} {p : Nat}

section
variable (hb : c.cmdBlocked p = false)
include hb

theorem Chip.portCmd_reset : c.portCmd p 1 = c.cmdReset p := by simp [Chip.portCmd, hb]
theorem Chip.portCmd_suspend : c.portCmd p 2 = c.cmdSuspend p := by simp [Chip.portCmd, hb]
theorem Chip.portCmd_resume (k : Bool) : c.portCmd p 3 k = c.cmdResume p k := by simp [Chip.portCmd, hb]
theorem Chip.portCmd_rearm : c.portCmd p 4 = c.cmdRearm p := by simp [Chip.portCmd, hb]
theorem Chip.portCmd_spare : c.portCmd p 5 = c.cmdSpare p := by simp [Chip.portCmd, hb]
theorem Chip.portCmd_return : c.portCmd p 6 = c.cmdReturn p := by simp [Chip.portCmd, hb]

end

/-- A port out of service answers every code but 0 with CMDERR (R508). -/
theorem Chip.portCmd_outOfService {code : Nat} (k : Bool) (ho : c.outOfService p = true) (h0 : code ≠ 0) :
    c.portCmd p code k = c.portEvent p Ev.cmdErr := by
  simp [Chip.portCmd, h0, Chip.cmdBlocked, ho, Chip.cmdErr]

theorem Chip.cmdReset_accepted (hb : (c.port p).busy = false)
    (hs : (c.port p).st = .enabled ∨ (c.port p).st = .suspended ∨ (c.port p).st = .l1 ∨ (c.port p).st = .disabled) :
    c.cmdReset p =
      if (c.port p).st = .enabled then c.portAsk p .reset
      else if (c.port p).st = .disabled then c.redetect p else c.resetNow p := by
  rcases hs with h | h | h | h <;> simp [Chip.cmdReset, hb, h]

theorem Chip.cmdSuspend_accepted (hb : (c.port p).busy = false)
    (hs : (c.port p).st = .enabled ∨ (c.port p).st = .l1) :
    c.cmdSuspend p =
      if (c.port p).st = .enabled then c.portAsk p .suspend
      else c.updPort p fun x => { x with thenSuspend := true } := by
  rcases hs with h | h <;> simp [Chip.cmdSuspend, hb, h]

theorem Chip.cmdResume_suspended (k : Bool) (hb : (c.port p).busy = false) (hs : (c.port p).st = .suspended) :
    c.cmdResume p k =
      let d := (c.updPort p fun x => { x with nowHost := true, nowRws := k }).setPort p .resuming
      if (c.port p).resided then d.startK p else d := by
  simp [Chip.cmdResume, hb, hs]

theorem Chip.cmdReset_busy (hb : (c.port p).busy = true) : c.cmdReset p = c.portEvent p Ev.cmdErr := if_pos hb

theorem Chip.cmdSuspend_busy (hb : (c.port p).busy = true) : c.cmdSuspend p = c.portEvent p Ev.cmdErr := if_pos hb

/-- A resume that the device started leaves nothing for RESUME to do; no other busy port takes it (R220). -/
theorem Chip.cmdResume_busy (k : Bool) (hb : (c.port p).busy = true)
    (hd : ¬ ((c.port p).st = .resuming ∧ (c.port p).nowRws = true ∧ (c.port p).nowHost = false)) :
    c.cmdResume p k = c.portEvent p Ev.cmdErr :=
  (if_neg (by simpa using hd)).trans (if_pos hb)

/-- SPARE of a port that the spare already serves has no effect; that is the model's choice (R229, log 67). -/
theorem Chip.cmdSpare_accepted (hb : (c.port p).busy = false) (ht : (c.port p).takeover = false)
    (hs : c.spareTaken p = false) : c.cmdSpare p = if (c.port p).spare then c else c.planSwap p true :=
  if_neg (by simp [hb, ht, hs])

/-- RETURN of a port on its own engine has no effect; that is the model's choice (R229, log 67). -/
theorem Chip.cmdReturn_accepted (hb : (c.port p).busy = false) (ht : (c.port p).takeover = false)
    (ho : (c.port p).ownFailed = false) : c.cmdReturn p = if (c.port p).spare then c.planSwap p false else c :=
  if_neg (by simp [hb, ht, ho])

/-! ### The test modes and AUTOREC (R214, R230) -/

theorem Chip.testModeWrite_enters {m : Nat} (hb : c.cmdBlocked p = false) (hm : 1 ≤ m ∧ m ≤ 5)
    (hs : (c.port p).st = .disconnected ∨ (c.port p).st = .suspended ∨ (c.port p).st = .disabled) :
    c.testModeWrite p m = c.testEnter p m := by
  obtain ⟨h1, h5⟩ := hm
  simp [Chip.testModeWrite, Nat.one_le_iff_ne_zero.1 h1, hb, h5, hs]

theorem Chip.testModeWrite_leaves (ht : (c.port p).st = .test) : c.testModeWrite p 0 = c.testLeave p := if_pos ht

/-- The write of AUTOREC leaves alone what decides whether the port detects again (R214). -/
theorem Chip.autoRec_eq (b : Bool) :
    c.autoRec p b =
      let d := c.updPort p fun x => { x with autoRec := b }
      if b && (c.port p).st == .disabled && (c.port p).disabled100 then d.redetect p else d := by
  simp [Chip.autoRec]

end

/-! ### The rows that carry the writes (R17, R231) -/

section
variable {s : State} {p : Fin 128}

/-- A write of a register that takes writes makes the change `h` where its effect on that chip is `h`'s. -/
theorem State.live_regs_eq_upd {g h : Chip → Chip} (hu : s.up) (hr : s.chip.regsLive = true)
    (e : g s.chip = h s.chip) : (s.live fun c => if c.regsLive then g c else c) = .next (s.upd h) :=
  State.live_eq_upd hu ((if_pos hr).trans e)

variable (hu : s.up) (hr : s.chip.regsLive = true)
include hu hr

section
variable (hb : s.chip.cmdBlocked p = false)
include hb

theorem execPortReset_taken : execPortReset p s = .next (s.upd fun c => c.cmdReset p) :=
  State.live_regs_eq_upd hu hr (Chip.portCmd_reset hb)

theorem execPortSuspend_taken : execPortSuspend p s = .next (s.upd fun c => c.cmdSuspend p) :=
  State.live_regs_eq_upd hu hr (Chip.portCmd_suspend hb)

theorem execPortResume_taken (k : Bool) : execPortResume p k s = .next (s.upd fun c => c.cmdResume p k) :=
  State.live_regs_eq_upd hu hr (Chip.portCmd_resume hb k)

theorem execRearm_taken : execRearm p s = .next (s.upd fun c => c.cmdRearm p) :=
  State.live_regs_eq_upd hu hr (Chip.portCmd_rearm hb)

theorem execSpare_taken : execSpare p s = .next (s.upd fun c => c.cmdSpare p) :=
  State.live_regs_eq_upd hu hr (Chip.portCmd_spare hb)

theorem execReturnCmd_taken : execReturnCmd p s = .next (s.upd fun c => c.cmdReturn p) :=
  State.live_regs_eq_upd hu hr (Chip.portCmd_return hb)

end

/-- A command whose code is not 0, to a port out of service (R508). -/
theorem State.live_portCmd_outOfService {code : Nat} (k : Bool) (ho : s.chip.outOfService p = true) (h0 : code ≠ 0) :
    (s.live fun c => if c.regsLive then c.portCmd p code k else c) =
      .next (s.upd fun c => c.portEvent p Ev.cmdErr) :=
  State.live_regs_eq_upd hu hr (Chip.portCmd_outOfService k ho h0)

theorem execTestModeSet_enters {m : Fin 8} (hb : s.chip.cmdBlocked p = false) (hm : 1 ≤ m.val ∧ m.val ≤ 5)
    (hs : (s.chip.port p).st = .disconnected ∨ (s.chip.port p).st = .suspended ∨ (s.chip.port p).st = .disabled) :
    execTestModeSet p m s = .next (s.upd fun c => c.testEnter p m) :=
  State.live_regs_eq_upd hu hr (Chip.testModeWrite_enters hb hm hs)

theorem execTestModeClear_test (ht : (s.chip.port p).st = .test) :
    execTestModeClear p s = .next (s.upd fun c => c.testLeave p) :=
  State.live_regs_eq_upd hu hr (Chip.testModeWrite_leaves ht)

theorem execAutorecWrite_taken (b : Bool) :
    execAutorecWrite p b s = .next (s.upd fun c =>
      let d := c.updPort p fun x => { x with autoRec := b }
      if b && (c.port p).st == .disabled && (c.port p).disabled100 then d.redetect p else d) :=
  State.live_regs_eq_upd hu hr (Chip.autoRec_eq b)

end

/-- A row that makes the change `g` makes the change `h` that agrees with it on the chip of `s`. -/
theorem State.next_upd_of_eq {o : Host.Outcome State Fault Refusal} {s : State} {g h : Chip → Chip}
    (ho : o = .next (s.upd g)) (e : g s.chip = h s.chip) : o = .next (s.upd h) :=
  ho.trans (congrArg _ (State.upd_congr e))

/-- Settles O10, one row after another: the command reaches its port engine, and its effect is read off the port's
state. That SPARE of a port on the spare, and RETURN of one on its own engine, have no effect is log 67. -/
theorem portCommandsComplete : Obligations.PortCommandsComplete :=
  ⟨fun _ _ k hu hr hb =>
      ⟨execPortReset_taken hu hr hb, execPortSuspend_taken hu hr hb, execPortResume_taken hu hr hb k,
        execRearm_taken hu hr hb, execSpare_taken hu hr hb, execReturnCmd_taken hu hr hb⟩,
    fun _ _ hu hr hb hi hs => State.next_upd_of_eq (execPortReset_taken hu hr hb) (Chip.cmdReset_accepted hi hs),
    fun _ _ k hu hr hb hy hd =>
      ⟨State.next_upd_of_eq (execPortReset_taken hu hr hb) (Chip.cmdReset_busy hy),
        State.next_upd_of_eq (execPortSuspend_taken hu hr hb) (Chip.cmdSuspend_busy hy),
        State.next_upd_of_eq (execPortResume_taken hu hr hb k) (Chip.cmdResume_busy k hy hd)⟩,
    fun _ _ hu hr hb hi hs => State.next_upd_of_eq (execPortSuspend_taken hu hr hb) (Chip.cmdSuspend_accepted hi hs),
    fun _ _ k hu hr hb hi hs =>
      State.next_upd_of_eq (execPortResume_taken hu hr hb k) (Chip.cmdResume_suspended k hi hs),
    fun _ _ => execRearm_taken,
    fun _ _ hu hr hb hi ht hs ho =>
      ⟨State.next_upd_of_eq (execSpare_taken hu hr hb) (Chip.cmdSpare_accepted hi ht hs),
        State.next_upd_of_eq (execReturnCmd_taken hu hr hb) (Chip.cmdReturn_accepted hi ht ho)⟩,
    fun _ _ k hu hr ho =>
      have cmdErr {code : Nat} (k : Bool) := State.live_portCmd_outOfService (code := code) hu hr k ho
      ⟨cmdErr false (by decide), cmdErr false (by decide), cmdErr k (by decide), cmdErr false (by decide),
        cmdErr false (by decide), cmdErr false (by decide)⟩,
    fun _ _ _ hu hr => execTestModeSet_enters hu hr, fun _ _ => execTestModeClear_test,
    fun _ _ b hu hr => execAutorecWrite_taken hu hr b⟩

end Sys2Proof.Machine
end

section
/-!
SUPPORT. The rows of a port's timers and line events, and of the failover of its engine.
-/
namespace Sys2Proof.Machine

section
variable {s : State} {p : Fin 128}

/-! ### Reset (R216, R233, R234) -/

/-- The reset ends: the port is ENABLED at the speed found and its tokens are held (R216 step 4, R234). -/
def Chip.resetEnds (c : Chip) (p : Nat) : Chip :=
  let c := c.updPort p fun x => { x with
    speed := some (if x.pullup == 1 then .low else if x.chirped then .high else .full)
    chirped := false, chirpOver := false, tokHold := true, afterReset := true, idle := 0 }
  let c := ((c.emit (.usb p .idle)).setPort p .enabled).portEvent p Ev.resetDone
  (c.each (c.treeWqs p) fun c w => c.updWq w.1 w.2 fun q => { q with suspHold := false }).dozeWake 8

theorem execResetSe0End_resetting (hu : s.up) (hs : (s.chip.port p).st = .resetting) :
    execResetSe0End p s = .next (s.upd fun c => c.resetEnds p) :=
  State.live_eq_upd hu (if_pos hs)

theorem execTokenHoldEnd_held (hu : s.up) (hs : (s.chip.port p).st = .enabled)
    (ht : (s.chip.port p).tokHold = true) :
    execTokenHoldEnd p s = .next (s.upd fun c =>
      let d := c.updPort p fun x => { x with tokHold := false, afterReset := false }
      (if (c.port p).afterReset then d.afterPortReset p else d).portReach p) :=
  State.live_eq_upd hu (if_neg (by simp [hs, ht]))

theorem execDebounceEnd_connecting (hu : s.up) (hs : (s.chip.port p).st = .connecting)
    (hr : s.chip.cluRuns (p / 8) = true) : execDebounceEnd p s = .next (s.upd fun c => c.resetNow p) :=
  State.live_eq_upd hu (if_pos ⟨hs, hr⟩)

theorem execDeviceChirp_inWindow (hu : s.up) (hs : (s.chip.port p).st = .resetting)
    (hf : (s.chip.port p).pullup = 2) (hc : (s.chip.port p).chirped = false)
    (ho : (s.chip.port p).chirpOver = false) :
    execDeviceChirp p s = .next (s.upd fun c =>
      (c.updPort p fun x => { x with chirped := true }).emit (.usb p .chirpK)) :=
  State.live_eq_upd hu (if_pos (by simp [hs, hf, hc, ho]))

theorem execChirpWindowEnd_silent (hu : s.up) (hs : (s.chip.port p).st = .resetting)
    (hf : (s.chip.port p).pullup = 2) (hc : (s.chip.port p).chirped = false) :
    execChirpWindowEnd p s = .next (s.upd fun c => c.updPort p fun x => { x with chirpOver := true }) :=
  State.live_eq_upd hu (if_pos (by simp [hs, hf, hc]))

theorem execHostChirpStop_chirped (hu : s.up) (hs : (s.chip.port p).st = .resetting)
    (hc : (s.chip.port p).chirped = true) :
    execHostChirpStop p s = .next (s.upd fun c => c.emit (.usb p .chirpStop)) :=
  State.live_eq_upd hu (if_pos ⟨hs, hc⟩)

/-! ### Resume, L1 and line states (R220, R224, R232) -/

theorem execResumeDelayEnd_suspended (hu : s.up) (hs : (s.chip.port p).st = .suspended) :
    execResumeDelayEnd p s = .next (s.upd fun c => c.updPort p fun x => { x with resided := true }) :=
  State.live_eq_upd hu (if_pos hs)

theorem execResumeDelayEnd_waiting (hu : s.up) (hs : (s.chip.port p).st = .resuming)
    (hd : (s.chip.port p).driveK = false) (hk : (s.chip.port p).kEnded = false) :
    execResumeDelayEnd p s = .next (s.upd fun c => (c.updPort p fun x => { x with resided := true }).startK p) :=
  State.live_eq_upd hu (by simp [hs, hd, hk])

/-- The K that a port in the state `st` drives ends, whether of a resume or of an L1 exit (R220, R224). -/
theorem Chip.endK_driven {c : Chip} {p : Nat} {st : PortSt} (hd : (c.port p).driveK = true)
    (hs : (c.port p).st = st) :
    c.endK p st = (c.updPort p fun x => { x with driveK := false, kEnded := true }).emit (.usb p .lsEop) :=
  if_pos ⟨hs, hd⟩

theorem execLineStateChange_inService (l : Line) (dmHigh : Bool) (hu : s.up)
    (hr : s.chip.cluRuns (p / 8) = true) (ho : s.chip.outOfService p = false) :
    execLineStateChange p l dmHigh s = .next (s.upd fun c => c.lineChange p l dmHigh) :=
  State.live_eq_upd hu (if_neg (by simp [hr, ho, hu.2.1]))

theorem execL1Exit_due (k : Bool) (hu : s.up) (hs : (s.chip.port p).st = .l1)
    (hd : (s.chip.port p).thenSuspend = true ∨ s.chip.treeIdle p = false) :
    execL1Exit p k s = .next (s.upd fun c => c.leaveL1 p true k) :=
  State.live_eq_upd hu (if_pos (by simp [hs, hd]))

/-! ### Failover (R227, R228, R574) -/

theorem execEngineStateError_runs (hu : s.up) (hr : s.chip.engineRuns p = true) :
    execEngineStateError p s = .next (s.upd fun c => (c.report p Kind.uncorrectable 0).takeOver p true) :=
  State.live_eq_upd hu (if_pos hr)

theorem execCheckpointTimeout_runs (hu : s.up) (hr : s.chip.engineRuns p = true) :
    execCheckpointTimeout p s = .next (s.upd fun c => (c.report p Kind.timeout 0).takeOver p true) :=
  State.live_eq_upd hu (if_pos hr)

/-- A port with no SOF instant to wait for is served by the spare at once (R574). -/
theorem execSpareLoadDone_quiet (ok : Bool) (hu : s.up) (ht : (s.chip.port p).takeover = true)
    (he : (s.chip.port p).st ≠ .enabled) (hn : s.chip.spareServes p = none) (hr : s.chip.engineRuns p = true) :
    execSpareLoadDone p ok s = .next (s.upd fun c =>
      if ok then
        ((c.updPort p fun x => { x with spare := true, loaded := true }).updPort p fun x =>
          { x with takeover := false, loaded := false, failovers := satAdd 255 x.failovers 1, ckptMfn := c.mfn
            }).portEvent p Ev.failover
      else (c.report p Kind.uncorrectable 0).lostPort p) := by
  refine State.live_eq_upd hu ((if_neg (by simp [ht, hn, hr])).trans ?_)
  cases ok with
  | false => rfl
  | true => simp [he]

end

/-- Settles O11, one row after another. -/
theorem portTimersComplete : Obligations.PortTimersComplete :=
  ⟨fun _ _ => execResetSe0End_resetting, fun _ _ => execTokenHoldEnd_held,
    fun _ _ hu => ⟨execResumeDelayEnd_suspended hu, execResumeDelayEnd_waiting hu⟩,
    fun _ _ hu hd =>
      ⟨fun hs => State.live_eq_upd hu (Chip.endK_driven hd hs),
        fun hs => State.live_eq_upd hu (Chip.endK_driven hd hs)⟩,
    fun _ _ l dmHigh => execLineStateChange_inService l dmHigh, fun _ _ => execDebounceEnd_connecting,
    fun _ _ hu hs hf =>
      ⟨execDeviceChirp_inWindow hu hs hf, execChirpWindowEnd_silent hu hs hf, execHostChirpStop_chirped hu hs⟩,
    fun _ _ k => execL1Exit_due k,
    fun _ _ hu hr => ⟨execEngineStateError_runs hu hr, execCheckpointTimeout_runs hu hr⟩,
    fun _ _ ok => execSpareLoadDone_quiet ok⟩

end Sys2Proof.Machine
end

section
/-!
SUPPORT. The rows of the port power link, of the port's power and of the monitor.
-/
namespace Sys2Proof.Machine

section
variable {s : State} {k : Fin 16}

/-! ### The link of a cluster (R236, R239) -/

theorem execPplFrameStart_alive (ha : s.alive) : execPplFrameStart k s = .next (s.upd fun c => c.pplFrame k) :=
  State.run_alive ha

theorem execPplReturnFrame_running (w : BitVec 22) (hu : s.up) (hr : s.chip.cluRuns k = true)
    (hs : (s.chip.clu k).stopped = false) :
    execPplReturnFrame k w s = .next (s.upd fun c =>
      match pplReturn w with
      | some r => (c.pplValid k r.1 r.2.1 r.2.2).sleepJudge
      | none => c.pplInvalid k) := by
  refine State.live_eq_upd hu ((if_neg (by simp [hr, hs])).trans ?_)
  cases pplReturn w with
  | none => rfl
  | some r => rfl

/-- The link of cluster `k` is lost: it is counted, reported and raised, and the power of its ports is removed (R239). -/
def Chip.linkLost (c : Chip) (k : Nat) : Chip :=
  let c := c.updClu k fun x => { x with
    lost := true, byReset := false, linkUp := false, good := 0, losses := satAdd 0xFFFF x.losses 1 }
  let c := (c.report (0x080 + k) Kind.linkDown 0).shPulse k
  c.each ((List.range 8).map fun i => 8 * k + i) fun c p =>
    if (c.port p).pw.want then (c.removePower p 6).updPw p fun y => { y with poweredAtLoss := true } else c

theorem execPplLinkTimeout_up (ha : s.alive) (hr : s.chip.cluRuns k = true) (hl : (s.chip.clu k).lost = false)
    (hh : (s.chip.clu k).holding = false) : execPplLinkTimeout k s = .next (s.upd fun c => c.linkLost k) :=
  State.run_eq_upd ha (if_neg (by simp [hr, hl, hh]))

/-! ### A cluster that does not hold in time (R240) -/

section
variable (hu : s.up) (hs : (s.chip.sleepJudge.clu k).stopped = false)
include hu hs

theorem execHoldTimeout_sleep (h3 : (s.chip.sleepJudge.clu k).slStep = 3) :
    execHoldTimeout k s = .next (s.upd fun c => c.sleepJudge.cluAbort k 2) :=
  State.live_eq_upd hu ((if_neg (by simp [hs])).trans (if_pos h3))

theorem execHoldTimeout_entry (h3 : (s.chip.sleepJudge.clu k).slStep ≠ 3)
    (he : s.chip.sleepJudge.pwr.st = .entering) (h5 : s.chip.sleepJudge.pwr.step = 5)
    (hh : (s.chip.sleepJudge.clu k).holding = true) :
    execHoldTimeout k s = .next (s.upd fun c =>
      let d := c.sleepJudge
      (d.updPwr fun x => { x with notHeld := d.awakeClus.filter fun j => !(d.clu j).stopped }).abortEntry 2) :=
  State.live_eq_upd hu (((if_neg (by simp [hs])).trans (if_neg h3)).trans (if_pos ⟨he, h5, hh⟩))

end

/-! ### The monitor and load shedding (R241, R254) -/

theorem execMonitorConversion_running (ch : Fin 9) (raw : Fin 16384) (ha : s.alive) (hr : s.chip.cluRuns k = true) :
    execMonitorConversion k ch raw s = .next (s.upd fun c =>
      if ch.val = 8 then c.senseCurrent k (correct (c.monCal k 8) raw)
      else c.senseVolts (8 * k + ch) (correct (c.monCal k ch) raw)) :=
  State.run_eq_upd ha (if_neg (by simp [hr]))

theorem execLoadShedRepeat_shedding (ha : s.alive) (hs : (s.chip.clu k).shedding = true)
    (hr : s.chip.cluRuns k = true) : execLoadShedRepeat k s = .next (s.upd fun c => c.shedOne k) :=
  State.run_eq_upd ha (if_pos (by simp [hs, hr]))

end

/-- Settles O12, one row after another. -/
theorem portPowerLinkComplete : Obligations.PortPowerLinkComplete :=
  ⟨fun _ _ => execPplFrameStart_alive, fun _ _ => execPplReturnFrame_running, fun _ _ => execPplLinkTimeout_up,
    fun _ _ hu hs => ⟨execHoldTimeout_sleep hu hs, execHoldTimeout_entry hu hs⟩,
    fun _ _ => execMonitorConversion_running⟩

section
variable {s : State} {p : Fin 128}

/-! ### A port's power, its enables and its retries (R244 to R246, R253) -/

section
variable (ha : s.alive)
include ha

theorem execPowerGoodTimeout_awaiting (hw : (s.chip.port p).pw.awaiting = true) :
    execPowerGoodTimeout p s = .next (s.upd fun c => c.brownOut p) :=
  State.run_eq_upd ha (if_pos hw)

theorem execPortPowerEnable_due {r : Bool} (hd : (s.chip.port p).pw.enableDue = some r) :
    execPortPowerEnable p s = .next (s.upd fun c => c.enablePort p r) :=
  State.run_eq_upd ha (by rw [hd])

theorem execPowerRetry_due (hd : (s.chip.port p).pw.retryDue = true) :
    execPowerRetry p s = .next (s.upd fun c =>
      (c.updPw p fun y => { y with retryDue := false }).enablePort p true) :=
  State.run_eq_upd ha (if_pos hd)

theorem execRetryCountClear_alive : execRetryCountClear p s = .next (s.upd fun c =>
    c.updPw p fun y => if y.want && !y.awaiting then { y with retried := 0 } else y) :=
  State.run_alive ha

/-! ### The writes of PRT_PWRCTRL (R246, R253, R508) -/

theorem execPwroffWrite_inService (b : Bool) (ho : s.chip.outOfService p = false) :
    execPwroffWrite p b s = .next (s.upd fun c => c.pwrOffWrite p b) :=
  State.run_eq_upd ha (if_neg (by simp [ho]))

theorem execPrtPwrctrlRetry_inService (ho : s.chip.outOfService p = false) :
    execPrtPwrctrlRetry p s = .next (s.upd fun c => c.retryWrite p) :=
  State.run_eq_upd ha (if_neg (by simp [ho]))

theorem execPwroffWrite_outOfService (b : Bool) (ho : s.chip.outOfService p = true) :
    execPwroffWrite p b s = .next (s.upd fun c => c.portEvent p Ev.cmdErr) :=
  State.run_eq_upd ha (if_pos ho)

theorem execPrtPwrctrlRetry_outOfService (ho : s.chip.outOfService p = true) :
    execPrtPwrctrlRetry p s = .next (s.upd fun c => c.portEvent p Ev.cmdErr) :=
  State.run_eq_upd ha (if_pos ho)

/-! ### Primary detection (R256) -/

/-- That the detection is noted in CDPSEEN leaves alone what decides whether DM is driven. -/
theorem execCdpDetect_drives (hc : (s.chip.port p).pw.cdpEn = true) (hi : (s.chip.port p).pw.ilimHi = true)
    (he : (s.chip.port p).pw.en = true)
    (hs : (s.chip.port p).st = .disconnected ∨ (s.chip.port p).st = .connecting)
    (hd : (s.chip.port p).pw.cdpDrive = false) :
    execCdpDetect p s = .next (s.upd fun c =>
      ((c.updPw p fun y => { y with cdpSeen := true }).updPw p fun y => { y with cdpDrive := true }).emit
        (.usb p (.cdp true))) :=
  State.run_eq_upd ha (if_pos (by simp [Chip.updPw, hc, hi, he, hs, hd]))

theorem execCdpDpRangeExit_driving (hd : (s.chip.port p).pw.cdpDrive = true) :
    execCdpDpRangeExit p s = .next (s.upd fun c =>
      (c.updPw p fun y => { y with cdpDrive := false }).emit (.usb p (.cdp false))) :=
  State.run_eq_upd ha (if_pos hd)

end

end

/-- Settles O13, one row after another. -/
theorem portPowerActionsComplete : Obligations.PortPowerActionsComplete :=
  ⟨fun _ _ => execPowerGoodTimeout_awaiting, fun _ _ _ ha => execPortPowerEnable_due ha,
    fun _ _ => execLoadShedRepeat_shedding, fun _ _ => execPowerRetry_due,
    fun _ _ ha _ _ => execRetryCountClear_alive ha,
    fun _ _ b ha ho => ⟨execPwroffWrite_inService ha b ho, execPrtPwrctrlRetry_inService ha ho⟩,
    fun _ _ b ha ho => ⟨execPwroffWrite_outOfService ha b ho, execPrtPwrctrlRetry_outOfService ha ho⟩,
    fun _ _ ha => ⟨execCdpDetect_drives ha, execCdpDpRangeExit_driving ha⟩⟩

end Sys2Proof.Machine
end

section
/-!
SUPPORT. The requests given to services, ENUM's among them, and ENUM's timers.
-/
namespace Sys2Proof.Machine

/-! ### A request given to its service (R336) -/

section
variable {s : State} {f : Fin 128} {n : Fin 64} {count : Word} {q : Wq} {h : Nat} {i : Inst} {x : Xfer} {v : Svc}
  {req : Nat}

/-- The row of a request that waits gives it to its service. -/
theorem State.live_giveRequest {p : Svc → Xfer → Bool} (ha : s.asks f n count q h i x v req) (hp : p v x = true) :
    (s.live fun c => c.giveRequest f n count p) = .next (s.upd fun c => c.runRequest h f n i x) := by
  obtain ⟨hu, hq, hh, hi, hx, -, hr, hf, rfl, -, -, -⟩ := ha
  exact State.live_eq_upd hu (Chip.giveRequest_given hq hx hh hi hr hf hp)

theorem isReq_asks (ha : s.asks f n count q h i x v req) : isReq v req v x = true := by
  obtain ⟨-, -, -, -, -, -, -, -, -, ht, hr, -⟩ := ha
  simp [isReq, ht, hr]

/-! ### RECV (R343) -/

/-- RECV is served for every service alike. -/
theorem Chip.runRequest_recv (c : Chip) (ht : x.d.ty = some .svcReq) (hr : x.d.req = 0x80) :
    c.runRequest h f n i x = ((c.begun f n x).flushWq f n).recvTry h :=
  if_pos ⟨ht, hr⟩

theorem execRecv_asks (ha : s.asks f n count q h i x v 0x80) :
    execRecv f n count s = .next (s.upd fun c => ((c.begun f n x).flushWq f n).recvTry h) := by
  obtain ⟨-, -, -, -, -, -, -, -, -, ht, hr, -⟩ := id ha
  exact (State.live_giveRequest ha (by simp [ht, hr])).trans
    (congrArg _ (State.upd_congr (Chip.runRequest_recv _ ht hr)))

end

/-! ### ENUM's requests (R266) -/

section
variable {c : Chip} {f n : Nat} {x : Xfer} {d : Dev}

section
variable (hd : c.reqDev f x.d.argA = .inr d)
include hd

theorem Chip.enumRequest_describe (hr : x.d.req = 0x01) :
    c.enumRequest f n x = c.svcAnswer (0x800 + f) f n x (c.describe x.d.argA d) := by
  simp [Chip.enumRequest, hr, hd]

theorem Chip.enumRequest_devReset (hr : x.d.req = 0x08) :
    c.enumRequest f n x = c.enumAdd d.port (.reset x.d.argA (some (f, n, x.count))) := by
  simp [Chip.enumRequest, hr, hd]

/-- SET_CONFIG, SET_ALT, DEV_SUSPEND and DEV_RESUME. -/
theorem Chip.enumRequest_job (hr : x.d.req = 0x02 ∨ x.d.req = 0x03 ∨ x.d.req = 0x06 ∨ x.d.req = 0x07) :
    c.enumRequest f n x = c.enumAdd d.port (.request f n x.count) := by
  rcases hr with hr | hr | hr | hr <;> simp [Chip.enumRequest, hr, hd]

end

section
variable {e : Ep} (he : c.ep x.d.argA = some e) (hg : e.gone = false) (hd : c.reqDev f e.dev = .inr d)
include he hg hd

theorem Chip.enumRequest_epReset (hr : x.d.req = 0x04) :
    c.enumRequest f n x =
      if x.d.argB % 2 = 0 then
        (c.updEp x.d.argA fun e => { e with toggle := false, strikes := 0, ping := false, halted := false }).svcOk f n x
      else c.enumAdd d.port (.request f n x.count) := by
  simp [Chip.enumRequest, hr, he, hg, hd]

theorem Chip.enumRequest_epConfig (hr : x.d.req = 0x05) :
    c.enumRequest f n x = (c.updEp x.d.argA fun e => { e with weight := x.d.argB % 32 }).svcOk f n x := by
  simp [Chip.enumRequest, hr, he, hg, hd]

end

end

section
variable {s : State} {f : Fin 128} {n : Fin 64} {count : Word} {q : Wq} {h : Nat} {i : Inst} {x : Xfer} {d : Dev}
  {req : Nat}

/-- A request to ENUM, once given to it, has the effect `g` that it has on the chip of `s`. -/
theorem State.live_enumRequest {g : Chip → Chip} (ha : s.asks f n count q h i x .enum req) (hr : req ≠ 0x80)
    (he : x.d.req = req → (s.chip.begun f n x).enumRequest f n x = g s.chip) :
    (s.live fun c => c.giveRequest f n count (isReq .enum req)) = .next (s.upd g) := by
  rw [State.live_giveRequest ha (isReq_asks ha)]
  obtain ⟨-, -, -, -, -, -, -, -, hv, -, hc, hd⟩ := ha
  refine congrArg _ (State.upd_congr ?_)
  rw [Chip.runRequest_served (hc ▸ hr) hd, hv]
  exact he hc

section
variable (hd : (s.chip.begun f n x).reqDev f x.d.argA = .inr d)
include hd

theorem execEnumDescribe_owned (ha : s.asks f n count q h i x .enum 0x01) :
    execEnumDescribe f n count s = .next (s.upd fun c =>
      (c.begun f n x).svcAnswer (0x800 + f) f n x ((c.begun f n x).describe x.d.argA d)) :=
  State.live_enumRequest ha (by decide) (Chip.enumRequest_describe hd)

theorem execDevReset_owned (ha : s.asks f n count q h i x .enum 0x08) :
    execDevReset f n count s = .next (s.upd fun c =>
      (c.begun f n x).enumAdd d.port (.reset x.d.argA (some (f, n, x.count)))) :=
  State.live_enumRequest ha (by decide) (Chip.enumRequest_devReset hd)

/-- The row of a request that becomes a job of the root port of the device it names. -/
theorem State.live_enumJob (ha : s.asks f n count q h i x .enum req)
    (hj : req = 0x02 ∨ req = 0x03 ∨ req = 0x06 ∨ req = 0x07) :
    (s.live fun c => c.giveRequest f n count (isReq .enum req)) =
      .next (s.upd fun c => (c.begun f n x).enumAdd d.port (.request f n x.count)) :=
  State.live_enumRequest ha (by omega) fun hr => Chip.enumRequest_job hd (hr ▸ hj)

end

section
variable {e : Ep} (he : s.chip.ep x.d.argA = some e) (hg : e.gone = false)
  (hd : (s.chip.begun f n x).reqDev f e.dev = .inr d)
include he hg hd

theorem execEpReset_owned (ha : s.asks f n count q h i x .enum 0x04) :
    execEpReset f n count s = .next (s.upd fun c =>
      if x.d.argB % 2 = 0 then
        ((c.begun f n x).updEp x.d.argA fun e =>
          { e with toggle := false, strikes := 0, ping := false, halted := false }).svcOk f n x
      else (c.begun f n x).enumAdd d.port (.request f n x.count)) :=
  State.live_enumRequest ha (by decide) (Chip.enumRequest_epReset (by simpa using he) hg hd)

theorem execEpConfig_owned (ha : s.asks f n count q h i x .enum 0x05) :
    execEpConfig f n count s = .next (s.upd fun c =>
      ((c.begun f n x).updEp x.d.argA fun e => { e with weight := x.d.argB % 32 }).svcOk f n x) :=
  State.live_enumRequest ha (by decide) (Chip.enumRequest_epConfig (by simpa using he) hg hd)

end

end

/-! ### The timeouts of ENUM (R258, R259, R262) -/

section
variable {s : State}

theorem execEnumRequestTimeout_up (p : Fin 128) (hu : s.up) :
    execEnumRequestTimeout p s = .next (s.upd fun c => c.enumTimeout p) :=
  State.live_up hu

/-- The reset of a hub port that the run waits for at once has not ended (R259 step 6). -/
theorem execHubPortResetTimeout_waiting {p : Fin 128} {hub k a b : Nat} {w0 w1 : Word} {y : Bool} {rest : List EnumAct}
    (hu : s.up) (hk : s.chip.resetPos p = some (hub, k))
    (hr : (s.chip.port p).run.acts = .req a b w0 w1 .resetEnd y :: rest) :
    execHubPortResetTimeout p s = .next (s.upd fun c =>
      if (c.port p).run.resets < 2 then
        ((((c.enumTimeout p).nextGen p).updRun p fun r => { r with resets := r.resets + 1 }).setActs p
          (hubResetActs hub k ++ rest)).happen p 0 (.enum p 6 0)
      else (((c.enumTimeout p).nextGen p).setActs p rest).enumHard p St.timeout 0) :=
  State.live_eq_upd hu (by simp [hk, hr])

theorem execEnumMessageWaitEnd_up (f : Fin 128) (hu : s.up) :
    execEnumMessageWaitEnd f s = .next (s.upd fun c => (c.refillInst (0x800 + f)).recvTry (0x800 + f)) :=
  State.live_up hu

end

/-- Settles O14, one row after another. -/
theorem enumerationRowsComplete : Obligations.EnumerationRowsComplete :=
  ⟨fun _ _ _ _ _ _ _ _ _ ha hd => execEnumDescribe_owned hd ha,
    fun _ _ _ _ _ _ _ _ _ ha hd => State.live_enumJob hd ha (by decide),
    fun _ _ _ _ _ _ _ _ _ ha hd => State.live_enumJob hd ha (by decide),
    fun _ _ _ _ _ _ _ _ _ ha hd => State.live_enumJob hd ha (by decide),
    fun _ _ _ _ _ _ _ _ _ ha hd => State.live_enumJob hd ha (by decide),
    fun _ _ _ _ _ _ _ _ _ ha hd => execDevReset_owned hd ha,
    fun _ _ _ _ _ _ _ _ _ _ ha he hg hd => execEpReset_owned he hg hd ha,
    fun _ _ _ _ _ _ _ _ _ _ ha he hg hd => execEpConfig_owned he hg hd ha,
    fun _ _ _ _ _ _ _ _ _ ha => execRecv_asks ha,
    fun _ p => execEnumRequestTimeout_up p, fun _ _ _ _ _ _ _ _ _ _ => execHubPortResetTimeout_waiting,
    fun _ f => execEnumMessageWaitEnd_up f⟩

end Sys2Proof.Machine
end

section
/-!
SUPPORT. The rows of long operations as they run (R434, R438), and of the words of Garnet that are corrected and
scrubbed (R273, R299).
-/
namespace Sys2Proof.Machine

section
variable {s : State} {i : Fin 65536} {o : Op}

/-! ### Safe points and ends of operations (R434, R438) -/

/-- An operation that is no test and no measurement has nothing under way that its safe point would wait for. -/
def Chip.mayPause (c : Chip) (o : Op) : Prop :=
  o.kind = .scrub ∨ o.kind = .download ∧ c.opOnWire o = false ∧ o.byPower = false ∨
  o.kind = .streamJob ∧ c.opOnWire o = false ∨ o.kind = .reshape ∧ c.inMove o = false

theorem execLongOpSafePoint_mayPause (hu : s.up) (ho : s.chip.op i = some o) (hr : o.st = .running)
    (hp : s.chip.mayPause o) : execLongOpSafePoint i s = .next (s.upd fun c => c.safePoint i) := by
  refine State.live_eq_upd hu ?_
  rcases hp with hk | ⟨hk, hw, hb⟩ | ⟨hk, hw⟩ | ⟨hk, hm⟩
  · simp [ho, hr, hk]
  · simp [ho, hr, hk, hw, hb]
  · simp [ho, hr, hk, hw]
  · simp [ho, hr, hk, hm]

theorem execLongOpSafePoint_measure (hu : s.up) (ho : s.chip.op i = some o) (hr : o.st = .running)
    (hk : o.kind = .calMeasure) :
    execLongOpSafePoint i s = .next (s.upd fun c =>
      (if o.progress + 1 < o.total then
        (c.updOp i fun x => { x with progress := x.progress + 1 }).measureTask
      else c).safePoint i) :=
  State.live_eq_upd hu (by simp [ho, hr, hk])

/-- What the end of operation `i`, whose record is `o`, does by its kind; `fail` and `found` are the findings of a test
or of a measurement (R438). -/
def Chip.opEnds (c : Chip) (i : Fin 65536) (o : Op) (fail : Option (Nat × Nat)) (found : List Word) : Chip :=
  match o.kind with
  | .engine | .lane | .dramRegion | .monitor =>
    if o.st = .cancelling then c.testCancelled o else if o.st = .running then c.testDone o fail found else c
  | .calMeasure => c.cmDone o found
  | .scrub => c.scrubDone o
  | .reshape => c.reshapeEnd i
  | .download => c.dlDone i
  | .streamJob => c

theorem execLongOpDone_ends (fail : Option (Nat × Nat)) (found : List Word) (hu : s.up)
    (ho : s.chip.op i = some o) (hd : o.st ≠ .done) (hh : s.chip.dmaHeld 0 = false) :
    execLongOpDone i fail found s = .next (s.upd fun c => c.opEnds i o fail found) :=
  State.live_eq_upd hu (by cases hk : o.kind <;> simp [Chip.opEnds, ho, hd, hh, hk])

/-- A SUSPENDED download keeps its next chunk until it is resumed (R434). -/
theorem execPeriphDownloadDelayExpiry_delayed (hu : s.up) (ho : s.chip.op i = some o) (hk : o.kind = .download)
    (hd : o.delay = true) :
    execPeriphDownloadDelayExpiry i s = .next (s.upd fun c =>
      let d := c.updOp i fun x => { x with delay := false }
      if o.st = .running then d.dlSend i else d) :=
  State.live_eq_upd hu (by simp [ho, hk, hd])

end

/-! ### The scrubber and the words it corrects (R273, R299) -/

section
variable {s : State}

theorem execScrubPeriodStart_starts {r : Chip} (hu : s.up) (hg : s.chip.grn.dramScrub = true)
    (hn : s.chip.scrubOp = none) (hr : s.chip.opRoom 0 = some r) :
    execScrubPeriodStart s = .next (s.upd fun _ => (r.newOp 0 .scrub 0xFFFF [] 4096).2) :=
  State.live_eq_upd hu (by simp [hg, hn, hr])

/-- A word of the DRAM that the scrubber reads in its pass; SRAM, whose groups are not 0, is scrubbed outside a pass
(R299). -/
theorem execScrubAccess_dram {w : GarnetWord} {o : Op} (addr : Fin 0x10000000) (e : Option Bool) (hu : s.up)
    (hw : (wordOf w).group = 0) (ho : s.chip.scrubOp = some o) (hr : o.st = .running)
    (hd : s.chip.dramRuns = true) :
    execScrubAccess w addr e s = .next (s.upd fun c =>
      ((match e with | none => c | some bad => c.wordError (wordOf w) addr.val bad).wroteBack addr.val).updOp o.opid
        fun x => { x with progress := max x.progress ((addr.val + 8) / 65536) }) :=
  State.live_eq_upd hu (by cases e <;> simp [hw, ho, hr, hd])

theorem execCorrectionWriteBack_up (addr : Fin 0x10000000) (hu : s.up) :
    execCorrectionWriteBack addr s = .next (s.upd fun c => c.wroteBack addr.val) :=
  State.live_up hu

end

/-- Settles O7, one row after another. -/
theorem longOperationEventsComplete : Obligations.LongOperationEventsComplete :=
  ⟨fun _ _ _ => execLongOpSafePoint_mayPause, fun _ _ _ => execLongOpSafePoint_measure,
    fun _ _ _ fail found => execLongOpDone_ends fail found, fun _ _ => execScrubPeriodStart_starts,
    fun _ _ addr e _ => execScrubAccess_dram addr e, fun _ => execCorrectionWriteBack_up,
    fun _ _ _ => execPeriphDownloadDelayExpiry_delayed⟩

end Sys2Proof.Machine
end

section
/-!
SUPPORT. The rows of the pool and of the mover, and the writes of a channel's settings.
-/
namespace Sys2Proof.Machine

section
variable {s : State}

/-! ### The mover (R286, R292) -/

theorem execMoverRequestIssue_clean (hu : s.up) (hr : s.chip.fabricRuns = true) :
    execMoverRequestIssue none s = .next (s.upd fun c => c.moverIssue) :=
  State.live_eq_upd hu (if_neg (by simp [hr]))

/-- A read for a function that is not homed returns what host memory does. -/
theorem Chip.hostReadData_unhomed {c : Chip} {f : Nat} (a : Addr) (n : Nat) (bs : List Byte)
    (hh : (c.fn f).home = none) : c.hostReadData f a n bs = bs := by
  simp [Chip.hostReadData, hh]

/-- The pool and the mover are no part of a function. -/
@[simp] theorem Chip.fn_updGrn (c : Chip) (g : Grn → Grn) (f : Nat) : (c.updGrn g).fn f = c.fn f :=
  Chip.fn_of rfl f

theorem execMoverReadReturn_whole {k : Fin 512} {bs : List Byte} {r : MovRead} (hu : s.up)
    (hr : s.chip.grn.reads[k.val]? = some r) (hh : (s.chip.fn r.fn).home = none) (hl : bs.length = r.len) :
    execMoverReadReturn k bs s = .next (s.upd fun c =>
      (c.updGrn fun g => { g with reads := g.reads.eraseIdx k }).readReturn r bs) :=
  State.live_eq_upd hu (by simp [hr, hh, hl, Chip.hostReadData_unhomed])

/-! ### Grants and settings (R280 to R282, R302) -/

/-- The cell is filled from the pool for an IN channel, and lent to an OUT channel (R280, R281). -/
theorem execCellGrant_waiter {h : Nat} (hu : s.up) (hw : s.chip.nextWaiter = some h) :
    execCellGrant s = .next (s.upd fun c =>
      match c.chan h with
      | some ch => if ch.x.d.dataIn then c.supplyEp h else c.lendOut h
      | none => c.lendOut h) :=
  State.live_eq_upd hu (by cases hc : s.chip.chan h <;> simp [hw, hc])

/-- Endpoint `e` with the settings of a write of GRN_CHMARK, or of GRN_CHCFG, where it takes them; `ctlDir` is the
direction of a control endpoint whose marks are written (R282, R302). -/
def Ep.withSettings (e : Ep) (ctlDir mark : Bool) (w : Word) : Option Ep :=
  if mark then e.setMarks (if e.type = .control then ctlDir else e.isIn) (bits w 24 16) (bits w 8 0)
  else e.setQuota (bits w 23 16) (bits w 31 24)

theorem execChannelSettingsWrite_taken {mark : Bool} {w : Word} {e y : Ep} (hu : s.up)
    (he : s.chip.ep s.chip.grn.sel = some e) (hy : e.withSettings s.chip.grn.ctlDir mark w = some y) :
    execChannelSettingsWrite mark w s = .next (s.upd fun c => c.updEp c.grn.sel fun _ => y) := by
  unfold Ep.withSettings at hy
  exact State.live_eq_upd hu (by simp [Chip.channelWrite, he, hy])

theorem execChannelSettingsWrite_unselected (mark : Bool) (w : Word) (hu : s.up)
    (he : s.chip.ep s.chip.grn.sel = none) :
    execChannelSettingsWrite mark w s = .next (s.upd fun c => c.updGrn fun g => { g with cfgerr := true }) :=
  State.live_eq_upd hu (by simp [Chip.channelWrite, he])

end

/-- Settles O18, one row after another. -/
theorem moverAndPoolRowsComplete : Obligations.MoverAndPoolRowsComplete :=
  ⟨fun _ => execMoverRequestIssue_clean, fun _ _ _ _ => execMoverReadReturn_whole, fun _ _ => execCellGrant_waiter,
    fun _ _ _ _ _ => execChannelSettingsWrite_taken, fun _ mark w => execChannelSettingsWrite_unselected mark w⟩

end Sys2Proof.Machine
end

section
/-!
SUPPORT. The requests to HIDX, CCID, STRM and HLTH, stream jobs, and what a bound service takes up from its device.
-/
namespace Sys2Proof.Machine

/-! ### A request given to its service (R336) -/

/-- The SVC_REQ `x` is given to the service `v` with handle `h`. -/
def Chip.giveTo (c : Chip) (v : Svc) (h f n : Nat) (x : Xfer) : Chip :=
  match v with
  | .enum => c.enumRequest f n x
  | .hidx => c.hidxRequest h f n x
  | .ccid => c.ccidRequest h f n x
  | .strm => c.strmRequest h f n x
  | .hlth => c.hlthRequest h f n x

theorem Chip.runRequest_giveTo {c : Chip} {h f n : Nat} {i : Inst} {x : Xfer} (ht : x.d.ty = some .svcReq)
    (hr : x.d.req ≠ 0x80) (hd : i.st ≠ .detached) :
    c.runRequest h f n i x = (c.begun f n x).giveTo i.svc h f n x := by
  rw [Chip.runRequest_served hr hd]
  cases i.svc with
  | strm => exact if_neg (by simp [ht])
  | enum | hidx | ccid | hlth => rfl

/-- The row of a request, once given to its service, has the effect `g` that the service has on the chip of `s`. -/
theorem State.live_giveTo {s : State} {f : Fin 128} {n : Fin 64} {count : Word} {q : Wq} {h : Nat} {i : Inst} {x : Xfer}
    {v : Svc} {req : Nat} {g : Chip → Chip} (ha : s.asks f n count q h i x v req) (hr : req ≠ 0x80)
    (he : (s.chip.begun f n x).inst h = some i → x.d.req = req → (s.chip.begun f n x).giveTo v h f n x = g s.chip) :
    (s.live fun c => c.giveRequest f n count (isReq v req)) = .next (s.upd g) := by
  rw [State.live_giveRequest ha (isReq_asks ha)]
  obtain ⟨-, -, -, hi, -, -, -, -, rfl, ht, hc, hd⟩ := ha
  refine congrArg _ (State.upd_congr ?_)
  rw [Chip.runRequest_giveTo ht (hc ▸ hr) hd]
  exact he ((Chip.inst_begun ..).trans hi) hc

/-! ### What an active service takes up from its device -/

/-- The row of a packet that an endpoint of the active service with handle `h` holds. -/
theorem State.live_packet {s : State} {h : Nat} {v : Svc} {ty : EpType} {p : Nat → Bool} {e : Nat}
    {g : Nat → Chip → Chip} (hu : s.up) (hs : s.chip.serves h v = true) (hp : s.chip.packetOn h ty p = some e) :
    (s.live fun c =>
      if c.serves h v then
        match c.packetOn h ty p with
        | some e => g e c
        | none => c
      else c) = .next (s.upd (g e)) :=
  State.live_eq_upd hu (by simp [hs, hp])

/-! ### HIDX's requests (R346, R347) -/

section
variable {c : Chip} {h f n : Nat} {i : Inst} {x : Xfer} (hi : c.inst h = some i)
include hi

theorem Chip.hidxRequest_getRdesc (hr : x.d.req = 0x01) :
    c.hidxRequest h f n x = c.svcAnswer h f n x i.hidx.rdesc := by
  simp [Chip.hidxRequest, hi, hr]

/-- The offset given for a map that is refused is that of its first bad field, as the model has it (log 90). -/
theorem Chip.hidxRequest_mapLoad (hr : x.d.req = 0x02) :
    c.hidxRequest h f n x =
      match mapBad x.payload with
      | some o => c.svcFail h f n x 0x0A o
      | none => (c.updHidx h fun y => y.loadMap x.payload).svcOk f n x x.outLen := by
  cases hm : mapBad x.payload with
  | none => simp [Chip.hidxRequest, hi, hr, hm]
  | some o => simp [Chip.hidxRequest, hi, hr, hm]

/-- A wedge mode is for a boot keyboard, and the device is told of a change between it and REPORT. -/
theorem Chip.hidxRequest_setMode (hr : x.d.req = 0x03) (hb : x.d.argA ≠ 0 → c.bootKeyboard i = true)
    (hu : c.unreachable h = false) :
    c.hidxRequest h f n x =
      if (x.d.argA != 0) = (i.hidx.mode != .report) then (c.setMode h x).svcOk f n x
      else c.instCtl h 0 (reqTag 3 x.count) i.dev
        (setup0 0x21 0x0B (if x.d.argA != 0 then 0 else 1), setup1 i.iface 0) := by
  by_cases ha : x.d.argA = 0
  · simp [Chip.hidxRequest, hi, hr, hu, ha]
  · simp [Chip.hidxRequest, hi, hr, hu, ha, hb ha]

theorem Chip.hidxRequest_keymapLoad (hr : x.d.req = 0x04) :
    c.hidxRequest h f n x =
      (c.updHidx h fun y => { y with keymap := if x.d.length = 0 then none else some x.payload }).svcOk f n x
        x.outLen := by
  simp [Chip.hidxRequest, hi, hr]

section
variable (hu : c.unreachable h = false)
include hu

theorem Chip.hidxRequest_setReport (hr : x.d.req = 0x05) (he : c.instEp h .intr false = none) :
    c.hidxRequest h f n x =
      c.instCtl h 0 (reqTag 5 x.count) i.dev
        (setup0 0x21 0x09 (x.d.argA * 256 + x.d.argB), setup1 i.iface x.d.length) x.payload := by
  simp [Chip.hidxRequest, hi, hr, hu, he]

/-- The bytes of an output report on an interrupt OUT endpoint: the report ID before the payload where it is not 0. -/
def Xfer.reportBytes (x : Xfer) : List Byte :=
  (if x.d.argB = 0 then [] else [BitVec.ofNat 8 x.d.argB]) ++ x.payload

theorem Chip.hidxRequest_outputReport {e : Nat} (hr : x.d.req = 0x05) (ha : x.d.argA = 2)
    (he : c.instEp h .intr false = some e) :
    c.hidxRequest h f n x =
      c.instSend h 0 (reqTag 5 x.count) e (mkDesc 4 x.reportBytes.length 0#32 0#32) x.reportBytes := by
  simp [Chip.hidxRequest, Xfer.reportBytes, hi, hr, hu, ha, he]

theorem Chip.hidxRequest_getReport (hr : x.d.req = 0x06) :
    c.hidxRequest h f n x =
      c.instCtl h 0 (reqTag 6 x.count) i.dev
        (setup0 0xA1 0x01 (x.d.argA * 256 + x.d.argB), setup1 i.iface x.d.length) := by
  simp [Chip.hidxRequest, hi, hr, hu]

end

end

/-! ### The gap that ends a string (R350) -/

theorem execScanIdleGap_running {s : State} {h : Fin 2048} {i : Inst} (hu : s.up) (hi : s.chip.inst h = some i)
    (hv : i.svc = .hidx) (hr : i.hidx.idleRun = true) (ht : i.hidx.text ≠ []) :
    execScanIdleGap h s = .next (s.upd fun c => c.endString h true false) :=
  State.live_eq_upd hu (by simp [hi, hv, hr, ht])

/-- Settles O15, one row after another. -/
theorem hidxRowsComplete : Obligations.HidxRowsComplete :=
  ⟨fun _ _ _ _ _ _ _ _ ha => State.live_giveTo ha (by decide) Chip.hidxRequest_getRdesc,
    fun _ _ _ _ _ _ _ _ ha => State.live_giveTo ha (by decide) Chip.hidxRequest_mapLoad,
    fun _ _ _ _ _ _ _ _ ha hb hu =>
      State.live_giveTo ha (by decide) fun hi hr => Chip.hidxRequest_setMode hi hr hb hu,
    fun _ _ _ _ _ _ _ _ ha => State.live_giveTo ha (by decide) Chip.hidxRequest_keymapLoad,
    fun _ _ _ _ _ _ _ _ ha hu he =>
      State.live_giveTo ha (by decide) fun hi hr => Chip.hidxRequest_setReport hi hu hr he,
    fun _ _ _ _ _ _ _ _ _ ha hu hA he =>
      State.live_giveTo ha (by decide) fun hi hr => Chip.hidxRequest_outputReport hi hu hr hA he,
    fun _ _ _ _ _ _ _ _ ha hu => State.live_giveTo ha (by decide) fun hi => Chip.hidxRequest_getReport hi hu,
    fun _ h _ hu hs hp => State.live_packet (g := fun e c => c.hidxPacket h e) hu hs hp,
    fun _ _ _ => execScanIdleGap_running⟩

/-! ### CCID's requests (R354, R359) -/

/-- The request `x` waits at slot `x.d.argA` behind the command that is out there. -/
def Chip.ccidWait (c : Chip) (h f n : Nat) (x : Xfer) : Chip :=
  c.updSlot h x.d.argA fun z => { z with todo := z.todo ++ [(f, n, x.count)] }

/-- The request `x` has its slot, `x.d.argA`, to itself. -/
def Chip.ccidTake (c : Chip) (h f n : Nat) (x : Xfer) : Chip :=
  c.updSlot h x.d.argA fun z => { z with req := some (f, n, x.count) }

section
variable {c : Chip} {h f n : Nat} {i : Inst} {x : Xfer} (hi : c.inst h = some i)
include hi

theorem Chip.ccidRequest_slotStatus (hr : x.d.req = 0x04) :
    c.ccidRequest h f n x =
      c.svcOk f n x 0 0#32 (mkWord [((c.slot h x.d.argA).st.code, 0), ((c.slot h x.d.argA).proto, 8)]) := by
  simp [Chip.ccidRequest, hi, hr]

theorem Chip.ccidRequest_setOpts (hr : x.d.req = 0x05) :
    c.ccidRequest h f n x =
      (c.each (if x.d.argA = 0xFFFF then List.range i.slots else [x.d.argA]) fun c k => c.updSlot h k fun z =>
        { z with
          autoPower := x.d.argB % 2 == 1, preferT1 := x.d.argB / 2 % 2 == 1, noPps := x.d.argB / 4 % 2 == 1 }).svcOk
        f n x := by
  simp [Chip.ccidRequest, hi, hr]

section
variable (hu : c.unreachable h = false)
include hu

theorem Chip.ccidRequest_powerOn (hr : x.d.req = 0x01) :
    c.ccidRequest h f n x =
      if (c.slot h x.d.argA).st = .absent then c.svcFail h f n x 0x04 x.d.argA
      else if (c.slot h x.d.argA).st = .activating then c.svcFail h f n x 0x08 0
      else if (c.slot h x.d.argA).job != .none then c.ccidWait h f n x
      else if (c.slot h x.d.argA).st = .active then
        ((c.ccidTake h f n x).updSlot h x.d.argA fun z => { z with st := .activating }).powerOff h x.d.argA 2
      else (c.ccidTake h f n x).activate h x.d.argA := by
  simp [Chip.ccidRequest, Chip.ccidWait, Chip.ccidTake, hi, hr, hu]

theorem Chip.ccidRequest_powerOff (hr : x.d.req = 0x02) :
    c.ccidRequest h f n x =
      if (c.slot h x.d.argA).st = .absent then c.svcFail h f n x 0x04 x.d.argA
      else if (c.slot h x.d.argA).job != .none then c.ccidWait h f n x
      else (c.ccidTake h f n x).powerOff h x.d.argA 0 := by
  simp [Chip.ccidRequest, Chip.ccidWait, Chip.ccidTake, hi, hr, hu]

theorem Chip.ccidRequest_xfr (hr : x.d.req = 0x03) :
    c.ccidRequest h f n x =
      if ((c.slot h x.d.argA).job != .none) && (c.slot h x.d.argA).st == .active then c.ccidWait h f n x
      else if (c.slot h x.d.argA).st = .absent then c.svcFail h f n x 0x04 x.d.argA
      else if (c.slot h x.d.argA).st != .active then c.svcFail h f n x 0x0B x.d.argA
      else c.startXfr h x.d.argA f n x := by
  simp [Chip.ccidRequest, Chip.ccidWait, hi, hr, hu]

theorem Chip.ccidRequest_escape (hr : x.d.req = 0x06) :
    c.ccidRequest h f n x =
      if (c.slot h x.d.argA).job != .none then c.ccidWait h f n x
      else (c.ccidTake h f n x).ccidCmd h x.d.argA .escape 0x6B (0, 0, 0) x.payload := by
  simp [Chip.ccidRequest, Chip.ccidWait, Chip.ccidTake, hi, hr, hu]

end

end

/-! ### The answers and the timers of a reader (R354, R356) -/

section
variable {s : State} {h : Fin 2048}

theorem execCcidResponse_bound {i : Inst} (hu : s.up) (hi : s.chip.inst h = some i) (hv : i.svc = .ccid)
    (hd : i.st ≠ .detached) (hc : i.st ≠ .closing) :
    execCcidResponse h s = .next (s.upd fun c => c.ccidInbox h) :=
  State.live_eq_upd hu (by simp [hi, hv, hd, hc])

section
variable {k : Fin 8} (hu : s.up) (hk : s.chip.hasSlot h k = true)
include hu hk

theorem execCcidCommandTimeout_slot :
    execCcidCommandTimeout h k s = .next (s.upd fun c =>
      if (c.slot h k).job != .voltWait then c.ccidTimeout h k false else c) :=
  State.live_eq_upd hu (by simp [hk])

theorem execCcidAbortTimeout_slot :
    execCcidAbortTimeout h k s = .next (s.upd fun c => if (c.slot h k).job == .abort then c.abortEnd h k else c) :=
  State.live_eq_upd hu (by simp [hk])

theorem execCcidVoltageRetryWait_slot :
    execCcidVoltageRetryWait h k s = .next (s.upd fun c =>
      if (c.slot h k).job == .voltWait then c.powerOn h k else c) :=
  State.live_eq_upd hu (by simp [hk])

end

end

/-- Settles O16, one row after another. -/
theorem ccidRowsComplete : Obligations.CcidRowsComplete :=
  ⟨fun _ _ _ _ _ _ _ _ ha hu hs =>
      State.live_giveTo ha (by decide) fun hi hr => hs ▸ Chip.ccidRequest_powerOn hi hu hr,
    fun _ _ _ _ _ _ _ _ ha hu => State.live_giveTo ha (by decide) fun hi => Chip.ccidRequest_powerOff hi hu,
    fun _ _ _ _ _ _ _ _ ha hu => State.live_giveTo ha (by decide) fun hi => Chip.ccidRequest_xfr hi hu,
    fun _ _ _ _ _ _ _ _ ha => State.live_giveTo ha (by decide) Chip.ccidRequest_slotStatus,
    fun _ _ _ _ _ _ _ _ ha => State.live_giveTo ha (by decide) Chip.ccidRequest_setOpts,
    fun _ _ _ _ _ _ _ _ ha hu => State.live_giveTo ha (by decide) fun hi => Chip.ccidRequest_escape hi hu,
    fun _ h _ hu hs hp => State.live_packet (g := fun e c => c.ccidNotice h e) hu hs hp,
    fun _ h _ hu hs hp => State.live_packet (g := fun e c => c.ccidNotice h e) hu hs hp,
    fun _ _ _ => execCcidResponse_bound,
    fun _ _ _ hu hk =>
      ⟨execCcidCommandTimeout_slot hu hk, execCcidAbortTimeout_slot hu hk, execCcidVoltageRetryWait_slot hu hk⟩⟩

/-! ### STRM's requests (R363, R365) -/

section
variable {c : Chip} {h f n : Nat} {i : Inst} {x : Xfer} (hi : c.inst h = some i)
include hi

/-- TX waits for a stream job that runs. -/
theorem Chip.strmRequest_tx {e : Nat} (hu : c.unreachable h = false) (he : c.instEp h .bulk false = some e)
    (hr : x.d.req = 0x01) :
    c.strmRequest h f n x =
      if i.strm.job.isSome then c.updXfer f n x.count fun y => { y with svcPhase := 1 }
      else c.instSend h 0 (reqTag 1 x.count) e (mkDesc 2 x.payload.length 0#32 0#32) x.payload := by
  simp [Chip.strmRequest, hi, hr, hu, he]

theorem Chip.strmRequest_rxCfg (hr : x.d.req = 0x08) :
    c.strmRequest h f n x =
      (c.updStrm h fun y =>
        if y.rx.isEmpty then { y with rxIdle := x.d.argA, rxChunk := x.d.argB }
        else { y with nextRx := some (x.d.argA, x.d.argB) }).svcOk f n x := by
  simp [Chip.strmRequest, hi, hr]

/-! #### Those of a CDC device -/

section
variable (hc : i.strm.cdc = true) (hu : c.unreachable h = false)
include hc hu

theorem Chip.strmRequest_setLine (hr : x.d.req = 0x02) :
    c.strmRequest h f n x =
      c.instCtl h 0 (reqTag 2 x.count) i.dev (setup0 0x21 0x20 0, setup1 i.iface 7)
        (natBytes 4 x.d.argC.toNat ++ [BitVec.ofNat 8 (x.d.argA / 4096), BitVec.ofNat 8 (x.d.argA / 256 % 16),
          BitVec.ofNat 8 (x.d.argA % 256)]) := by
  simp [Chip.strmRequest, hi, hr, hc, hu]

theorem Chip.strmRequest_setCtrl (hr : x.d.req = 0x03) :
    c.strmRequest h f n x =
      c.instCtl h 0 (reqTag 3 x.count) i.dev (setup0 0x21 0x22 x.d.argA, setup1 i.iface 0) := by
  simp [Chip.strmRequest, hi, hr, hc, hu]

theorem Chip.strmRequest_break (hr : x.d.req = 0x04) :
    c.strmRequest h f n x =
      c.instCtl h 0 (reqTag 4 x.count) i.dev (setup0 0x21 0x23 x.d.argA, setup1 i.iface 0) := by
  simp [Chip.strmRequest, hi, hr, hc, hu]

end

/-! #### Those of a printer -/

section
variable (hp : i.strm.cdc = false)
include hp

/-- That a printer without a stored device ID fails the request is the model's choice (log 256). -/
theorem Chip.strmRequest_deviceId (hr : x.d.req = 0x06) :
    c.strmRequest h f n x =
      if i.strm.devId.isEmpty then c.svcFail h f n x 0x09 0 else c.svcAnswer h f n x i.strm.devId := by
  simp [Chip.strmRequest, hi, hr, hp]

variable (hu : c.unreachable h = false)
include hu

theorem Chip.strmRequest_portStatus (hr : x.d.req = 0x05) :
    c.strmRequest h f n x =
      c.instCtl h 0 (reqTag 5 x.count) i.dev (setup0 0xA1 0x01 0, setup1 i.iface 1) := by
  simp [Chip.strmRequest, hi, hr, hp, hu]

theorem Chip.strmRequest_softReset (hr : x.d.req = 0x07) :
    c.strmRequest h f n x =
      c.instCtl h 0 (reqTag 7 x.count) i.dev (setup0 0x21 0x02 0, setup1 i.iface 0) := by
  simp [Chip.strmRequest, hi, hr, hp, hu]

end

end

/-! ### Stream jobs and received data (R362, R364) -/

theorem Chip.runRequest_streamJob {c : Chip} {h f n : Nat} {i : Inst} {x : Xfer} (hi : c.inst h = some i)
    (hv : i.svc = .strm) (ht : x.d.ty = some .streamJob) (hd : i.st ≠ .detached) :
    c.runRequest h f n i x =
      if i.strm.job.isSome then (c.begun f n x).updXfer f n x.count fun y => { y with svcPhase := 1 }
      else (c.begun f n x).startStream h f n x := by
  have hb : (c.begun f n x).inst h = some i := (Chip.inst_begun ..).trans hi
  calc c.runRequest h f n i x
    _ = (c.begun f n x).strmJob h f n x := by simp [Chip.runRequest, Chip.begun, ht, hd, hv]
    _ = _ := by simp only [Chip.strmJob, hb]

theorem execStreamJob_asks {s : State} {f : Fin 128} {n : Fin 64} {count : Word} {q : Wq} {h : Nat} {i : Inst}
    {x : Xfer} (hu : s.up) (hq : s.chip.wq f n = some q) (hh : q.instOf = some h) (hi : s.chip.inst h = some i)
    (hx : s.chip.xfer f n count = some x) (hr : x.svcRun = false) (hf : x.fetched i.svc i.slots = true)
    (hv : i.svc = .strm) (ht : x.d.ty = some .streamJob) (hd : i.st ≠ .detached) :
    execStreamJob f n count s = .next (s.upd fun c =>
      if i.strm.job.isSome then (c.begun f n x).updXfer f n x.count fun y => { y with svcPhase := 1 }
      else (c.begun f n x).startStream h f n x) :=
  State.live_eq_upd hu ((Chip.giveRequest_given hq hx hh hi hr hf (by simp [hv, ht])).trans
    (Chip.runRequest_streamJob hi hv ht hd))

section
variable {s : State} {h : Fin 2048} {i : Inst} (hu : s.up) (hi : s.chip.inst h = some i) (hv : i.svc = .strm)
include hu hi hv

theorem execStrmRxidleExpiry_timing (ht : i.strm.rxTimer = true) :
    execStrmRxidleExpiry h s = .next (s.upd fun c => c.sendRx h i.strm.rxChunk) :=
  State.live_eq_upd hu (by simp [hi, hv, ht])

theorem execJobStall_job (hj : i.strm.job.isSome = true) :
    execJobStall h s = .next (s.upd fun c => c.jobStall h) :=
  State.live_eq_upd hu (by simp [hi, hv, hj])

end

/-! ### HLTH's requests (R369) -/

section
variable {c : Chip} {h f n : Nat} {x : Xfer}

theorem Chip.hlthRequest_setOpts (hr : x.d.req = 0x01) :
    c.hlthRequest h f n x =
      (c.updHlth h fun y =>
        { y with nextOpts := some (x.d.argA, x.d.argB % 16, x.d.argB / 16 % 2 == 1, x.d.argB / 256) }).svcOk f n x := by
  simp [Chip.hlthRequest, hr]

theorem Chip.hlthRequest_snapshot (hr : x.d.req = 0x02) :
    c.hlthRequest h f n x = (c.snapshot h).2.svcAnswer h f n x (c.snapshot h).1 := by
  simp [Chip.hlthRequest, hr]

end

/-- Settles O17, one row after another. -/
theorem strmAndHlthRowsComplete : Obligations.StrmAndHlthRowsComplete :=
  ⟨fun _ _ _ _ _ _ _ _ _ ha hu he => State.live_giveTo ha (by decide) fun hi => Chip.strmRequest_tx hi hu he,
    fun _ _ _ _ _ _ _ _ ha hc hu => State.live_giveTo ha (by decide) fun hi => Chip.strmRequest_setLine hi hc hu,
    fun _ _ _ _ _ _ _ _ ha hc hu => State.live_giveTo ha (by decide) fun hi => Chip.strmRequest_setCtrl hi hc hu,
    fun _ _ _ _ _ _ _ _ ha hc hu => State.live_giveTo ha (by decide) fun hi => Chip.strmRequest_break hi hc hu,
    fun _ _ _ _ _ _ _ _ ha hp hu => State.live_giveTo ha (by decide) fun hi => Chip.strmRequest_portStatus hi hp hu,
    fun _ _ _ _ _ _ _ _ ha hp => State.live_giveTo ha (by decide) fun hi => Chip.strmRequest_deviceId hi hp,
    fun _ _ _ _ _ _ _ _ ha hp hu => State.live_giveTo ha (by decide) fun hi => Chip.strmRequest_softReset hi hp hu,
    fun _ _ _ _ _ _ _ _ ha => State.live_giveTo ha (by decide) Chip.strmRequest_rxCfg,
    fun _ _ _ _ _ _ _ _ hu hq hh hi hx _ => execStreamJob_asks hu hq hh hi hx,
    fun _ h _ hu hs hp => State.live_packet (g := fun e c => c.strmData h e) hu hs hp,
    fun _ h _ hu hs hp => State.live_packet (g := fun e c => c.strmNotice h e) hu hs hp,
    fun _ _ _ => execStrmRxidleExpiry_timing, fun _ _ _ => execJobStall_job,
    fun _ _ _ _ _ _ _ _ ha => State.live_giveTo ha (by decide) fun _ => Chip.hlthRequest_setOpts,
    fun _ _ _ _ _ _ _ _ ha => State.live_giveTo ha (by decide) fun _ => Chip.hlthRequest_snapshot⟩

end Sys2Proof.Machine
end

section
/-!
SUPPORT. The event controller: what arrivals, claims and completions leave in the sources, and the rows of its commands.
-/
namespace Sys2Proof.Machine

/-! ### Arrivals (R374, R375) -/

section
variable (c : Chip) (f i : Nat)

/-- One more in a count that saturates, with the bound first, as the statements write it (R375, R389). -/
theorem satAdd_one (m n : Nat) : satAdd m n 1 = min m (n + 1) := Nat.min_comm _ _

theorem Chip.countArrival_arrivals :
    ((c.countArrival f i).src f i).arrivals = min 255 ((c.src f i).arrivals + 1) := by
  rw [Chip.countArrival_src, satAdd_one]

theorem Chip.shCount_arrivals : ((c.shCount i).sh i).src.arrivals = min 255 ((c.sh i).src.arrivals + 1) := by
  rw [Chip.shCount_sh, satAdd_one]

/-- The level of a source is no part of its count. -/
@[simp] theorem Chip.inLevel_arrivals (b : Bool) : ((c.inLevel f i b).src f i).arrivals = (c.src f i).arrivals := by
  simp [Chip.inLevel]

theorem Chip.raise_arrivals : ((c.raise f i).src f i).arrivals = min 255 ((c.src f i).arrivals + 1) := by
  simp [Chip.raise, Chip.countArrival_arrivals]

theorem Chip.entryArrive_arrivals : ((c.entryArrive f i).src f i).arrivals = min 255 ((c.src f i).arrivals + 1) := by
  simp [Chip.entryArrive, Chip.countArrival_arrivals]

theorem Chip.shPulse_arrivals : ((c.shPulse i).sh i).src.arrivals = min 255 ((c.sh i).src.arrivals + 1) := by
  simp [Chip.shPulse, Chip.shCount_arrivals]

variable {c f i}

/-- A rise of the level of a source whose arrivals are not its entries is an arrival (R374). -/
theorem Chip.setLevel_rise (hi : 17 ≤ i) (h : (c.src f i).input = false) :
    c.setLevel f i true = (c.inLevel f i true).countArrival f i := by
  simp [Chip.setLevel, h, hi]

theorem Chip.setLevel_rise_arrivals (hi : 17 ≤ i) (h : (c.src f i).input = false) :
    ((c.setLevel f i true).src f i).arrivals = min 255 ((c.src f i).arrivals + 1) := by
  rw [Chip.setLevel_rise hi h, Chip.countArrival_arrivals, Chip.inLevel_arrivals]

theorem Chip.shInput_arrivals {b : Bool} (h : (c.sh i).sense.arrives (c.sh i).src.input b = true) :
    ((c.shInput i b).sh i).src.arrivals = min 255 ((c.sh i).src.arrivals + 1) := by
  simp [Chip.shInput, h, Chip.shCount_arrivals]

end

/-! ### Claims (R386) -/

/-- The best of a list of candidates is one of them. -/
theorem Cand.mem_of_best {l : List Cand} {a : Cand} (h : Cand.best l = some a) : a ∈ l := by
  induction l generalizing a with
  | nil => cases h
  | cons b r ih =>
    unfold Cand.best at h
    split at h
    next => cases h; exact List.mem_cons_self
    next d hd =>
      split at h <;> cases h
      · exact List.mem_cons_of_mem _ (ih hd)
      · exact List.mem_cons_self

section
variable {c : Chip} {f : Nat} {v : Option Nat} {a : Cand}

/-- The number of a candidate is that of a source that there is, a function's own or shared (R372, R373). -/
theorem Chip.num_lt_of_candidate (h : a ∈ c.candidates f v) : a.num < if a.shared then 64 else 32 := by
  simp only [Chip.candidates, List.mem_append, List.mem_map, List.mem_filter, List.mem_range] at h
  obtain ⟨i, ⟨hi, -⟩, rfl⟩ | ⟨i, ⟨hi, -⟩, rfl⟩ := h <;> exact hi

/-- The value that a claim of source `x` returns, which `id` names (R386). -/
def Src.claimWord (x : Src) (id : Nat) : Word := mkWord [(1, 31), (x.arrivals, 16), (x.prio, 8), (id, 0)]

/-- ARRIVALS stands in bits 23:16 of the value where the fields stay within their widths. -/
theorem Src.bits_claimWord {x : Src} {id : Nat} (ha : x.arrivals ≤ 255) (hp : x.prio ≤ 15) (hid : id < 256) :
    bits (x.claimWord id) 23 16 = x.arrivals := by
  simp only [Src.claimWord, bits, mkWord, List.foldl, BitVec.toNat_ofNat, Nat.shiftRight_eq_div_pow]
  omega

section
variable (hb : Cand.best (c.candidates f v) = some a)
include hb

theorem Chip.claim_own (hs : a.shared = false) :
    c.claim f v = ((c.src f a.num).claimWord a.num,
      c.updSrc f a.num fun y => { y with st := .active, arrivals := 0 }) := by
  simp [Chip.claim, hb, hs, Src.claimWord]

theorem Chip.claim_shared (hs : a.shared = true) :
    c.claim f v = ((c.sh a.num).src.claimWord (0x40 + a.num),
      c.updSh a.num fun y => { y with claimer := f, src := { y.src with st := .active, arrivals := 0 } }) := by
  simp [Chip.claim, hb, hs, Src.claimWord]

/-- A claim of a source of the function itself returns its counter and clears it (R375). -/
theorem Chip.claim_own_arrivals (hs : a.shared = false) (ha : (c.src f a.num).arrivals ≤ 255)
    (hp : (c.src f a.num).prio ≤ 15) :
    bits (c.claim f v).1 23 16 = (c.src f a.num).arrivals ∧ ((c.claim f v).2.src f a.num).arrivals = 0 := by
  have hn : a.num < 32 := by simpa [hs] using Chip.num_lt_of_candidate (Cand.mem_of_best hb)
  rw [Chip.claim_own hb hs]
  exact ⟨Src.bits_claimWord ha hp (by omega), by simp⟩

/-- So does a claim of a shared source, whose ID lies 0x40 above its number. -/
theorem Chip.claim_shared_arrivals (hs : a.shared = true) (ha : (c.sh a.num).src.arrivals ≤ 255)
    (hp : (c.sh a.num).src.prio ≤ 15) :
    bits (c.claim f v).1 23 16 = (c.sh a.num).src.arrivals ∧ ((c.claim f v).2.sh a.num).src.arrivals = 0 := by
  have hn : a.num < 64 := by simpa [hs] using Chip.num_lt_of_candidate (Cand.mem_of_best hb)
  rw [Chip.claim_shared hb hs]
  exact ⟨Src.bits_claimWord ha hp (by omega), by simp⟩

end

end

/-- Settles O45: each kind of arrival ends in the count of its source, and a claim names a source that there is. -/
theorem arrivalsAreCounted : Obligations.ArrivalsAreCounted :=
  ⟨Chip.raise_arrivals, fun c f i _ => c.entryArrive_arrivals f i, fun _ _ => Chip.setLevel_rise_arrivals (by decide),
    Chip.shPulse_arrivals, fun _ _ _ => Chip.shInput_arrivals, fun _ _ _ _ => Chip.claim_own_arrivals,
    fun _ _ _ _ => Chip.claim_shared_arrivals⟩

/-! ### Completions (R389) -/

section
variable (c : Chip) (f : Nat)

/-- An update of a function's bank that leaves its sources leaves every source. -/
theorem Chip.updEvt_src {g : EvtBank → EvtBank} (h : ∀ b, (g b).src = b.src) (k i : Nat) :
    (c.updEvt f g).src k i = c.src k i :=
  Chip.updFn_src c (fun x => { x with evt := g x.evt }) (fun x => h x.evt) k i

/-- One that leaves its vectors' state leaves every vector. -/
theorem Chip.updEvt_vec {g : EvtBank → EvtBank} (h : ∀ b, (g b).vec = b.vec) (k v : Nat) :
    (c.updEvt f g).vec k v = c.vec k v := by
  unfold Chip.vec Chip.updEvt
  by_cases e : k = f
  · subst e
    rw [Chip.updFn_same, h]
  · rw [Chip.updFn_ne _ _ e]

/-- An update of a function's bank changes no shared source. -/
theorem Chip.updEvt_sh (g : EvtBank → EvtBank) (i : Nat) : (c.updEvt f g).sh i = c.sh i := rfl

theorem Chip.updEvt_evt_same (g : EvtBank → EvtBank) : ((c.updEvt f g).fn f).evt = g (c.fn f).evt := by
  simp [Chip.updEvt]

/-- A bank with one more stray completion (R389). -/
def EvtBank.countStray (b : EvtBank) : EvtBank := { b with stray := satAdd 0xFFFF b.stray 1 }

variable {c f}

/-- A completion that ends no source of its writer is stray. -/
theorem Chip.complete_stray {id : Nat} (hp : ¬ (id < 32 ∧ (c.src f id).st.isActive = true))
    (hs : ¬ (0x40 ≤ id ∧ id < 0x80 ∧ (c.sh (id - 0x40)).src.st.isActive = true ∧
      (c.sh (id - 0x40)).claimer = f)) : c.complete f id = c.updEvt f EvtBank.countStray :=
  (if_neg hp).trans (if_neg hs)

theorem Chip.updEvt_countStray :
    ((c.updEvt f EvtBank.countStray).fn f).evt.stray = min 0xFFFF ((c.fn f).evt.stray + 1) := by
  rw [Chip.updEvt_evt_same]
  exact satAdd_one ..

end

/-- Settles O47: the bank takes one more stray completion, and neither its sources nor its vectors change. -/
theorem strayCompletionsCount : Obligations.StrayCompletionsCount := fun c f _ hp hs => by
  rw [Chip.complete_stray hp hs]
  exact ⟨Chip.updEvt_countStray, c.updEvt_src f (g := EvtBank.countStray) fun _ => rfl, c.updEvt_sh f _,
    c.updEvt_vec f (g := EvtBank.countStray) fun _ => rfl⟩

/-! ### The rows of the event controller -/

section
variable {s : State}

theorem execEvtClaimRead_notSafe {f : Fin 128} (ha : s.alive) (hs : s.chip.tst.safe = false) :
    execEvtClaimRead f s =
      .next (s.upd fun c => (c.claim f none).2.emit (.readData (wordBytes (c.claim f none).1))) :=
  State.run_eq_upd ha (if_neg (by simp [hs]))

theorem execEvtVclaimRead_notSafe {f : Fin 128} {v : Fin 64} (ha : s.alive) (hs : s.chip.tst.safe = false) :
    execEvtVclaimRead f v s =
      .next (s.upd fun c =>
        if v < (c.fn f).vectors then (c.claim f (some v)).2.emit (.readData (wordBytes (c.claim f (some v)).1))
        else c.emit (.readData (wordBytes 0#32))) :=
  State.run_eq_upd ha (if_neg (by simp [hs]))

theorem execEvtCompleteWrite_up (f : Fin 128) (w : Word) (hu : s.up) :
    execEvtCompleteWrite f w s = .next (s.upd fun c => c.complete f (bits w 7 0)) :=
  State.live_up hu

theorem execEvtSourceConfigWrite_up (f : Fin 128) (i : Fin 32) (w : Word) (hu : s.up) :
    execEvtSourceConfigWrite f i w s = .next (s.upd fun c => c.srcConfig f i w) :=
  State.live_up hu

theorem execEvtGdisWrite_up (f : Fin 128) (w : Word) (hu : s.up) :
    execEvtGdisWrite f w s = .next (s.upd fun c => c.evtCtrl f w) :=
  State.live_up hu

theorem execEvtSharedCfgWrite_up (n : Fin 64) (w : Word) (route : Option Word) (hu : s.up) :
    execEvtSharedCfgWrite n w route s = .next (s.upd fun c => c.shConfig s.locks.evt n w route) :=
  State.live_up hu

theorem execEvtSharedRouteWrite_up (n : Fin 64) (w : Word) (hu : s.up) :
    execEvtSharedRouteWrite n w s = .next (s.upd fun c => c.shRoute s.locks.evt n w) :=
  State.live_up hu

/-- PF0 has the coalescing register of every vector, a VF those of vectors 0 to 15 (R396). -/
theorem execEvtVcoalWrite_present {f : Fin 128} {v : Fin 64} (w : Word) (hu : s.up) (h : f.val = 0 ∨ v.val < 16) :
    execEvtVcoalWrite f v w s = .next (s.upd fun c => c.vcoal f v w) :=
  State.live_eq_upd hu (if_pos h)

theorem execCoalescingTimerExpiry_running {f : Fin 128} {v : Fin 64} (ha : s.alive)
    (ht : (s.chip.vec f v).timer = true) :
    execCoalescingTimerExpiry f v s = .next (s.upd fun c => c.vecJudge f v true) :=
  State.run_eq_upd ha (if_pos ht)

theorem execGpioInputChange_clocked {n : Fin 16} (b : Bool) (hu : s.up) (hc : s.chip.fabricClocked = true) :
    execGpioInputChange n b s = .next (s.upd fun c => c.wakeInput (16 + n) b) :=
  State.live_eq_upd hu (if_pos hc)

theorem execAonLatchSet_unclocked {n : Fin 64} (b : Bool) (hu : s.up) (hc : s.chip.fabricClocked = false)
    (hl : isLatched n = true) : execAonLatchSet n b s = .next (s.upd fun c => c.wakeInput n b) :=
  State.live_eq_upd hu (if_pos (by simp [hc, hl]))

end

/-- Settles O20, one row after another. -/
theorem eventRowsComplete : Obligations.EventRowsComplete :=
  ⟨fun _ _ => execEvtClaimRead_notSafe, fun _ _ _ => execEvtVclaimRead_notSafe,
    fun _ f i w hu =>
      ⟨execEvtCompleteWrite_up f w hu, execEvtSourceConfigWrite_up f i w hu, execEvtGdisWrite_up f w hu⟩,
    fun _ n w route hu => ⟨execEvtSharedCfgWrite_up n w route hu, execEvtSharedRouteWrite_up n w hu⟩,
    fun _ _ _ w => execEvtVcoalWrite_present w,
    fun _ _ _ => execCoalescingTimerExpiry_running, fun _ _ b => execGpioInputChange_clocked b,
    fun _ _ b => execAonLatchSet_unclocked b⟩

end Sys2Proof.Machine
end

section
/-!
SUPPORT. What a command does to the fuses and to the test access port, what a step answers, and that a device in reset or
without power takes no command but those that reach it.
-/
namespace Sys2Proof.Machine

/-! ### The commands that leave the fuses (R504, R549, R594, R595) -/

/-- The commands that burn a fuse or step the test access port. -/
def burnsOrScans : Instr → Bool
  | .fuseBurnDone | .keyHashBurnDone | .debugLockBurnDone | .tckEdge _ _ _ _ => true
  | _ => false

/-- The fuses and the queue of commands are the same, and the test access port is the same or as at power-on. -/
def State.keepsFuses (s t : State) : Prop :=
  t.otp = s.otp ∧ t.pending = s.pending ∧ (t.jtag = s.jtag ∨ t.jtag = {})

theorem State.keepsFuses_chip (s : State) (c : Chip) : s.keepsFuses { s with chip := c } := ⟨rfl, rfl, .inl rfl⟩

theorem State.sameBeyondChip.keepsFuses {s t : State} (h : s.sameBeyondChip t) : s.keepsFuses t :=
  ⟨h.2.1, h.2.2.2, .inl h.2.2.1⟩

theorem State.keepsFuses_deviceReset {s t : State} (h : s.keepsFuses t) : s.keepsFuses t.deviceReset := h

theorem State.keepsFuses_ite {s t : State} (b : Bool) (h : s.keepsFuses t) :
    s.keepsFuses (if b then t.deviceReset else t) := by
  cases b <;> exact h

theorem State.keepsFuses_bar0Write {s t : State} (f o : Nat) (w : Word) (h : s.keepsFuses t) :
    s.keepsFuses (t.bar0Write f o w) := by
  unfold State.bar0Write
  split
  · exact h
  · split <;> exact h

theorem State.keepsFuses_regWrite {s t : State} (f : Nat) (bar4 : Bool) (off len : Nat) (w hi : Word)
    (h : s.keepsFuses t) : s.keepsFuses (t.regWrite f bar4 off len w hi) := by
  have pair := State.keepsFuses_bar0Write f (off + 4) hi (State.keepsFuses_bar0Write f off w h)
  unfold State.regWrite
  split
  · exact h
  split
  · exact h
  split
  · exact State.keepsFuses_bar0Write f off w h
  split
  · split
    · exact h
    · exact pair
  · exact pair

theorem execRegisterWrite_keepsFuses (f : Fin 128) (bar4 : Bool) (off : Fin 0x2000000) (len : Fin 4097) (w hi : Word)
    (s : State) : Answers (execRegisterWrite f bar4 off len w hi s) s.keepsFuses := by
  have keep (c : Chip) := answers_next.2 (s.keepsFuses_chip c)
  unfold execRegisterWrite
  exact answers_ite (keep _) (answers_ite (keep _) (answers_ite (keep _) (answers_ite (keep _)
    (answers_next.2 (State.keepsFuses_regWrite f bar4 off len w hi (s.keepsFuses_chip s.chip.wakeFabric))))))

theorem execLnyWrite_keepsFuses (s : State) : Answers (execLnyWrite s) s.keepsFuses := by
  refine answers_lnyRun _ s.keepsFuses_chip fun m => ?_
  dsimp only
  split
  · exact s.keepsFuses_chip _
  split
  · exact s.keepsFuses_chip _
  split
  · exact s.keepsFuses_chip _
  · exact State.keepsFuses_bar0Write 0 _ _ (s.keepsFuses_chip _)

theorem execTthRegdataWrite_keepsFuses (w : Word) (pec : Option Bool) (s : State) :
    Answers (execTthRegdataWrite w pec s) s.keepsFuses := by
  refine answers_tthRun _ _ _ s.keepsFuses_chip fun c => ?_
  dsimp only
  split
  · exact s.keepsFuses_chip _
  split
  · exact s.keepsFuses_chip _
  · exact State.keepsFuses_bar0Write 0 _ _ (s.keepsFuses_chip _)

theorem execResetNAssert_keepsFuses (n : Fin 65536) (s : State) : Answers (execResetNAssert n s) s.keepsFuses := by
  unfold execResetNAssert
  exact answers_ite (answers_next.2 (s.keepsFuses_chip _))
    (answers_ite (answers_next.2 ⟨rfl, rfl, .inl rfl⟩) (answers_next.2 (s.keepsFuses_chip _)))

/-- With VDD_AON the test access port loses its state (R593). -/
theorem execSupplyFall_keepsFuses (r : Rail) (s : State) : Answers (execSupplyFall r s) s.keepsFuses := by
  cases r
  case dram => exact answers_next.2 (s.keepsFuses_chip _)
  case ret => exact answers_next.2 ⟨rfl, rfl, .inl rfl⟩
  case aon => exact answers_next.2 ⟨rfl, rfl, .inr rfl⟩

theorem execLnyVbusChange_keepsFuses (b : Bool) (s : State) : Answers (execLnyVbusChange b s) s.keepsFuses := by
  unfold execLnyVbusChange
  exact answers_ite (answers_next.2 (s.keepsFuses_chip _)) (answers_ite (answers_next.2 (s.keepsFuses_chip _))
    (answers_next.2 (State.keepsFuses_ite _ (s.keepsFuses_chip _))))

theorem execLnyInToken_keepsFuses (ep : Fin 16) (ack : Bool) (s : State) :
    Answers (execLnyInToken ep ack s) s.keepsFuses := by
  have keep (c : Chip) := answers_next.2 (s.keepsFuses_chip c)
  unfold execLnyInToken
  refine answers_ite (keep _) (answers_ite (keep _) ?_)
  split
  · exact keep _
  · exact answers_ite (keep _) (answers_next.2 (State.keepsFuses_ite _ (s.keepsFuses_chip _)))

theorem execLnyReset_keepsFuses (s : State) : Answers (execLnyReset s) s.keepsFuses := by
  refine answers_lnyRun _ s.keepsFuses_chip fun m => ?_
  dsimp only
  split
  · exact s.keepsFuses_chip _
  split
  · exact s.keepsFuses_chip _
  · exact State.keepsFuses_deviceReset (s.keepsFuses_chip _)

theorem execTthReset_keepsFuses (b : Byte) (pec : Option Bool) (s : State) :
    Answers (execTthReset b pec s) s.keepsFuses := by
  refine answers_tthRun _ _ _ s.keepsFuses_chip fun c => ?_
  dsimp only
  split
  · exact State.keepsFuses_deviceReset (s.keepsFuses_chip c)
  · exact s.keepsFuses_chip _

/-- A command that burns nothing and is no edge of TCK answers a next state with the same fuses. -/
theorem exec_keepsFuses (c : Instr) (s : State) (hb : burnsOrScans c = false) : Answers (exec c s) s.keepsFuses := by
  have same (h : beyondChip c = false) : Answers (exec c s) s.keepsFuses :=
    (exec_sameBeyondChip c s h).imp fun _ h => ⟨h.1, h.2.keepsFuses⟩
  cases c
  case registerWrite => exact execRegisterWrite_keepsFuses _ _ _ _ _ _ s
  case lnyWrite => exact execLnyWrite_keepsFuses s
  case tthRegdataWrite => exact execTthRegdataWrite_keepsFuses _ _ s
  case resetNAssert => exact execResetNAssert_keepsFuses _ s
  case powerOn => exact answers_next.2 ⟨rfl, rfl, .inr rfl⟩
  case supplyFall => exact execSupplyFall_keepsFuses _ s
  case lnyVbusChange => exact execLnyVbusChange_keepsFuses _ s
  case lnyInToken => exact execLnyInToken_keepsFuses _ _ s
  case lnyReset => exact execLnyReset_keepsFuses s
  case tthReset => exact execTthReset_keepsFuses _ _ s
  case fuseBurnDone | keyHashBurnDone | debugLockBurnDone | tckEdge => cases hb
  all_goals exact same rfl

/-! ### What the ends of the burns do (R504, R549, R595) -/

theorem Otp.within_refl (o : Otp) : o.within o := ⟨le_rfl, fun _ => id, id⟩

/-- Nothing burned in `s` is unburned in `t`, the queue of commands is the same, and where the test access port differs it
is as at power-on. -/
def State.burnsOn (s t : State) : Prop :=
  s.otp.within t.otp ∧ t.pending = s.pending ∧ (t.jtag = s.jtag ∧ t.otp.dbgLock = s.otp.dbgLock ∨ t.jtag = {})

theorem State.burnsOn_refl (s : State) : s.burnsOn s := ⟨s.otp.within_refl, rfl, .inl ⟨rfl, rfl⟩⟩

theorem State.keepsFuses.burnsOn {s t : State} (h : s.keepsFuses t) : s.burnsOn t := by
  obtain ⟨ho, hp, hj⟩ := h
  exact ⟨ho ▸ s.otp.within_refl, hp, hj.imp_left fun hj => ⟨hj, by rw [ho]⟩⟩

theorem execFuseBurnDone_burnsOn (s : State) : Answers (execFuseBurnDone s) s.burnsOn := by
  unfold execFuseBurnDone
  exact answers_ite (answers_next.2 s.burnsOn_refl)
    (answers_next.2 ⟨⟨Nat.le_add_right .., fun _ => id, id⟩, rfl, .inl ⟨rfl, rfl⟩⟩)

/-- Words that hold a hash keep it. -/
theorem execKeyHashBurnDone_burnsOn (s : State) : Answers (execKeyHashBurnDone s) s.burnsOn := by
  unfold execKeyHashBurnDone
  exact answers_ite (answers_next.2 s.burnsOn_refl)
    (answers_next.2 ⟨⟨le_rfl, fun h e => by simp [e], id⟩, rfl, .inl ⟨rfl, rfl⟩⟩)

/-- The burn of the debug lock takes the test access port to Test-Logic-Reset. -/
theorem execDebugLockBurnDone_burnsOn (s : State) : Answers (execDebugLockBurnDone s) s.burnsOn := by
  unfold execDebugLockBurnDone
  exact answers_ite (answers_next.2 s.burnsOn_refl)
    (answers_next.2 ⟨⟨le_rfl, fun _ => id, fun _ => rfl⟩, rfl, .inr rfl⟩)

/-- Every command but an edge of TCK answers a next state in which what was burned is burned still. -/
theorem exec_burnsOn (c : Instr) (s : State) (hc : ∀ a b d e, c ≠ .tckEdge a b d e) : Answers (exec c s) s.burnsOn := by
  have keep (h : burnsOrScans c = false) : Answers (exec c s) s.burnsOn :=
    (exec_keepsFuses c s h).imp fun _ h => ⟨h.1, h.2.burnsOn⟩
  cases c
  case fuseBurnDone => exact execFuseBurnDone_burnsOn s
  case keyHashBurnDone => exact execKeyHashBurnDone_burnsOn s
  case debugLockBurnDone => exact execDebugLockBurnDone_burnsOn s
  case tckEdge => exact absurd rfl (hc _ _ _ _)
  all_goals exact keep rfl

/-! ### Edges of TCK (R590, R594, R595) -/

section
variable {s : State} {tms tdi : Bool}

theorem execTckEdge_trstLow (rising tms tdi : Bool) (ho : s.chip.aon.off = false) :
    execTckEdge rising tms tdi false s = .next { s with jtag := {} } := by
  simp [execTckEdge, ho]

theorem execTckEdge_rise (tms tdi : Bool) (ho : s.chip.aon.off = false)
    (hd : s.jtag.debugScan s.otp.dbgLock true = false) :
    execTckEdge true tms tdi true s = .next { s with jtag := s.jtag.rise s.otp.dbgLock tms tdi } := by
  simp [execTckEdge, ho, hd]

theorem execTckEdge_fall (tms tdi : Bool) (ho : s.chip.aon.off = false) :
    execTckEdge false tms tdi true s = .next { s with
      jtag := s.jtag.fall s.otp.dbgLock (Config.freeNat s.chip.fresh.1 % 2 == 1), chip := s.chip.fresh.2 } := by
  simp [execTckEdge, ho, Jtag.debugScan]

theorem execTckEdge_debugScan (tms tdi : Bool) (ho : s.chip.aon.off = false)
    (hd : s.jtag.debugScan s.otp.dbgLock true = true) : execTckEdge true tms tdi true s = .refused .debugAccess := by
  simp [execTckEdge, ho, hd]

end

/-- An edge of TCK has no effect without power on VDD_AON; else it resets the port, is refused, or steps the port. -/
theorem execTckEdge_cases (r tms tdi trstN : Bool) (s : State) :
    Answers (execTckEdge r tms tdi trstN s) (fun t => t.otp = s.otp ∧ t.pending = s.pending ∧
      (t.jtag = s.jtag ∨ t.jtag = {} ∨ t.jtag = s.jtag.rise s.otp.dbgLock tms tdi ∨
        ∃ b, t.jtag = s.jtag.fall s.otp.dbgLock b)) ∨
    (r = true ∧ trstN = true ∧ s.chip.aon.off = false ∧ s.jtag.debugScan s.otp.dbgLock true = true ∧
      execTckEdge r tms tdi trstN s = .refused .debugAccess) := by
  cases ho : s.chip.aon.off with
  | true => exact .inl ⟨s, if_pos ho, rfl, rfl, .inl rfl⟩
  | false =>
    cases trstN with
    | false => exact .inl ⟨_, execTckEdge_trstLow r tms tdi ho, rfl, rfl, .inr (.inl rfl)⟩
    | true =>
      cases r with
      | false => exact .inl ⟨_, execTckEdge_fall tms tdi ho, rfl, rfl, .inr (.inr (.inr ⟨_, rfl⟩))⟩
      | true =>
        cases hd : s.jtag.debugScan s.otp.dbgLock true with
        | false => exact .inl ⟨_, execTckEdge_rise tms tdi ho hd, rfl, rfl, .inr (.inr (.inl rfl))⟩
        | true => exact .inr ⟨rfl, rfl, rfl, rfl, execTckEdge_debugScan tms tdi ho hd⟩

/-- A command that answers a next state leaves what is burned as it is. -/
theorem exec_within {c : Instr} {s t : State} (e : exec c s = .next t) : s.otp.within t.otp := by
  by_cases hc : ∃ a b d f, c = .tckEdge a b d f
  · obtain ⟨a, b, d, f, rfl⟩ := hc
    rcases execTckEdge_cases a b d f s with h | ⟨-, -, -, -, h⟩
    · exact (h.of_next e).1 ▸ s.otp.within_refl
    · cases h.symm.trans e
  · exact ((exec_burnsOn c s fun a b d f h => hc ⟨a, b, d, f, h⟩).of_next e).1

/-- What holds between a state and each next one of a command, and of a state and itself, holds between those of a step. -/
theorem step_next {P : State → State → Prop} {s t : State} (e : step s = .next t) (idle : P s s)
    (run : ∀ c rest, s.pending = c :: rest → exec c { s with pending := rest } = .next t → P s t) : P s t := by
  unfold step at e
  split at e
  next => cases e; exact idle
  next c rest hp => exact run c rest hp e

/-- Settles O40: a step runs one command, of which only the ends of the burns change a fuse. -/
theorem burnedFusesStayBurned : Obligations.BurnedFusesStayBurned := fun s _ e =>
  step_next (P := fun s t => s.otp.within t.otp) e s.otp.within_refl fun _ rest _ e => exec_within (s := { s with pending := rest }) e

/-! ### The test access port stays as R594 has it -/

theorem b2n_lt_two (b : Bool) : b2n b < 2 := by cases b <;> decide

/-- What an instruction register of 8 bits captures or shifts has 8 bits. -/
theorem Jtag.rise_irSh (j : Jtag) (l tms tdi : Bool) (h : j.irSh < 256) : (j.rise l tms tdi).irSh < 256 := by
  have hc : 4 * Config.irCapture.toNat + 1 < 256 := by have := Config.irCapture.isLt; omega
  have hb := b2n_lt_two tdi
  have hs : j.irSh / 2 + 128 * b2n tdi < 256 := by omega
  simp only [Jtag.rise, apply_ite Jtag.irSh, ite_self]
  split <;> assumption

/-- EXTEST, CLAMP and HIGHZ, and no other instruction, take the pads, unless the debug lock is burned. -/
theorem takesPads_iff (l : Bool) (k : Nat) : takesPads l k = true ↔ l = false ∧ 3 ≤ k ∧ k ≤ 5 := by
  simp [takesPads, and_assoc]

theorem Jtag.legal_rise {j : Jtag} {l : Bool} (tms tdi : Bool) (h : j.legal l) : (j.rise l tms tdi).legal l := by
  obtain ⟨-, hp, hi, hs⟩ := h
  have hsh := j.rise_irSh l tms tdi hs
  rcases j.rise_ir l tms tdi with ⟨-, hir, ht⟩ | ⟨hr, hir, ht⟩
  · exact ⟨fun _ => ⟨hir, ht⟩, by simp [ht], by simp [hir], hsh⟩
  · exact ⟨fun h => absurd h hr, by rwa [ht, hir], by rwa [hir], hsh⟩

theorem Jtag.legal_fall {j : Jtag} {l : Bool} (b : Bool) (h : j.legal l) : (j.fall l b).legal l := by
  obtain ⟨hr, hp, hi, hs⟩ := h
  unfold Jtag.fall
  split
  next => exact ⟨hr, hp, hi, hs⟩
  next => exact ⟨hr, hp, hi, hs⟩
  next e => exact ⟨fun h => (by cases e.symm.trans h), (takesPads_iff l j.irSh).1, hs, hs⟩
  next => exact ⟨hr, hp, hi, hs⟩

theorem exec_legal {c : Instr} {s t : State} (h : s.jtag.legal s.otp.dbgLock) (e : exec c s = .next t) :
    t.jtag.legal t.otp.dbgLock := by
  by_cases hc : ∃ a b d f, c = .tckEdge a b d f
  · obtain ⟨a, b, d, f, rfl⟩ := hc
    rcases execTckEdge_cases a b d f s with ha | ⟨-, -, -, -, ha⟩
    · obtain ⟨ho, -, hj⟩ := ha.of_next e
      rw [ho]
      rcases hj with hj | hj | hj | ⟨v, hj⟩ <;> rw [hj]
      · exact h
      · exact Jtag.legal_default _
      · exact Jtag.legal_rise b d h
      · exact Jtag.legal_fall v h
    · cases ha.symm.trans e
  · obtain ⟨-, -, hj⟩ := (exec_burnsOn c s fun a b d f h => hc ⟨a, b, d, f, h⟩).of_next e
    rcases hj with ⟨hj, hl⟩ | hj <;> rw [hj]
    · rwa [hl]
    · exact Jtag.legal_default _

/-- Settles O41: an edge of TCK keeps the port legal, and every other command leaves it, with the debug lock, or takes it
to its state at power-on. -/
theorem tapStaysLegal : Obligations.TapStaysLegal := fun s _ h e =>
  step_next (P := fun s t => s.jtag.legal s.otp.dbgLock → t.jtag.legal t.otp.dbgLock) e id
    (fun _ rest _ e h => exec_legal (s := { s with pending := rest }) h e) h

/-! ### What stops, and what a step runs (R594; log 217) -/

/-- Settles O36: the commands but an edge of TCK answer a next state, and so does each edge but one that the model refuses. -/
theorem onlyADebugScanStops : Obligations.OnlyADebugScanStops := by
  intro c s
  by_cases hc : ∃ a b d f, c = .tckEdge a b d f
  · obtain ⟨a, b, d, f, rfl⟩ := hc
    rcases execTckEdge_cases a b d f s with ⟨t, e, -, hp, -⟩ | ⟨rfl, rfl, ho, hd, e⟩
    · exact .inl ⟨t, e, hp⟩
    · exact .inr ⟨b, d, rfl, ho, hd, e⟩
  · obtain ⟨t, e, -, hp, -⟩ := exec_burnsOn c s fun a b d f h => hc ⟨a, b, d, f, h⟩
    exact .inl ⟨t, e, hp⟩

/-- Settles O35. -/
theorem stepRunsTheFrontCommand : Obligations.StepRunsTheFrontCommand :=
  ⟨fun s c rest h => by unfold step; rw [h], fun s h => by unfold step; rw [h]⟩

/-! ### The edges, the instructions and IDCODE (R594, R595; logs 214 to 217) -/

/-- From each state of the controller, five edges with TMS high lead to Test-Logic-Reset. -/
theorem Tap.next_five (t : Tap) : ((((t.next true).next true).next true).next true).next true = .reset := by
  cases t <;> rfl

/-- An edge into Test-Logic-Reset puts IDCODE in force. -/
theorem Jtag.rise_ir_of_reset {j : Jtag} {l tms tdi : Bool} (h : (j.rise l tms tdi).tap = .reset) :
    (j.rise l tms tdi).ir = 1 := by
  rcases j.rise_ir l tms tdi with ⟨-, hi, -⟩ | ⟨hr, -⟩
  · exact hi
  · exact absurd h hr

/-- Settles O34, one row after another. -/
theorem testPortEdgesComplete : Obligations.TestPortEdgesComplete := by
  refine ⟨fun _ r tms tdi => execTckEdge_trstLow r tms tdi, fun _ tms tdi => execTckEdge_rise tms tdi,
    fun _ tms tdi => execTckEdge_fall tms tdi, fun _ tms tdi => execTckEdge_debugScan tms tdi,
    fun j l a b c d e => ?_⟩
  have hr : (((((j.rise l true a).rise l true b).rise l true c).rise l true d).rise l true e).tap = .reset := by
    simp only [Jtag.rise_tap, Tap.next_five]
  exact ⟨hr, Jtag.rise_ir_of_reset hr⟩

theorem tapInstr_locked (k : Nat) : tapInstr true k = if k = 0x01 then .idcode else .bypass := rfl

/-- Settles O57. -/
theorem debugLockBypasses : Obligations.DebugLockBypasses :=
  ⟨tapInstr_locked, fun _ _ => rfl, fun l k => (takesPads_iff l k).trans (and_congr_right fun _ => by omega)⟩

/-- The port shifts the IDCODE register and has sent `k` of its bits: those still to be sent are its lowest. -/
def Jtag.sentIdcode (j : Jtag) (k : Nat) : Prop :=
  j.tap = .shDr ∧ j.ir = 1 ∧ j.drSh % 2 ^ (32 - k) = idcode / 2 ^ k

theorem Jtag.sentIdcode_captured {j : Jtag} (l tdi : Bool) (ht : j.tap = .capDr) (hi : j.ir = 1) :
    (j.rise l false tdi).sentIdcode 0 := by
  simp [Jtag.sentIdcode, Jtag.rise, ht, hi, Tap.next, tapInstr, idcode]

/-- What is shifted in at bit 31 does not reach the `n` bits that are still to be sent. -/
theorem shifted_mod_two_pow {n : Nat} (hn : n ≤ 31) (d b : Nat) :
    (d / 2 + 2 ^ 31 * b) % 2 ^ n = d % 2 ^ (n + 1) / 2 := by
  have h : 2 ^ 31 * b = 2 ^ n * (2 ^ (31 - n) * b) := by
    rw [← mul_assoc, ← pow_add, Nat.add_sub_cancel' hn]
  rw [h, Nat.add_mul_mod_self_left, pow_succ', Nat.mod_mul_right_div_self]

theorem Jtag.sentIdcode_rise {j : Jtag} {k : Nat} (l tdi : Bool) (hk : k < 32) (h : j.sentIdcode k) :
    (j.rise l false tdi).sentIdcode (k + 1) := by
  obtain ⟨ht, hi, hd⟩ := h
  have hr : (j.rise l false tdi).drSh = j.drSh / 2 + 2 ^ 31 * b2n tdi := by
    simp [Jtag.rise, ht, hi, Tap.next, tapInstr]
  have hn : 32 - (k + 1) + 1 = 32 - k := by omega
  refine ⟨by simp [ht, Tap.next], by simp [Jtag.rise, ht, hi, Tap.next], ?_⟩
  rw [hr, shifted_mod_two_pow (by omega), hn, hd, Nat.div_div_eq_div_mul, pow_succ]

theorem Jtag.sentIdcode_rises {j : Jtag} {k : Nat} (l : Bool) (bs : List Bool) (hk : k + bs.length ≤ 32)
    (h : j.sentIdcode k) : (bs.foldl (fun j b => j.rise l false b) j).sentIdcode (k + bs.length) := by
  induction bs generalizing j k with
  | nil => exact h
  | cons b r ih =>
    rw [List.length_cons] at hk ⊢
    rw [List.foldl_cons, show k + (r.length + 1) = k + 1 + r.length by omega]
    exact ih (by omega) (Jtag.sentIdcode_rise l b (by omega) h)

/-- The bit that is next goes out at the falling edge. -/
theorem Jtag.fall_tdo_sentIdcode {j : Jtag} {k : Nat} (l f : Bool) (hk : k < 32) (h : j.sentIdcode k) :
    (j.fall l f).tdo = some (idcode / 2 ^ k % 2 == 1) := by
  obtain ⟨ht, hi, hd⟩ := h
  have hdvd : 2 ∣ 2 ^ (32 - k) := dvd_pow_self 2 (by omega)
  rw [← hd, Nat.mod_mod_of_dvd _ hdvd]
  simp [Jtag.fall, ht, hi, tapInstr]

/-- Settles O58: by induction over the edges, of which each brings the next bit to the end of the register. -/
theorem idcodeShiftsOut : Obligations.IdcodeShiftsOut := by
  intro j l f tdi0 bs ht hi hl
  have h := Jtag.sentIdcode_rises l bs (by omega) (Jtag.sentIdcode_captured l tdi0 ht hi)
  rw [Nat.zero_add] at h
  exact Jtag.fall_tdo_sentIdcode l f (by omega) h

/-! ### A device in reset or without power (R469, R590, R593, R612; log 191) -/

section
variable {s : State} (hd : s.chip.dead = true)
include hd

theorem State.next_dead (c : Chip) :
    (.next { s with chip := if s.chip.dead then s.chip else c } : Host.Outcome State Fault Refusal) = .next s := by
  rw [if_pos hd]

theorem State.lnyRun_dead (op : Nat) (g : LnyCmd → State) : s.lnyRun op g = .next s := by
  simp [State.lnyRun, hd]

theorem State.tthRun_dead (code : Nat) (pec : Option Bool) (changes : Bool) (g : State → State) :
    s.tthRun code pec changes g = .next s := by
  simp [State.tthRun, hd]

/-- No endpoint of the service port answers. -/
theorem execLnyInToken_dead (ep : Fin 16) (ack : Bool) : execLnyInToken ep ack s = .next s := by
  simp [execLnyInToken, Chip.lnyBulk, Chip.lnyBus, hd]

/-- The host's requests reach no function. -/
theorem execRegisterWrite_dead (f : Fin 128) (bar4 : Bool) (off : Fin 0x2000000) (len : Fin 4097) (w hi : Word) :
    execRegisterWrite f bar4 off len w hi s = .next s := by
  simp [execRegisterWrite, Chip.hostReach, hd]

theorem execTthFabricTimeout_dead (k : Fin 8) : execTthFabricTimeout k s = .next s := by
  unfold execTthFabricTimeout
  dsimp only
  split
  · rfl
  · exact State.tthRun_dead hd ..

theorem exec_dead {c : Instr} (hr : reachesDead c = false) : exec c s = .next s := by
  cases c
  case resetNAssert | resetNRelease | powerOn | supplyFall | lnyVbusChange | tckEdge => cases hr
  case registerWrite => exact execRegisterWrite_dead hd ..
  case fuseBurnDone | keyHashBurnDone | debugLockBurnDone => exact if_pos (.inl hd)
  case lnyInToken => exact execLnyInToken_dead hd ..
  case lnyRead | lnyWrite | lnyHistory | lnyClear | lnyPower | lnyRetry | lnyReset | lnyIdentify | lnyCalExport
      | lnyCalWrite | lnyImageStage | lnyImageApply => exact State.lnyRun_dead hd ..
  case tthStatus | tthSelect | tthRegdataRead | tthRegdataWrite | tthPower | tthWake | tthRetry | tthClear | tthDoorbell
      | tthMailboxRead | tthReset => exact if_pos (.inl hd)
  case tthFabricTimeout => exact execTthFabricTimeout_dead hd _
  all_goals exact State.next_dead hd _

end

/-- Settles O38: by the form of each command's row, which asks first whether the device is alive. -/
theorem deadDeviceIgnoresCommands : Obligations.DeadDeviceIgnoresCommands := fun _ _ hd hr => exec_dead hd hr

end Sys2Proof.Machine
end

section
/-!
SUPPORT. The homed window after a write, the kinds of KINDSEV, and what a host in the safe state is answered.
-/
namespace Sys2Proof.Machine

/-! ### The window of a homed function (R404) -/

section
variable {h : Home} {o : Nat} {bs : List Byte}

theorem Home.mem_write (hw : h.within o bs.length = true) : (h.write o bs).mem = Memory.write h.mem o bs := by
  have hs : ¬ h.size < o + bs.length := Nat.not_lt.2 (of_decide_eq_true hw)
  rw [Home.write, if_neg hs]

/-- The bytes written read back. -/
theorem Home.read_write (hw : h.within o bs.length = true) : (h.write o bs).read o bs.length = bs := by
  refine List.ext_getElem (by simp) fun i hi hb => ?_
  simp [Home.read, Home.mem_write hw, Memory.get_write h.mem o bs hb]

/-- Every other byte of the window is as before. -/
theorem Home.get_write_ne (hw : h.within o bs.length = true) {i : Nat} (hi : i < o ∨ o + bs.length ≤ i) :
    Memory.get (h.write o bs).mem i = Memory.get h.mem i := by
  rw [Home.mem_write hw]
  exact Memory.get_write_ne _ _ _ hi

/-- A write of the device for a homed function goes to its window. -/
theorem Chip.hostWrite_home {c : Chip} {f : Nat} (hh : (c.fn f).home = some h) (a : Addr) (bs : List Byte) :
    ((c.hostWrite f a bs).fn f).home = some (h.write a.toNat bs) := by
  simp [Chip.hostWrite, hh]

end

/-- Settles O56. -/
theorem homedWindowHoldsWhatIsWritten : Obligations.HomedWindowHoldsWhatIsWritten := fun _ _ a bs h hh hw =>
  ⟨h.write a.toNat bs, Chip.hostWrite_home hh a bs, Home.read_write hw, h.size_write .., fun _ => Home.get_write_ne hw,
    h.wf_write _ _⟩

/-! ### The kinds of KINDSEV (R477) -/

/-- A message whose kind is in KINDSEV leaves its source SEVERE. -/
theorem FltSrc.severe_count1 (x : FltSrc) (m : FltMsg) : (x.count1 m true).severe = true := by
  cases hs : x.severe <;> cases hw : x.win <;> simp [FltSrc.count1, hs, hw]

theorem Chip.accept_severe {c : Chip} {src : Nat} {m : FltMsg} (h : c.flt.kindSev m.kind = true) :
    ((c.accept src m).fltSrc src).severe = true := by
  rw [Chip.accept_fltSrc, if_pos rfl, h, FltSrc.severe_count1]

theorem Chip.bar0Val_kindSev0 (c : Chip) (l : Locks) (t : Otp) : c.bar0Val l t 0 0x50008 = c.flt.kindsev0 := rfl
theorem Chip.bar0Val_kindSev1 (c : Chip) (l : Locks) (t : Otp) : c.bar0Val l t 0 0x5000C = c.flt.kindsev1 := rfl

theorem Flt.kindSev_low {x : Flt} {k : Nat} (h : k < 32) : x.kindSev k = bit x.kindsev0 k := if_pos h
theorem Flt.kindSev_high {x : Flt} {k : Nat} (h : 32 ≤ k) : x.kindSev k = bit x.kindsev1 (k - 32) := if_neg h.not_gt

/-- At reset KINDSEV holds RETENTION_LOST, READY_TIMEOUT, SELFTEST_FAIL and THERMAL_CRIT. -/
theorem Flt.kindSev_reset : ∀ k < 64, (State.reset.chip.flt.kindSev k = true ↔
    k = Kind.retentionLost ∨ k = Kind.readyTimeout ∨ k = Kind.selftestFail ∨ k = Kind.thermalCrit) := by
  decide

/-- Settles O54. -/
theorem kindSevMakesSevere : Obligations.KindSevMakesSevere :=
  ⟨fun _ _ _ => Chip.accept_severe,
    fun c l t _ => ⟨fun h => by rw [c.bar0Val_kindSev0 l t, Flt.kindSev_low h],
      fun h _ => by rw [c.bar0Val_kindSev1 l t, Flt.kindSev_high h]⟩,
    Flt.kindSev_reset⟩

/-! ### The host in the safe state (R501) -/

theorem execRegisterWrite_safe {s : State} (f : Fin 128) (bar4 : Bool) (off : Fin 0x2000000) (len : Fin 4097) (w hi : Word)
    (hs : s.chip.tst.safe = true) : execRegisterWrite f bar4 off len w hi s = .next s :=
  if_pos (.inr hs)

/-- Only GBL_STATE and the TST block of PF0 read as usual. -/
theorem safeReads_iff {f o : Nat} {bar4 : Bool} :
    safeReads f bar4 o = true ↔ f = 0 ∧ bar4 = false ∧ (o = 0x0008 ∨ o / 0x10000 = 0x1B) := by
  simp [safeReads, and_assoc]

theorem Chip.hostRead_safe {c : Chip} {f o : Nat} {bar4 : Bool} (l : Locks) (t : Otp) (hs : c.tst.safe = true)
    (hr : safeReads f bar4 o = false) : c.hostRead l t f bar4 o = (0xFFFFFFFF#32, c) :=
  if_pos (by simp [hs, hr])

/-- Settles O51. -/
theorem safeStateAnswersTheHost : Obligations.SafeStateAnswersTheHost :=
  ⟨fun _ f bar4 off len w hi => execRegisterWrite_safe f bar4 off len w hi, fun _ l t _ _ _ hs hr => by
    rw [Chip.hostRead_safe l t hs (Bool.eq_false_iff.2 (mt safeReads_iff.1 hr))]⟩

end Sys2Proof.Machine
end

section
/-!
SUPPORT. The order of an admin command's checks (R425), the commands that run long operations, and the calibration write
that names a worn slot.
-/
namespace Sys2Proof.Machine

/-! ### The first check that fails (R425, R429; logs 34 and 163) -/

section
variable {c : Chip} {f op : Nat} {d : List Word} {checks : List Word → List (Option (Nat × Word))}
  {e : List Word → Chip → Chip}

/-- A command of PF0 that another function gives is denied before anything else is looked at (R429). -/
theorem Chip.admin_denied (hr : (c.fn f).aq.running = some d) (hb : (c.fn f).aq.begun = false)
    (ho : bits (dw d 0) 7 0 = op) (hp : pf0Only op = true) (hf : f ≠ 0) :
    c.admin f op checks e = c.adminDone f Ad.access :=
  Chip.admin_fails hr hb ho (by simp [denied, hp, hf])

/-- A command that its issuer may give and the device's state does not bar ends with the first of its row's checks that
fails. -/
theorem Chip.admin_firstFails {st : Nat} {w : Word} (hr : (c.fn f).aq.running = some d)
    (hb : (c.fn f).aq.begun = false) (ho : bits (dw d 0) 7 0 = op) (hp : pf0Only op = true → f = 0)
    (he : c.enteringBars op = false) (hc : (checks d).findSome? id = some (st, w)) :
    c.admin f op checks e = c.adminDone f st w := by
  have hd : (pf0Only op && f != 0) = false := by
    cases h : pf0Only op
    · rfl
    · simp [hp h]
  refine Chip.admin_fails hr hb ho ?_
  rw [hd, he, findSome_denied_false, findSome_badState_false, hc]

end

/-- Settles O50. -/
theorem adminChecksInOrder : Obligations.AdminChecksInOrder :=
  ⟨fun _ _ _ _ _ _ => Chip.admin_denied, fun _ _ _ _ _ _ _ _ => Chip.admin_firstFails⟩

/-! ### The commands that run long operations (R430, R434, R437, R439, R509, R539, R551, R552) -/

section
variable {s : State} {d : List Word}

theorem execSelftest_allowed (hu : s.up) (hc : s.carries 0 0x11 d) (hl : 64 ≤ admLen d)
    (hk : 1 ≤ stKind d ∧ stKind d ≤ 4) (ht : stTargetBad d = false) (hr : s.chip.testRefused d = false) :
    execSelftest s = .next (s.upd fun c => c.testStart d) :=
  State.live_admin_passes hu hc (by simp [hl, Nat.one_le_iff_ne_zero.1 hk.1, hk.2, ht, hr])

/-- With room in the table, a download opens its operation, reads its payload and sends the first chunk (R434). -/
theorem execPeriphDownload_allowed {f : Fin 128} (payload : List Byte) {r : Chip} (hu : s.up) (hc : s.carries f 0x12 d)
    (ho : s.chip.epOwner (dlEp d) = some f.val) (hl : dlLen d ≠ 0) (hb : s.chip.bufFault f d (dlLen d) = none)
    (he : s.chip.dlEpBad d = false) (hk : s.chip.dlChunkBad d = false)
    (hs : dlControl d = true → bit (dw d 7) 7 = false ∧ bits (dw d 7) 6 5 ≠ 0 ∧ bits (dw d 7) 6 5 ≠ 3)
    (hi : s.chip.dlInUse (dlEp d) = false) (hr : s.chip.opRoom f = some r) :
    execPeriphDownload f payload s = .next (s.upd fun _ =>
      let x := (r.adminLater f).newOp f .download (admCid d) d (dlTotal d)
      ((x.2.hostReadReq f (admAddr d) (dlLen d)).updOp x.1 fun o =>
        { o with payload := (x.2.hostReadData f (admAddr d) (dlLen d) payload).take (dlLen d) }).dlSend x.1) := by
  have hset : (dlControl d && (bit (dw d 7) 7 || bits (dw d 7) 6 5 == 0 || bits (dw d 7) 6 5 == 3)) = false := by
    cases h : dlControl d
    · rfl
    · obtain ⟨h7, h0, h3⟩ := hs h
      simp [h7, h0, h3]
  exact State.live_admin_eq hu hc (by simp [ho, hl, hb, he, hk, hset, hi]) (by simp [hr])

/-- A measurement opens its operation, with a lane's task for it (R430; log 260). -/
theorem execCalMeasure_allowed {r : Chip} (hu : s.up) (hc : s.carries 0 0x13 d) (hl : 72 ≤ admLen d)
    (hn : 16 ≤ cmSamples d ∧ cmSamples d ≤ 4096) (hk : s.chip.cluRuns (bits (dw d 5) 3 0) = true)
    (hr : s.chip.opRoom 0 = some r) :
    execCalMeasure s = .next (s.upd fun _ => ((r.adminLater 0).newOp 0 .calMeasure (admCid d) d
      (cmSamples d * (cmChannels d).length)).2.measureTask) :=
  State.live_admin_eq hu hc (by simp [hl, hn.1, hn.2, hk]) (by simp [hr])

theorem execImageStage_allowed (payload : List Byte) (hu : s.up) (hc : s.carries 0 0x15 d)
    (hl : 1 ≤ admLen d ∧ admLen d ≤ 4194304) (hr : s.chip.stageRefused = false) :
    execImageStage payload s = .next (s.upd fun c =>
      ((c.hostReadReq 0 (admAddr d) (admLen d)).adminBegun 0).stageStart .admin s.otp.keyHash
        ((c.hostReadData 0 (admAddr d) (admLen d) payload).take (admLen d))) :=
  State.live_admin_passes hu hc (by simp [Nat.one_le_iff_ne_zero.1 hl.1, hl.2, hr])

theorem execImageApply_allowed (hu : s.up) (hc : s.carries 0 0x16 d) (hb : s.chip.applyBad (bits (dw d 5) 7 0) = false)
    (hr : s.chip.applyRefused = false) :
    execImageApply s = .next (s.upd fun c => (c.imageApply (bits (dw d 5) 7 0)).adminDone 0 Ad.success) :=
  State.live_admin_passes hu hc (by simp [hb, hr])

theorem execQueryOp_allowed {f : Fin 128} (hu : s.up) (hc : s.carries f 0x23 d) (hl : 32 ≤ admLen d)
    (hb : s.chip.bufFault f d (admLen d) = none) : execQueryOp f s = .next (s.upd fun c => c.queryOp f d) :=
  State.live_admin_passes hu hc (by simp [hl, hb])

/-- A LONG_ command on an operation that it finds, and that neither ends nor has ended, has its effect (R439). -/
theorem State.live_longCmd {f : Fin 128} {op : Nat} {g : Op → List Word → Chip → Chip} {o : Op} (hu : s.up)
    (hc : s.carries f op d) (hs : s.chip.opSeen f (bits (dw d 5) 15 0) = some o)
    (ho : o.st = .running ∨ o.st = .suspended) :
    (s.live fun c => c.longCmd f op g) = .next (s.upd fun c => g o d c) := by
  have hn : ¬ (o.st = .cancelling ∨ o.st = .done) := by rcases ho with h | h <;> simp [h]
  exact State.live_admin_eq (checks := fun _ _ => []) (e := fun _ d c => match c.opSeen f (bits (dw d 5) 15 0) with
    | none => c.adminDone f Ad.noOp
    | some o => if o.st = .cancelling ∨ o.st = .done then c.adminDone f Ad.badState 0#32 [] o.opid else g o d c)
    hu hc (by simp) (by simp [hs, hn])

end

/-! ### A calibration write from the admin queue (R539, R540) -/

section
variable {s : State} {d : List Word} {payload : List Byte}

/-- The DETAIL of an illegal body is drawn from the free values first, and the command is carried out on the chip then
(log 183). -/
theorem State.carries_fresh {f op : Nat} (hc : s.carries f op d) : (s.upd fun c => c.fresh.2).carries f op d := hc

/-- The body of a calibration write is the one that its type allows. -/
def Chip.calFits (c : Chip) (d : List Word) (payload : List Byte) : Prop :=
  calLen (bits (dw d 5) 7 0) = some (admLen d) ∧
  calBodyOk (bits (dw d 5) 7 0) ((c.hostReadData 0 (admAddr d) (admLen d) payload).take (admLen d)) = true

/-- The checks of a calibration write, in their order; `v` is the DETAIL of an illegal body (R539, R540). -/
def Chip.calChecks (c : Chip) (l : Locks) (v : Nat) (payload : List Byte) (d : List Word) : List (Option (Nat × Word)) :=
  [badParam (calLen (bits (dw d 5) 7 0)).isNone 0x14 0, badParam (calLen (bits (dw d 5) 7 0) != some (admLen d)) 0x10 0,
    if calBodyOk (bits (dw d 5) 7 0) ((c.hostReadData 0 (admAddr d) (admLen d) payload).take (admLen d)) then none
    else some (Ad.invalidParam, BitVec.ofNat 32 v),
    lacking (c.calWorn (bits (dw d 5) 7 0)), badState (c.calRefused l)]

theorem Chip.calChecks_pass {c : Chip} {l : Locks} (v : Nat) (hf : c.calFits d payload)
    (hw : c.calWorn (bits (dw d 5) 7 0) = false) (hr : c.calRefused l = false) :
    (c.calChecks l v payload d).findSome? id = none := by
  obtain ⟨hl, hb⟩ := hf
  simp [Chip.calChecks, hl, hb, hw, hr]

/-- A worn slot refuses the write before a LOCK bit or a write that runs does (log 34). -/
theorem Chip.calChecks_worn {c : Chip} (l : Locks) (v : Nat) (hf : c.calFits d payload)
    (hw : c.calWorn (bits (dw d 5) 7 0) = true) :
    (c.calChecks l v payload d).findSome? id = some (Ad.resource, 0#32) := by
  obtain ⟨hl, hb⟩ := hf
  simp [Chip.calChecks, hl, hb, hw, lacking]

theorem execCalWrite_allowed (hu : s.up) (hc : s.carries 0 0x14 d) (hf : s.chip.fresh.2.calFits d payload)
    (hw : s.chip.fresh.2.calWorn (bits (dw d 5) 7 0) = false) (hr : s.chip.fresh.2.calRefused s.locks = false) :
    execCalWrite payload s = .next (s.upd fun c =>
      ((c.fresh.2.hostReadReq 0 (admAddr d) (admLen d)).adminBegun 0).calStart .admin (bits (dw d 5) 7 0)
        ((c.fresh.2.hostReadData 0 (admAddr d) (admLen d) payload).take (admLen d))) := by
  obtain ⟨hrun, hb, ho, hp, he⟩ := State.carries_fresh hc
  exact State.live_eq_upd hu (Chip.admin_passes (checks := s.chip.fresh.2.calChecks s.locks (Config.freeNat s.chip.free) payload) hrun hb
    ho hp he (Chip.calChecks_pass _ hf hw hr))

theorem execCalWrite_worn (hu : s.up) (hc : s.carries 0 0x14 d) (hf : s.chip.fresh.2.calFits d payload)
    (hw : 1000 ≤ (s.chip.calSlot (bits (dw d 5) 7 0)).writes) :
    execCalWrite payload s = .next (s.upd fun c => c.fresh.2.adminDone 0 Ad.resource) := by
  obtain ⟨hrun, hb, ho, hp, he⟩ := State.carries_fresh hc
  exact State.live_eq_upd hu (Chip.admin_firstFails (checks := s.chip.fresh.2.calChecks s.locks (Config.freeNat s.chip.free) payload) hrun
    hb ho hp he (Chip.calChecks_worn _ _ hf (decide_eq_true hw)))

end

/-- Settles O6, one command after another. -/
theorem longOperationCommandsComplete : Obligations.LongOperationCommandsComplete :=
  ⟨fun _ _ => execSelftest_allowed, fun _ _ _ payload _ => execPeriphDownload_allowed payload,
    fun _ _ _ => execCalMeasure_allowed, fun _ _ _ hu hc hl hb => execCalWrite_allowed hu hc ⟨hl, hb⟩,
    fun _ _ payload => execImageStage_allowed payload, fun _ _ => execImageApply_allowed,
    fun _ _ _ _ => State.live_longCmd, fun _ _ _ _ => State.live_longCmd, fun _ _ _ _ => State.live_longCmd,
    fun _ _ _ => execQueryOp_allowed⟩

/-! ### What an answer leaves of the calibration store (R540) -/

section
variable (c : Chip)

@[simp] theorem Chip.sendMsg_cal (f v : Nat) : (c.sendMsg f v).cal = c.cal := by
  unfold Chip.sendMsg
  split <;> rfl

@[simp] theorem Chip.deliver_cal (f v : Nat) : (c.deliver f v).cal = c.cal := by
  unfold Chip.deliver
  split
  · simp
  · split <;> simp

@[simp] theorem Chip.vecArrive_cal (f v : Nat) : (c.vecArrive f v).cal = c.cal := by
  have hc : (c.vecCount f v).cal = c.cal := by
    unfold Chip.vecCount
    split <;> simp
  unfold Chip.vecArrive Chip.vecJudge
  split <;> simp [hc]

@[simp] theorem Chip.entryArrive_cal (f i : Nat) : (c.entryArrive f i).cal = c.cal := by
  unfold Chip.entryArrive Chip.countArrival Chip.inLevel
  dsimp only
  split <;> simp

@[simp] theorem Chip.hostWrite_cal (f : Nat) (a : Addr) (bs : List Byte) : (c.hostWrite f a bs).cal = c.cal := by
  unfold Chip.hostWrite
  split <;> rfl

theorem Chip.adminWrite_cal (f : Nat) (a : AdminCpl) : (c.adminWrite f a).cal = c.cal := by
  unfold Chip.adminWrite
  dsimp only
  split
  · rfl
  split
  · simp
  · split <;> simp

/-- The answer of an admin command writes no slot of the store. -/
@[simp] theorem Chip.adminDone_cal (f st : Nat) (w : Word) (outs : List Word) (i : Nat) :
    (c.adminDone f st w outs i).cal = c.cal := by
  unfold Chip.adminDone
  split
  · rfl
  · dsimp only
    split
    · simp
    · simp [Chip.adminWrite_cal]

/-- Nor does that of a command of the service port. -/
@[simp] theorem Chip.lnyDone_cal (st : Nat) (o0 o1 : Word) (bs : List Byte) : (c.lnyDone st o0 o1 bs).cal = c.cal := by
  unfold Chip.lnyDone
  split <;> rfl

end

/-- The service port refuses a worn slot in the same place (R540; log 34). -/
theorem execLnyCalWrite_worn {s : State} {m : LnyCmd} (ha : s.asksLny 0x0A m)
    (hb : calBodyOk m.arg0.toNat m.data = true) (hw : 1000 ≤ (s.chip.calSlot m.arg0.toNat).writes) :
    execLnyCalWrite s = .next (s.upd fun c => c.lnyDone Ad.resource) := by
  have hworn : s.chip.calWorn m.arg0.toNat = true := decide_eq_true hw
  refine (State.lnyRun_takes ha).trans (congrArg _ ?_)
  simp [State.upd, hb, hworn]

/-- Settles O55: the check of the slot ends the command, and its answer leaves the store. -/
theorem wornSlotIsKept : Obligations.WornSlotIsKept :=
  ⟨fun s _ _ hu hc hl hb hw => ⟨execCalWrite_worn hu hc ⟨hl, hb⟩ hw, s.chip.fresh.2.adminDone_cal ..⟩,
    fun s _ ha hb hw => ⟨execLnyCalWrite_worn ha hb hw, s.chip.lnyDone_cal ..⟩⟩

end Sys2Proof.Machine
end

section
/-!
SUPPORT. The frames and records that the network brings (R400, R402, R408 to R416), and the sending, the link timers and
the security associations (R401, R412, R417, R418, R422).
-/
namespace Sys2Proof.Machine

section
variable {s : State} {i : Fin 2}

/-! ### Frames without a listed type (R400, R407) -/

/-- The header dword is that of a frame of the protocol with a listed KIND. -/
def listedHdr (hdr : Word) : Bool := bits hdr 7 0 == 1 && decide (1 ≤ bits hdr 11 8) && decide (bits hdr 11 8 ≤ 6)

/-- A frame of no listed KIND: where port `i` accepts it, it is counted as dropped, or as a bad record of the association
that it names. -/
def Chip.unlistedFrame (c : Chip) (i : Nat) (f : EthFrame) (hdr : Word) : Chip :=
  let r := c.rxFrame i f
  if r.1 ≠ .accepted then r.2
  else match r.2.slotOf i (hdr.extractLsb' 16 16) with
    | none => r.2.updEth i fun p => p.drop 2
    | some k => r.2.updAssoc k fun a => { a with badRec := satAdd 0xFFFF a.badRec 1 }

theorem execEthernetFrameReceived_unlisted (f : EthFrame) {hdr : Word} (hu : s.up) (hr : s.chip.rxRuns i = true)
    (hl : listedHdr hdr = false) :
    execEthernetFrameReceived i f hdr s = .next (s.upd fun c => c.unlistedFrame i f hdr) := by
  unfold listedHdr at hl
  refine State.live_eq_upd hu ?_
  simp only [hr, hl, Bool.not_true, Bool.false_eq_true, if_false]
  rfl

/-! ### DATA, ACK and CLOSE (R410, R414 to R417, R419) -/

section
variable {f : RxFrame} {k : Nat} {c' : Chip}

/-- A DATA frame in sequence: the association moves to port `i` and opens where it was STALLED (logs 139 and 145), its
records are applied to function `g`, and it is acknowledged when asked for or due. -/
def Chip.dataTaken (c : Chip) (k g i : Nat) (f : RxFrame) : Chip :=
  let c := (c.takeWin k f).portOf k i
  let c := if (c.assoc k).st = .stalled then c.assocSt k .opened else c
  let c := c.updAssoc k fun a => { a with rxSeq := a.rxSeq + 1#32, rxUnacked := a.rxUnacked + 1 }
  let c := c.applyRecs k g f.seq f.recs
  c.ackIf k (f.ackreq || decide (16 ≤ (c.assoc k).rxUnacked) || ((c.assoc k).ackDly == 0 && (c.assoc k).rxUnacked != 0))

theorem execCrqData_inSequence {g : Nat} (hu : s.up) (hr : s.chip.rxRuns i = true)
    (ha : s.chip.rxAssoc i f = (some k, c')) (hs : ((c'.takeAck k f.ack).assoc k).rxSeq = f.seq)
    (hg : ((c'.takeAck k f.ack).assoc k).fn = some g) :
    execCrqData i f s = .next (s.upd fun _ => (c'.takeAck k f.ack).dataTaken k g i f) := by
  have h0 : (f.seq - f.seq).toNat = 0 := by simp
  refine State.live_eq_upd hu ?_
  simp only [hr, ha, hs, hg, h0, Bool.not_true, Bool.false_eq_true, ne_eq, not_true_eq_false, if_false]
  rfl

theorem execCrqAck_taken (hu : s.up) (hr : s.chip.rxRuns i = true) (ha : s.chip.rxAssoc i f = (some k, c')) :
    execCrqAck i f s = .next (s.upd fun _ => ((c'.takeAck k f.ack).takeWin k f).ackIf k f.ackreq) :=
  State.live_eq_upd hu (by simp [hr, ha])

theorem execCrqClose_taken (hu : s.up) (hr : s.chip.rxRuns i = true) (ha : s.chip.rxAssoc i f = (some k, c')) :
    execCrqClose i f s = .next (s.upd fun _ => (c'.takeAck k f.ack).assocDormant k false) :=
  State.live_eq_upd hu (by simp [hr, ha])

/-! ### OPEN (R402, R413) -/

/-- Association `k` takes the OPEN frame `f`: its tag, its MACsec and its peer are as the association wants them. -/
def Assoc.takesOpen (a : Assoc) (f : RxFrame) : Prop :=
  a.tagOk f.eth = true ∧ (a.macReq = true → f.eth.sec ≠ none) ∧ (a.peer = 0 ∨ a.peer = f.eth.sa.toNat)

theorem execCrqOpen_taken {g : Nat} (hu : s.up) (hr : s.chip.rxRuns i = true)
    (hf : (s.chip.rxFrame i f.eth).1 = .accepted) (hk : (s.chip.rxFrame i f.eth).2.slotOf i f.assoc = some k)
    (ha : ((s.chip.rxFrame i f.eth).2.assoc k).takesOpen f) (hg : ((s.chip.rxFrame i f.eth).2.assoc k).fn = some g) :
    execCrqOpen i f s = .next (s.upd fun c =>
      ((c.rxFrame i f.eth).2.updEth i fun p => { p with rxcnt := satAdd 0xFFFFFFFF p.rxcnt 1 }).opening k g i f) := by
  obtain ⟨ht, hm, hp⟩ := ha
  have hsec : (((s.chip.rxFrame i f.eth).2.assoc k).macReq && f.eth.sec.isNone) = false := by
    cases h : ((s.chip.rxFrame i f.eth).2.assoc k).macReq
    · rfl
    · simpa [Option.isSome_iff_ne_none] using hm h
  have hpeer : ¬ (((s.chip.rxFrame i f.eth).2.assoc k).peer ≠ 0 ∧
      ((s.chip.rxFrame i f.eth).2.assoc k).peer ≠ f.eth.sa.toNat) := fun h => hp.elim h.1 h.2
  exact State.live_eq_upd hu (by simp [hr, hf, hk, ht, hsec, hpeer, hg])

end

/-! ### Records on their own (R408; log 141) -/

/-- A record of the last frame in sequence of an association that runs is applied to its function. -/
theorem State.rec_live {a : Fin 32} {g : Nat} (j : Nat) (r : RecIn) (hu : s.up) (hn : s.chip.netRuns = true)
    (hl : (s.chip.assoc a).live = true) (hg : (s.chip.assoc a).fn = some g) :
    s.rec_ a j r = .next (s.upd fun c => (c.applyRec a g j ((c.assoc a).rxSeq - 1#32) r).2) :=
  State.live_eq_upd hu (by simp [hg, hn, hl])

/-! ### Sending and the timers (R401, R412, R417, R418, R420) -/

theorem execDataFrameSend_up (k : Fin 32) (hu : s.up) : execDataFrameSend k s = .next (s.upd fun c => c.dataSend k) :=
  State.live_up hu

theorem execPcsLinkStatusChange_enabled (ok : Bool) (hu : s.up) (hn : s.chip.netRuns = true)
    (he : (s.chip.eth i).en = true) :
    execPcsLinkStatusChange i ok s =
      .next (s.upd fun c => c.updEth i fun p => { p with pcsOk := ok, timer := ok != p.link }) :=
  State.live_eq_upd hu (if_pos ⟨hn, he⟩)

theorem execLinkDownTimer_fails (hu : s.up) (ht : (s.chip.eth i).timer = true) (hl : (s.chip.eth i).link = true)
    (hp : (s.chip.eth i).pcsOk = false) :
    execLinkDownTimer i s = .next (s.upd fun c =>
      let c := c.updEth i fun p => { p with link := false, timer := false, downs := satAdd 0xFFFF p.downs 1 }
      let c := (c.shInput (35 + i) false).report (netSrc i) Kind.linkDown 0
      c.each (c.assocsWhere fun a => a.live && a.curPort == i.val) fun c k => c.failOrStall k) :=
  State.live_eq_upd hu (if_pos (by simp [ht, hl, hp]))

/-- A STALLED association moves as the other link comes up (log 137). -/
theorem execLinkUpTimer_comesUp (hu : s.up) (ht : (s.chip.eth i).timer = true) (hl : (s.chip.eth i).link = false)
    (hp : (s.chip.eth i).pcsOk = true) :
    execLinkUpTimer i s = .next (s.upd fun c =>
      let c := (c.updEth i fun p => { p with link := true, timer := false }).shInput (35 + i) true
      c.each (c.assocsWhere fun a => a.st == .stalled && a.curPort != i.val) fun c k =>
        if !(c.eth (c.assoc k).curPort).link && c.canFail k then c.failover k else c) :=
  State.live_eq_upd hu (if_pos (by simp [ht, hl, hp]))

section
variable {k : Fin 32}

theorem execRetransmissionTimeout_due (hu : s.up) (hr : (s.chip.assoc k).retx = true)
    (hl : (s.chip.assoc k).live = true) (hq : (s.chip.assoc k).unacked ≠ []) :
    execRetransmissionTimeout k s = .next (s.upd fun c =>
      let d := c.updAssoc k fun a =>
        { a with expiries := satAdd 0xFFFF a.expiries 1, tries := a.tries + 1, backoff := min 8 (2 * a.backoff) }
      if (c.assoc k).retryLimit ≤ (c.assoc k).tries + 1 then
        (if d.canFail k then d.failover k
        else ((d.resend k).assocStall k).updAssoc k fun a => { a with backoff := 8 })
      else d.resend k) :=
  State.live_eq_upd hu (if_neg (by simp [hr, hl, hq]))

theorem execAckDelayExpiry_due (hu : s.up) (hl : (s.chip.assoc k).live = true) (hq : (s.chip.assoc k).rxUnacked ≠ 0) :
    execAckDelayExpiry k s = .next (s.upd fun c => c.ackNow k) :=
  State.live_eq_upd hu (if_pos (by simp [hl, hq]))

theorem execAssoctmoExpiry_stalled (hu : s.up) (hs : (s.chip.assoc k).st = .stalled) :
    execAssoctmoExpiry k s = .next (s.upd fun c => c.assocDormant k false) :=
  State.live_eq_upd hu (if_pos hs)

end

/-! ### Security associations (R422) -/

section
variable (hu : s.up) (hr : s.chip.regsLive = true)
include hu hr

theorem execSaInstall_regsLive : execSaInstall i s = .next (s.upd fun c => c.saInstall i) :=
  State.live_eq_upd hu (if_pos hr)

theorem execSaEnable_regsLive (b : Bool) : execSaEnable i b s = .next (s.upd fun c => c.saEnable i b) :=
  State.live_eq_upd hu (if_pos hr)

theorem execSadataWrite_regsLive (w : Word) : execSadataWrite i w s = .next (s.upd fun c => c.saData i w) :=
  State.live_eq_upd hu (if_pos hr)

end

end

/-- Settles O21, one frame after another; the records share one form. -/
theorem networkReceiveRowsComplete : Obligations.NetworkReceiveRowsComplete :=
  ⟨fun _ _ f _ => execEthernetFrameReceived_unlisted f,
    fun _ _ _ _ _ _ => execCrqData_inSequence,
    fun _ _ _ _ _ hu hr ha => ⟨execCrqAck_taken hu hr ha, execCrqClose_taken hu hr ha⟩,
    fun _ _ _ _ _ hu hr hf hk ht hm hp hg => execCrqOpen_taken hu hr hf hk ⟨ht, hm, hp⟩ hg,
    fun _ _ j _ hu hn hl hg => ⟨fun _ _ => State.rec_live j _ hu hn hl hg, fun _ _ => State.rec_live j _ hu hn hl hg,
      fun _ _ => State.rec_live j _ hu hn hl hg, fun _ _ _ => State.rec_live j _ hu hn hl hg,
      fun _ _ => State.rec_live j _ hu hn hl hg, fun _ _ => State.rec_live j _ hu hn hl hg⟩⟩

/-- Settles O22, one row after another. -/
theorem networkTimersAndSettingsComplete : Obligations.NetworkTimersAndSettingsComplete :=
  ⟨fun _ k hu => execDataFrameSend_up k hu, fun _ _ ok => execPcsLinkStatusChange_enabled ok, fun _ _ => execLinkDownTimer_fails,
    fun _ _ => execLinkUpTimer_comesUp, fun _ _ => execRetransmissionTimeout_due, fun _ _ => execAckDelayExpiry_due,
    fun _ _ => execAssoctmoExpiry_stalled,
    fun _ _ b w hu hr => ⟨execSaInstall_regsLive hu hr, execSaEnable_regsLive hu hr b, execSadataWrite_regsLive hu hr w⟩⟩

end Sys2Proof.Machine
end

section
/-!
SUPPORT. The steps of power entry and the wakes (R447, R448, R451 to R456, R460).
-/
namespace Sys2Proof.Machine

section
variable {s : State}

/-! ### The waits of an entry (R447, R448, R451) -/

theorem execEntryDrainTimeout_device (hu : s.up) (he : s.chip.sleepJudge.pwr.st = .entering)
    (h2 : s.chip.sleepJudge.pwr.step = 2) :
    execEntryDrainTimeout none s = .next (s.upd fun c =>
      ((c.sleepJudge.cancelOn fun _ => true).updPwr fun x => { x with step := 3 }).entryJudge) :=
  State.live_eq_upd hu (if_neg (by simp [he, h2]))

theorem execEntryDrainTimeout_cluster {k : Fin 16} (hu : s.up) (h1 : (s.chip.sleepJudge.clu k).slStep = 1) :
    execEntryDrainTimeout (some k) s = .next (s.upd fun c =>
      ((c.sleepJudge.cancelOn (inClu k)).updClu k fun x => { x with slStep := 2 }).cluJudge k) :=
  State.live_eq_upd hu (if_neg (by simp [h1]))

theorem execPcieLinkStateChange_free (l : LinkSt) (hu : s.up) (hh : s.chip.tst.linkHeld = false)
    (hp : s.chip.tst.postdone = true ∨ 4 < s.chip.tst.stage) :
    execPcieLinkStateChange l s = .next (s.upd fun c =>
      let c := c.dmaChange fun c =>
        { c with pci := { c.pci with link := l, holdLink := c.pci.holdLink && l != LinkSt.l0 } }
      let c := if l = .l0 then c.wakeRelease else c
      (if c.pwr.st = .nap ∧ c.pwr.hostOn ∧ l = .l12 then
        c.updPwr fun x => { x with hostOn := false, hostGated := true }
      else c).entryJudge) :=
  State.live_eq_upd hu (if_neg (by simpa [hh, or_iff_not_imp_left] using hp))

/-- The entry waits for L1.2 and goes to `t`. -/
def Chip.awaitsL12 (c : Chip) (t : PwrState) : Prop := c.pwr.st = .entering ∧ c.pwr.step = 7 ∧ c.pwr.target = t

theorem execNapwaitExpiry_waits (hu : s.up) (h : s.chip.entryJudge.awaitsL12 .nap) :
    execNapwaitExpiry s =
      .next (s.upd fun c => c.entryJudge.updPwr fun x => { x with hostOn := true, step := 8 }) :=
  State.live_eq_upd hu (if_pos h)

theorem execDeepwaitExpiry_waits (hu : s.up) (h : s.chip.entryJudge.awaitsL12 .deep) :
    execDeepwaitExpiry s = .next (s.upd fun c => c.entryJudge.abortEntry 3) :=
  State.live_eq_upd hu (if_pos h)

/-! ### The signatures and the closing window (R447, R453, R467; logs 151 and 152) -/

theorem execSignaturesDone_device (hu : s.up) (he : s.chip.entryJudge.pwr.st = .entering)
    (h8 : s.chip.entryJudge.pwr.step = 8)
    (hc : s.chip.entryJudge.pwr.gates = true → s.chip.entryJudge.cal.busy = none) :
    execSignaturesDone none s =
      .next (s.upd fun c => c.entryJudge.updPwr fun x => { x with step := 9, window := true }) :=
  State.live_eq_upd hu (if_pos ⟨he, h8, fun ⟨hg, hb⟩ => by simp [hc hg] at hb⟩)

theorem execSignaturesDone_cluster {k : Fin 16} (hu : s.up) (h4 : (s.chip.clu k).slStep = 4) :
    execSignaturesDone (some k) s = .next (s.upd fun c =>
      let d := (c.updClu k fun x => { x with asleep := true, slStep := 0, locked := false, slWake := false }).updPwr
        fun x => { x with clusleep := x.clusleep ||| 2 ^ k.val }
      if (c.clu k).slWake then d.cluWake k else d) :=
  State.live_eq_upd hu (if_pos h4)

section
variable (hu : s.up) (he : s.chip.pwr.st = .entering) (h8 : s.chip.pwr.step = 8) (hg : s.chip.pwr.gates = true)
include hu he h8 hg

theorem execSignatureTimeout_group {n : Fin 16} (hn : n.val ≠ 0) :
    execSignatureTimeout (.group n) s = .next (s.upd fun c =>
      (c.updPwr fun x => { x with sigLostG := x.sigLostG ++ [n.val] }).aonReport 0x130 Kind.readyTimeout (0x0E0 + n)) :=
  State.live_eq_upd hu (if_pos (by simp [he, h8, hg, hn]))

theorem execSignatureTimeout_island (cls : Fin 9) (n : Fin 144) :
    execSignatureTimeout (.island cls n) s = .next (s.upd fun c =>
      (c.updPwr fun x => { x with sigLostI := x.sigLostI ++ [islNum cls n] }).aonReport 0x130 Kind.readyTimeout cls) :=
  State.live_eq_upd hu (if_pos (by simp [he, h8, hg]))

end

/-- The closing window ends with no level wake asserted: the device is in the state that it was entering. -/
theorem execClosingWindowEnd_unwoken (hu : s.up) (he : s.chip.pwr.st = .entering) (hw : s.chip.pwr.window = true)
    (ht : s.chip.pwr.target ≠ .doze) (hl : s.chip.levelWakes s.chip.pwr.target = []) :
    execClosingWindowEnd s = .next (s.upd fun c =>
      let d := c.updPwr fun x => { x with
        st := c.pwr.target, step := 0, target := .active, lastRes := 1, entries := satAdd 0xFFFF x.entries 1
        window := false, ungated := [], reg3Off := c.pwr.target == .deep && x.armed.isEmpty
        levels := x.levels.filter fun b => b == 3 }
      (d.each [0, 1] fun c i =>
        c.updEth i fun p => { p with link := false, pcsOk := false, timer := false }).lnyJudge) :=
  State.live_eq_upd hu (by simp [he, hw, ht, hl])

/-! ### Wakes (R452 to R457) -/

/-- The event of an armed port whose cluster neither sleeps nor enters a sleep. -/
theorem execPortWakeEvent_awake {p : Fin 128} {k : Bool} (hu : s.up) (ha : s.chip.pwr.armed.contains p.val = true)
    (hs : (s.chip.clu (p / 8)).asleep = false) (h0 : (s.chip.clu (p / 8)).slStep = 0)
    (hk : (s.chip.wakeOn 1 false (some p.val) k).clu (p / 8) = s.chip.clu (p / 8)) :
    execPortWakeEvent p k s = .next (s.upd fun c => c.wakeOn 1 false (some p.val) k) :=
  State.live_eq_upd hu ((if_neg (by simpa using ha)).trans (by simp [hk, hs, h0]))

theorem execWakeTimerZero_runs (hu : s.up) (ht : s.chip.pwr.wakeTmr ≠ 0#32) :
    execWakeTimerZero s = .next (s.upd fun c =>
      (c.updPwr fun x => { (x.keep 3).woke [3] with wakeTmr := 0#32 }).wakeOn 3 false) :=
  State.live_eq_upd hu (if_neg ht)

/-- A write of the timer ends its level wake (R456). -/
theorem execPwrWaketmrWrite_up (w : Word) (hu : s.up) :
    execPwrWaketmrWrite w s =
      .next (s.upd fun c => c.updPwr fun x => { x with wakeTmr := w, levels := x.levels.filter (· ≠ 3) }) :=
  State.live_up hu

theorem execPwrExitWrite_up (hu : s.up) : execPwrExitWrite s = .next (s.upd fun c => c.dozeWake 7) := State.live_up hu

theorem execClkreqAssert_up (hu : s.up) : execClkreqAssert s = .next (s.upd fun c => c.wakeOn 5 false) :=
  State.live_up hu

theorem execPerstAssert_taken (hu : s.up) (hf : s.chip.pwr.st ≠ .wakeFail) (hh : s.chip.tst.linkHeld = false) :
    execPerstAssert s = .next (s.upd fun c =>
      if c.perstHolds then
        (({ c with pci := { c.pci with perst := true, holdPerst := true } }).updPwr fun x =>
          { x with levels := x.levels.filter (· ≠ 4) }).entryJudge
      else
        let c := c.conventional
        { c with pci := { c.pci with perst := true, link := .down } }) :=
  State.live_eq_upd hu (if_neg (by simp [hf, hh]))

theorem execPerstDeassert_rises (hu : s.up) (hp : s.chip.pci.perst = true) :
    execPerstDeassert s = .next (s.upd fun c =>
      ((c.dmaChange fun c => { c with pci := { c.pci with perst := false, holdPerst := false } }).wakeRelease).wakeOn 4
        false) :=
  State.live_eq_upd hu (if_neg (by simp [hp]))

end

/-- Settles O23, one row after another. -/
theorem powerEntryRowsComplete : Obligations.PowerEntryRowsComplete :=
  ⟨fun _ => execEntryDrainTimeout_device, fun _ _ => execEntryDrainTimeout_cluster,
    fun _ l => execPcieLinkStateChange_free l,
    fun _ hu he h7 => ⟨fun ht => execNapwaitExpiry_waits hu ⟨he, h7, ht⟩, fun ht => execDeepwaitExpiry_waits hu ⟨he, h7, ht⟩⟩,
    fun _ => execSignaturesDone_device, fun _ _ => execSignaturesDone_cluster,
    fun _ hu he h8 hg => ⟨fun _ => execSignatureTimeout_group hu he h8 hg, execSignatureTimeout_island hu he h8 hg⟩,
    fun _ => execClosingWindowEnd_unwoken⟩

/-- Settles O24, one wake after another. -/
theorem wakeEventsComplete : Obligations.WakeEventsComplete :=
  ⟨fun _ _ _ => execPortWakeEvent_awake, fun _ => execWakeTimerZero_runs,
    fun _ w hu => ⟨execPwrWaketmrWrite_up w hu, execPwrExitWrite_up hu, execClkreqAssert_up hu⟩,
    fun _ => execPerstAssert_taken, fun _ => execPerstDeassert_rises⟩

end Sys2Proof.Machine
end

section
/-!
SUPPORT. The steps of the exit from a sleep (R457, R459, R460, R462, R464 to R466, R468).
-/
namespace Sys2Proof.Machine

section
variable {s : State}

/-! ### Regulators and oscillator (R459, R462, R464) -/

section
variable {r : Fin 4}

/-- The exit waits for the power good of regulator `r`. -/
def Chip.awaitsReg (c : Chip) (r : Nat) : Prop :=
  c.pwr.st = .exiting ∧ c.pwr.step = 1 ∧ c.pwr.regWait = false ∧ c.pwr.reg = r

theorem execRegulatorPowerGood_more (hu : s.up) (ha : s.chip.awaitsReg r)
    (hr : r.val < 2 ∨ r.val = 2 ∧ s.chip.pwr.reg3Off = true) :
    execRegulatorPowerGood r s = .next (s.upd fun c =>
      (c.updPwr fun x => { x with pgLow := x.pgLow.filter (· ≠ r.val) }).updPwr fun x => { x with reg := r.val + 1 }) := by
  obtain ⟨he, h1, hw, hg⟩ := ha
  exact State.live_eq_upd hu ((if_neg (by simp [he, h1, hw, hg])).trans (if_pos hr))

/-- With the last regulator good the oscillator is next, and a WAKE# that is owed is driven. -/
theorem execRegulatorPowerGood_last (hu : s.up) (ha : s.chip.awaitsReg r) (h2 : 2 ≤ r.val)
    (hr : r.val = 2 → s.chip.pwr.reg3Off = false) :
    execRegulatorPowerGood r s = .next (s.upd fun c =>
      let c := (c.updPwr fun x => { x with pgLow := x.pgLow.filter (· ≠ r.val) }).updPwr fun x => { x with step := 2 }
      if c.pwr.wakeDue then (c.updPwr fun x => { x with wakeDue := false, wakeN := true }).emit (.wakeN true) else c) := by
  obtain ⟨he, h1, hw, hg⟩ := ha
  have hn : ¬ (r.val < 2 ∨ r.val = 2 ∧ s.chip.pwr.reg3Off = true) := by
    rintro (h | ⟨h, h3⟩)
    · omega
    · simp [hr h] at h3
  exact State.live_eq_upd hu ((if_neg (by simp [he, h1, hw, hg])).trans (if_neg hn))

theorem execRegulatorTimeout_awaited (hu : s.up) (ha : s.chip.awaitsReg r) :
    execRegulatorTimeout r s = .next (s.upd fun c => c.regFail r) := by
  obtain ⟨he, h1, hw, hg⟩ := ha
  exact State.live_eq_upd hu (if_pos ⟨he, h1, by simp [hw], hg⟩)

/-- A fall of power good in a running device is reported (R468). -/
theorem execPgFall_running (hu : s.up) (hs : s.chip.pwr.st = .active ∨ s.chip.pwr.st = .doze) :
    execPgFall r s = .next (s.upd fun c =>
      (c.updPwr fun x => { x with pgLow := x.pgLow.filter (· ≠ r.val) ++ [r.val] }).aonReport 0x120 Kind.undervolt r) :=
  State.live_eq_upd hu (if_pos hs)

end

theorem execRegulatorRetry_waits (hu : s.up) (he : s.chip.pwr.st = .exiting) (h1 : s.chip.pwr.step = 1)
    (hw : s.chip.pwr.regWait = true) : execRegulatorRetry s = .next (s.upd fun c => c.updPwr Pwr.regStart) :=
  State.live_eq_upd hu (if_pos ⟨he, h1, hw⟩)

section
variable {k : Fin 16} (hu : s.up) (he : s.chip.pwr.st = .exiting)
include hu he

theorem execOscOk_awaited (h2 : s.chip.pwr.step = 2) : execOscOk s = .next (s.upd fun c => c.pllStart) :=
  State.live_eq_upd hu (if_pos ⟨he, h2⟩)

theorem execOscTimeout_awaited (h2 : s.chip.pwr.step = 2) : execOscTimeout s = .next (s.upd fun c => c.mgmtOnly 2) :=
  State.live_eq_upd hu (if_pos ⟨he, h2⟩)

/-! ### PLLs (R459, R464) -/

theorem execPllLock_core (h3 : s.chip.pwr.step = 3) :
    execPllLock none s = .next (s.upd fun c => (c.updPwr fun x => { x with corePll := true }).exitGo) :=
  State.live_eq_upd hu (if_pos (by simp [he, h3]))

theorem execPllLock_cluster (h3 : s.chip.pwr.step = 3) (hw : s.chip.pwr.pllWait.contains k.val = true) :
    execPllLock (some k) s =
      .next (s.upd fun c => (c.updPwr fun x => { x with pllWait := x.pllWait.filter (· ≠ k.val) }).exitGo) :=
  State.live_eq_upd hu (if_pos (by simpa [he, h3] using hw))

theorem execPllLockTimeout_core (h3 : s.chip.pwr.step = 3) (hc : s.chip.pwr.corePll = false) :
    execPllLockTimeout none s = .next (s.upd fun c =>
      if c.pwr.pllTries = 0 then c.updPwr fun x => { x with pllTries := 1, retries := satAdd 15 x.retries 1 }
      else c.mgmtOnly 3) :=
  State.live_eq_upd hu (if_neg (by simp [he, h3, hc]))

theorem execPllLockTimeout_cluster (h3 : s.chip.pwr.step = 3)
    (hw : s.chip.pwr.pllWait.contains k.val = true) :
    execPllLockTimeout (some k) s = .next (s.upd fun c =>
      if c.pwr.pllAgain.contains k.val then (c.cluStays k).exitGo
      else c.updPwr fun x => { x with pllAgain := x.pllAgain ++ [k.val], retries := satAdd 15 x.retries 1 }) :=
  State.live_eq_upd hu ((if_neg (by simp [he, h3, hw, -List.contains_eq_mem])).trans (by rw [he, h3]; rfl))

/-! ### The DRAM (R459, R465; log 159) -/

/-- The DRAM is initialised once more, then afresh, and then the device goes to its safe state. -/
theorem execDramRdyTimeout_exiting (h4 : s.chip.pwr.step = 4) :
    execDramRdyTimeout s = .next (s.upd fun c =>
      let n := c.pwr.dramTries + 1
      let d := c.updPwr fun x => { x with dramTries := n }
      if n = 1 then d.updPwr fun x => { x with retries := satAdd 15 x.retries 1 }
      else if n = 2 then
        ((d.report 0x0E0 Kind.readyTimeout 0).updPwr fun x => { x with dramLost := true }).updPwr fun x =>
          { x with failStep := 4 }
      else d.enterSafe 6) :=
  State.live_eq_upd hu (by rw [he, h4]; rfl)

end

theorem execDramRdy_exiting (lost : Bool) (hu : s.up) (he : s.chip.dramCheck.pwr.st = .exiting)
    (h4 : s.chip.dramCheck.pwr.step = 4) :
    execDramRdy lost s = .next (s.upd fun c =>
      (c.dramCheck.updPwr fun x => { x with
        step := 5
        sigLostI := if lost && !x.sigLostI.contains (islNum 6 0) then x.sigLostI ++ [islNum 6 0] else x.sigLostI
        islWait := c.dramCheck.exitIslands
        islAgain := [] }).exitGo) :=
  State.live_eq_upd hu (if_pos ⟨he, h4⟩)

/-! ### The islands (R459, R460, R466, R467; log 159) -/

section
variable {cls : Fin 9} {k : Fin 144}

theorem execIslRdy_exiting (lost : List (Fin 9)) (groups : List (Fin 16)) (hu : s.up)
    (ha : s.chip.islAwaited (islNum cls k) = true) (h8 : cls.val ≠ 8) (he : s.chip.pwr.st = .exiting) :
    execIslRdy cls k lost groups s = .next (s.upd fun c =>
      (c.updPwr fun x => { x with
        sigLostI := (x.sigLostI ++ ((lost.map Fin.val).filter fun x =>
          x == cls.val || (cls.val == 5 && x == 4)).map fun j => islNum j k).eraseDups
        sigLostG := (x.sigLostG ++ (groups.map Fin.val).filter fun g => g != 0).eraseDups }).islOver (islNum cls k)) :=
  State.live_eq_upd hu (by simp [ha, h8, he])

/-- An island that does not come is tried once more. -/
theorem execIslRdyTimeout_first (hu : s.up) (ha : s.chip.islAwaited (islNum cls k) = true)
    (hf : s.chip.pwr.islAgain.contains (islNum cls k) = false) :
    execIslRdyTimeout cls k s = .next (s.upd fun c => c.updPwr fun x => { x with
      islAgain := x.islAgain ++ [islNum cls k]
      retries := if c.pwr.st = .exiting then satAdd 15 x.retries 1 else x.retries }) := by
  refine State.live_eq_upd hu ((if_neg (by simp [ha])).trans ((if_pos (by simpa using hf)).trans ?_))
  simp

/-- An island of class `cls` is given up: without an engine, a cluster or the network the device goes on, without another
it goes to its safe state (R466). -/
def Chip.islandGivenUp (c : Chip) (cls k : Nat) : Chip :=
  match cls with
  | 0 => (c.engineLost k).islOver (islNum cls k)
  | 1 => (c.cluStays k).exitGo
  | 8 => ({ c with net := { c.net with dead := true } }).islOver (islNum cls k)
  | 7 => c.enterSafe 5 0x120 Kind.readyTimeout true
  | _ => c.enterSafe 5 0x120 Kind.readyTimeout

theorem execIslRdyTimeout_again (hu : s.up) (ha : s.chip.islAwaited (islNum cls k) = true)
    (hf : s.chip.pwr.islAgain.contains (islNum cls k) = true) (he : s.chip.pwr.st = .exiting) :
    execIslRdyTimeout cls k s = .next (s.upd fun c =>
      ((c.aonReport 0x120 Kind.readyTimeout cls).updPwr fun x => { x with failStep := 5 }).islandGivenUp cls k) := by
  refine State.live_eq_upd hu ((if_neg (by simp [ha])).trans ((if_neg (by simpa using hf)).trans ?_))
  rw [he]
  rfl

theorem execDozeIslandIdle_doze (hu : s.up) (hd : s.chip.pwr.st = .doze) (h8 : cls.val ≠ 8) :
    execDozeIslandIdle cls s =
      .next (s.upd fun c => c.updPwr fun x => { x with ungated := x.ungated.filter (· ≠ cls.val) }) :=
  State.live_eq_upd hu ((if_neg (by simp [hd])).trans (if_neg h8))

end

end

/-- Settles O25, one row after another. -/
theorem powerExitClocksComplete : Obligations.PowerExitClocksComplete :=
  ⟨fun _ _ hu he h1 hw hg => execRegulatorPowerGood_more hu ⟨he, h1, hw, hg⟩,
    fun _ _ hu he h1 hw hg => execRegulatorPowerGood_last hu ⟨he, h1, hw, hg⟩,
    fun _ _ hu he h1 hw hg => execRegulatorTimeout_awaited hu ⟨he, h1, hw, hg⟩,
    fun _ => execRegulatorRetry_waits, fun _ hu he h2 => ⟨execOscOk_awaited hu he h2, execOscTimeout_awaited hu he h2⟩,
    fun _ => execPllLock_core, fun _ _ => execPllLock_cluster, fun _ => execPllLockTimeout_core,
    fun _ _ => execPllLockTimeout_cluster⟩

/-- Settles O26, one row after another. -/
theorem powerExitIslandsComplete : Obligations.PowerExitIslandsComplete :=
  ⟨fun _ lost => execDramRdy_exiting lost, fun _ => execDramRdyTimeout_exiting,
    fun _ _ _ lost groups => execIslRdy_exiting lost groups, fun _ _ _ => execIslRdyTimeout_first,
    fun _ _ _ => execIslRdyTimeout_again, fun _ _ => execDozeIslandIdle_doze, fun _ => State.run_alive,
    fun _ _ => execPgFall_running⟩

end Sys2Proof.Machine
end

section
/-!
SUPPORT. Resets, the self-test and the boot (R495, R496, R550, R551, R593, R611, R612, R614), and the bus and the
commands of the service port (R520 to R529).
-/
namespace Sys2Proof.Machine

section
variable {s : State}

/-! ### Resets and supplies (R593, R611, R612; logs 192 and 193) -/

/-- RESET_N low for two cycles or more of a powered device: the length and a free value say whether it is taken. -/
theorem execResetNAssert_powered {n : Fin 65536} (ho : s.chip.aon.off = false) (hn : 2 ≤ n.val) :
    execResetNAssert n s = .next (
      let t := s.upd fun c => c.fresh.2
      if s.chip.resetTaken n then
        t.deviceReset.upd fun c => { c with aon := { c.aon with resetN := true } }
      else t) := by
  refine (if_neg (by simp [ho]; omega)).trans ?_
  by_cases ht : s.chip.resetTaken n = true
  · simp only [ht, if_true]
    rfl
  · simp only [ht]
    rfl

theorem execResetNRelease_powered (ho : s.chip.aon.off = false) :
    execResetNRelease s = .next (s.upd fun c => { c with aon := { c.aon with resetN := false } }) := by
  simp [execResetNRelease, ho, State.upd]

/-- The rails whose fall the device does not outlive: VDD_RET and VDD_AON. -/
theorem execSupplyFall_loses {r : Rail} (hr : r ≠ .dram) :
    execSupplyFall r s = .next
      { otp := s.otp, pending := s.pending, jtag := if r = .aon then {} else s.jtag
        chip :=
          { out := s.chip.out, free := s.chip.free, cal := { slots := s.chip.cal.slots }
            lny := { vbus := s.chip.lny.vbus }, pci := { perst := s.chip.pci.perst }
            aon := { off := true, resetN := s.chip.aon.resetN } } } := by
  cases r with
  | dram => exact absurd rfl hr
  | ret => rfl
  | aon => rfl

/-! ### The self-test and the boot (R496, R539, R550, R551) -/

theorem execPostStageDone_runs (found : PostFound) (hu : s.up) (hd : s.chip.tst.postdone = false)
    (hp : s.chip.pwr.st = .active) :
    execPostStageDone found s = .next (s.upd fun c => c.postStage s.otp found) :=
  State.live_eq_upd hu (if_neg (by simp [hd, hp]))

/-- The first read of the image, from stage 7 on. -/
theorem execBootImageReadDone_first (flash : List Byte) (quad : Bool) (hu : s.up) (hr : s.chip.boot.rereading = false)
    (hd : s.chip.tst.postdone = false) (hb : s.chip.boot.read = false) (h7 : 7 ≤ s.chip.tst.stage) :
    execBootImageReadDone flash quad s = .next (s.upd fun c => c.bootRead s.otp.keyHash flash quad) :=
  State.live_eq_upd hu ((if_neg (by simp [hr])).trans (if_neg (by simpa [hd, hb] using h7)))

theorem execBootImageReadDone_again (flash : List Byte) (quad : Bool) (hu : s.up) (hr : s.chip.boot.rereading = true) :
    execBootImageReadDone flash quad s = .next (s.upd fun c => c.reread flash) :=
  State.live_eq_upd hu (if_pos hr)

theorem execImageStageDone_staging {who : MaintWho} {e : Nat} {x : Option Image} (hu : s.up)
    (hs : s.chip.boot.staging = some (who, e, x)) :
    execImageStageDone s = .next (s.upd fun c =>
      let d := { c with boot := { c.boot with staged := x, staging := none } }
      if x.isSome then d.maintDone who 0x15 0x0B Ad.success
      else d.maintDone who 0x15 0x0B Ad.image (BitVec.ofNat 32 e)) :=
  State.live_eq_upd hu (by simp only [hs])

theorem execCalWriteDone_busy {who : MaintWho} {t : Nat} {body : List Byte} (ok : Bool) (ha : s.alive)
    (hb : s.chip.cal.busy = some (who, t, body)) :
    execCalWriteDone ok s = .next (s.upd fun c => c.calDone who t body ok) :=
  State.run_eq_upd ha (by simp only [hb])

/-- Below 115 °C no sample is critical, and the warning alone is judged. -/
theorem execThermalSample_belowCrit {t : BitVec 11} (ha : s.alive) (ht : t.toInt < 460)
    (hf : s.chip.fabricClocked = true) :
    execThermalSample t s = .next (s.upd fun c =>
      let d := { c with aon := { c.aon with temp := t } }
      if (d.sh 32).src.input = false ∧ 4 * (c.aon.warnTh : Int) ≤ t.toInt then
        (d.shInput 32 true).report 0x180 Kind.thermalWarn 0
      else if (d.sh 32).src.input = true ∧ t.toInt ≤ 4 * (c.aon.warnTh : Int) - 20 then d.shInput 32 false
      else d) := by
  have hclk : ({ s.chip with aon := { s.chip.aon with temp := t } }).fabricClocked = true := hf
  refine State.run_eq_upd ha ((if_neg (by omega)).trans ?_)
  simp [hclk]

end

/-- Settles O28, one row after another. -/
theorem resetAndBootRowsComplete : Obligations.ResetAndBootRowsComplete :=
  ⟨fun _ _ _ => rfl, fun _ _ => execResetNAssert_powered, fun _ => execResetNRelease_powered,
    fun _ => ⟨rfl, fun _ => execSupplyFall_loses⟩, fun _ => execPostStageDone_runs,
    fun _ => execBootImageReadDone_first, fun _ => execBootImageReadDone_again, fun _ _ _ _ => execImageStageDone_staging,
    fun _ _ _ _ => execCalWriteDone_busy, fun _ _ => execThermalSample_belowCrit⟩

/-! ### The commands of the service port (R525 to R529) -/

section
variable {s : State} {m : LnyCmd}

/-- A command that waits, and whose effect is on the chip, makes the change `h` where its effect on that chip is `h`'s. -/
theorem State.lnyChip_eq_upd {op : Nat} {g : LnyCmd → Chip → Chip} {h : Chip → Chip} (ha : s.asksLny op m)
    (e : g m s.chip = h s.chip) : s.lnyChip op g = .next (s.upd h) :=
  (State.lnyRun_takes ha).trans (congrArg _ (State.upd_congr e))

theorem execLnyRead_runs (ha : s.asksLny 0x01 m) (h4 : m.arg0.toNat % 4 = 0)
    (hn : 1 ≤ m.arg1.toNat ∧ m.arg1.toNat ≤ 4096) (he : m.arg0.toNat + 4 * m.arg1.toNat ≤ 0x2000000)
    (hr : ((List.range m.arg1.toNat).any fun i => !s.chip.regRuns (m.arg0.toNat + 4 * i)) = false) :
    execLnyRead s = .next (s.upd fun c =>
      let r := c.wakeFabric.readDwords s.locks s.otp m.arg0.toNat m.arg1.toNat
      r.2.lnyDone Ad.success 0#32 0#32 (wordsBytes r.1.reverse)) :=
  State.lnyChip_eq_upd ha ((if_neg (by omega)).trans (if_neg (by simp [hr])))

theorem execLnyWrite_allowed (ha : s.asksLny 0x02 m) (h4 : m.arg0.toNat % 4 = 0) (ho : m.arg0.toNat < 0x2000000)
    (hb : [0x04, 0x05, 0x1B].contains (m.arg0.toNat / 0x10000) = true) (hr : s.chip.regRuns m.arg0.toNat = true) :
    execLnyWrite s = .next ((s.upd fun c => c.wakeFabric.lnyDone Ad.success).bar0Write 0 m.arg0.toNat m.arg1) :=
  (State.lnyRun_takes ha).trans (congrArg _
    ((if_neg (by omega)).trans ((if_neg (by rw [hb]; decide)).trans (if_neg (by simp [hr])))))

theorem execLnyHistory_takes (ha : s.asksLny 0x03 m) :
    execLnyHistory s = .next (s.upd fun c => c.lnyDone Ad.success (mkWord [(b2n c.hist.valid, 31), (c.hist.seq, 0)]) 0#32
      ((List.range 32).map c.histSlot).flatten) :=
  State.lnyChip_eq_upd ha rfl

/-- CLEAR, for a listed source or for all; a source that is not listed is INVALID_PARAM (log 212). -/
theorem execLnyClear_takes (ha : s.asksLny 0x04 m) :
    execLnyClear s = .next (s.upd fun c => match c.wakeFabric.clearNamed m.arg0.toNat with
      | some d => d.lnyDone Ad.success
      | none => c.lnyDone Ad.invalidParam) :=
  State.lnyChip_eq_upd ha rfl

theorem execLnyPower_allowed (ha : s.asksLny 0x05 m) (h7 : bits m.arg0 7 3 = 0) (h31 : bits m.arg0 31 12 = 0)
    (hp : powerParamBad (bits m.arg0 2 0) (bits m.arg0 11 8) = false)
    (hr : s.chip.powerRefused (bits m.arg0 2 0) (bits m.arg0 11 8) = false) :
    execLnyPower s =
      .next (s.upd fun c => c.lnyBegun.powerStart .lanyard (bits m.arg0 2 0) (bits m.arg0 11 8)) :=
  State.lnyChip_eq_upd ha ((if_neg (by simp [h7, h31, hp])).trans (if_neg (by simp [hr])))

/-- The answer of RETRY says what the retry will be: it is judged before the answer and carried out after it. -/
theorem execLnyRetry_takes (ha : s.asksLny 0x06 m) :
    execLnyRetry s = .next (s.upd fun c =>
      if c.powerRetry.1 = Ad.success then (c.lnyDone c.powerRetry.1).powerRetry.2 else c.lnyDone c.powerRetry.1) :=
  State.lnyChip_eq_upd ha rfl

theorem execLnyReset_key (ha : s.asksLny 0x07 m) (hk : m.arg0 = 0x5A5A#32) :
    execLnyReset s = .next (
      let t := s.upd fun c => (c.lnyDone Ad.success).updLny fun x => { x with resetDue := true }
      if s.chip.lny.vbus then t else t.deviceReset) :=
  (State.lnyRun_takes ha).trans (congrArg _ (if_neg (by simp [hk])))

theorem execLnyIdentify_takes (ha : s.asksLny 0x08 m) :
    execLnyIdentify s = .next (s.upd fun c => c.lnyDone Ad.success 0#32 0#32 (c.identity 0)) :=
  State.lnyChip_eq_upd ha rfl

theorem execLnyCalExport_takes (ha : s.asksLny 0x09 m) :
    execLnyCalExport s = .next (s.upd fun c => c.lnyDone Ad.success 0#32 0#32 ((List.range 4096).map c.calByte)) :=
  State.lnyChip_eq_upd ha rfl

theorem execLnyCalWrite_allowed (ha : s.asksLny 0x0A m) (hb : calBodyOk m.arg0.toNat m.data = true)
    (hw : s.chip.calWorn m.arg0.toNat = false) (hr : s.chip.calRefused s.locks = false) :
    execLnyCalWrite s = .next (s.upd fun c => c.lnyBegun.calStart .lanyard m.arg0.toNat m.data) :=
  State.lnyChip_eq_upd ha
    ((if_neg (by simp [hb])).trans ((if_neg (by simp [hw])).trans (if_neg (by simp [hr]))))

theorem execLnyImageStage_allowed (ha : s.asksLny 0x0B m) (hi : s.chip.imageRuns = true)
    (hr : s.chip.stageRefused = false) :
    execLnyImageStage s = .next (s.upd fun c => c.lnyBegun.stageStart .lanyard s.otp.keyHash m.data) :=
  State.lnyChip_eq_upd ha ((if_neg (by simp [hi])).trans (if_neg (by simp [hr])))

theorem execLnyImageApply_allowed (ha : s.asksLny 0x0C m) (hi : s.chip.imageRuns = true)
    (hb : s.chip.applyBad m.arg0.toNat = false) (hr : s.chip.applyRefused = false) :
    execLnyImageApply s = .next (s.upd fun c => (c.imageApply m.arg0.toNat).lnyDone Ad.success) :=
  State.lnyChip_eq_upd ha
    ((if_neg (by simp [hi])).trans ((if_neg (by simp [hb])).trans (if_neg (by simp [hr]))))

end

/-- Settles O30, one command after another. -/
theorem lanyardCommandsComplete : Obligations.LanyardCommandsComplete :=
  ⟨fun _ _ => execLnyRead_runs, fun _ _ => execLnyWrite_allowed, fun _ _ => execLnyHistory_takes,
    fun _ _ => execLnyClear_takes, fun _ _ => execLnyPower_allowed, fun _ _ => execLnyRetry_takes,
    fun _ _ => execLnyReset_key, fun _ _ => execLnyIdentify_takes, fun _ _ => execLnyCalExport_takes,
    fun _ _ => execLnyCalWrite_allowed, fun _ _ => execLnyImageStage_allowed, fun _ _ => execLnyImageApply_allowed⟩

/-! ### The bus of the service port (R520 to R524, R558; logs 198 to 201 and 203) -/

section
variable {s : State}

theorem execLnyVbusChange_powered (b : Bool) (ha : s.alive) (ho : s.chip.aon.off = false) :
    execLnyVbusChange b s = .next (
      let t := s.upd fun c => ((c.wakeInput 38 b).updLny fun x => { x with vbus := b }).lnyJudge
      if s.chip.lny.resetDue && !b then t.deviceReset else t) :=
  (if_neg (by simp [ho])).trans (if_neg (by simp [ha]))

theorem execLnyBusReset_connected (hs : Bool) (ha : s.alive) (hc : s.chip.lnyConnected = true)
    (ht : s.chip.aon.testen = false) :
    execLnyBusReset hs s = .next (s.upd fun c => c.updLny fun x =>
      { x.unplug with speed := if hs && !x.fsOnly && c.pwr.st != .mgmtOnly then 3 else 2, testMode := x.testMode }) :=
  State.run_eq_upd ha (if_neg (by simp [hc, ht]))

theorem execLnyBusSuspend_bus (ha : s.alive) (hb : s.chip.lnyBus = true) :
    execLnyBusSuspend s = .next (s.upd fun c => c.updLny fun x => { x with suspended := true }) :=
  State.run_eq_upd ha (if_pos hb)

theorem execLnyBusResume_bus (ha : s.alive) (hb : s.chip.lnyBus = true) :
    execLnyBusResume s = .next (s.upd fun c => c.updLny fun x => { x with suspended := false }) :=
  State.run_eq_upd ha (if_pos hb)

section
variable {rt : Byte} (rq : Byte) (v i : Fin 65536) (ha : s.alive) (hb : s.chip.lnyBus = true)
  (hs : s.chip.lny.suspended = false)
include ha hb hs

/-- A control transfer is carried whole (log 198): the read returns its data. -/
theorem execLnySetup_read (len : Fin 65536) (hr : 0x80 ≤ rt.toNat) :
    execLnySetup rt rq v i len s = .next (s.upd fun c => match c.lny.get rt.toNat rq.toNat v i with
      | some bs => c.emit (.lny 0 true (bs.take len))
      | none => c.emit (.lnyHs 0 "STALL")) :=
  State.run_eq_upd ha ((if_neg (by simp [hb, hs])).trans (if_pos hr))

/-- A write without data may draw on a free value (log 199). -/
theorem execLnySetup_write (hr : rt.toNat < 0x80) :
    execLnySetup rt rq v i 0 s = .next (s.upd fun c =>
      match c.lny.put (Config.freeNat c.fresh.1) rt.toNat rq.toNat v i with
      | some y => ({ c.fresh.2 with lny := y }).emit (.lny 0 true [])
      | none => c.emit (.lnyHs 0 "STALL")) :=
  State.run_eq_upd ha ((if_neg (by simp [hb, hs])).trans (if_neg (by omega)))

end

section
variable {ep : Fin 16} (d : Bool) {bs : List Byte} (ha : s.alive) (hb : s.chip.lnyBulk ep = true)
  (hl : bs.length ≤ s.chip.lny.mps)
include ha hb hl

theorem execLnyOutData_good :
    execLnyOutData ep d bs true s = .next (s.upd fun c =>
      if c.lny.halted.contains ep.val then c.emit (.lnyHs ep "STALL")
      else if d != c.lny.tog.contains ep.val then c.emit (.lnyHs ep "ACK")
      else if 2 ≤ c.lny.outHeld ep then c.emit (.lnyHs ep "NAK")
      else ((c.emit (.lnyHs ep (if c.lny.speed = 3 ∧ c.lny.outHeld ep = 1 then "NYET" else "ACK"))).updLny fun x =>
        ((x.outTake ep bs).flip ep).loop).lnyGo) :=
  State.run_eq_upd ha (if_neg (by simp [hb, hl]))

theorem execLnyOutData_badCrc :
    execLnyOutData ep d bs false s =
      .next (s.upd fun c => c.updLny fun x => { x with crcErr := satAdd 0xFFFF x.crcErr 1 }) :=
  State.run_eq_upd ha (if_neg (by simp [hb, hl]))

end

/-- PING answers as the next OUT packet would be: STALL, ACK while a buffer is free, else NAK. -/
theorem execLnyPing_hs {ep : Fin 16} (ha : s.alive) (hb : s.chip.lnyBulk ep = true) (h3 : s.chip.lny.speed = 3) :
    execLnyPing ep s = .next (s.upd fun c => c.emit (.lnyHs ep
      (if c.lny.halted.contains ep.val then "STALL" else if c.lny.outHeld ep < 2 then "ACK" else "NAK"))) := by
  refine State.run_eq_upd ha ((if_neg (by simp [hb, h3])).trans ?_)
  by_cases hh : s.chip.lny.halted.contains ep.val = true
  · simp only [hh, if_true]
  · simp only [hh, if_false, Bool.false_eq_true]

section
variable {ep : Fin 16} (ack : Bool) (hb : s.chip.lnyBulk ep = true)
include hb

theorem execLnyInToken_halted (hh : s.chip.lny.halted.contains (0x80 + ep.val) = true) :
    execLnyInToken ep ack s = .next (s.upd fun c => c.emit (.lnyHs ep "STALL")) :=
  (if_neg (by simp [hb])).trans (if_pos hh)

theorem execLnyInToken_empty (hh : s.chip.lny.halted.contains (0x80 + ep.val) = false)
    (hd : s.chip.lny.inData ep = none) :
    execLnyInToken ep ack s = .next (s.upd fun c => c.emit (.lnyHs ep "NAK")) := by
  refine (if_neg (by simp [hb])).trans ((if_neg (by simp only [hh]; decide)).trans ?_)
  simp only [hd]
  rfl

theorem execLnyInToken_data {bs : List Byte} (hh : s.chip.lny.halted.contains (0x80 + ep.val) = false)
    (hd : s.chip.lny.inData ep = some bs) :
    execLnyInToken ep ack s = .next (
      let t := s.upd fun c => c.emit (.lny ep (c.lny.tog.contains (0x80 + ep.val)) bs)
      if ack then
        let u := t.upd fun c => c.updLny fun x => (x.inTaken ep).flip (0x80 + ep.val)
        if u.chip.lny.resetDue && u.chip.lny.in1.isEmpty then u.deviceReset else u
      else t) := by
  refine (if_neg (by simp [hb])).trans ((if_neg (by simp only [hh]; decide)).trans ?_)
  simp only [hd]
  cases ack with
  | true => rfl
  | false => rfl

end

end

/-- Settles O31, one happening on the bus after another. -/
theorem lanyardBusRowsComplete : Obligations.LanyardBusRowsComplete :=
  ⟨fun _ => execLnyVbusChange_powered, fun _ => execLnyBusReset_connected,
    fun _ ha hb => ⟨execLnyBusSuspend_bus ha hb, execLnyBusResume_bus ha hb⟩,
    fun _ _ rq v i len ha hb hs => execLnySetup_read rq v i ha hb hs len,
    fun _ _ => execLnySetup_write,
    fun _ _ d _ => execLnyOutData_good d, fun _ _ d _ => execLnyOutData_badCrc d, fun _ _ => execLnyPing_hs,
    fun _ _ ack hb => ⟨execLnyInToken_halted ack hb, execLnyInToken_empty ack hb, fun _ => execLnyInToken_data ack hb⟩⟩

end Sys2Proof.Machine
end

section
/-!
SUPPORT. The Tether's commands (R454, R531 to R535; logs 207 to 213).
-/
namespace Sys2Proof.Machine

section
variable {s : State}

/-- A command of the Tether that is taken, and whose effect is on the chip, makes the change `h` where its effect, once
RESULT shows it as running, is `h`'s. -/
theorem State.tthChip_eq_upd {code : Nat} {pec : Option Bool} {changes : Bool} {g h : Chip → Chip}
    (ht : s.tthTakes pec changes) (e : g (s.chip.tthTook code) = h s.chip) :
    s.tthChip code pec changes g = .next (s.upd h) :=
  (State.tthRun_takes ht).trans (congrArg (fun c => Host.Outcome.next { s with chip := c }) e)

/-! ### Reads (R531 to R533; log 208) -/

theorem execTetherAddressMatch_own {a : Fin 128} (ha : s.alive) (h : a.val = s.chip.tth.addr)
    (hw : s.chip.pwr.window = false) :
    execTetherAddressMatch a s = .next (s.upd fun c =>
      let d := c.emit (.tthAck true)
      if d.pwr.tetherWake then d.wakeOn 0 true else d) :=
  State.run_eq_upd ha ((if_neg (not_not.2 h)).trans (if_neg (by simp [hw])))

theorem execTthStatus_takes (ht : s.tthTakes noPec false) :
    execTthStatus s = .next (s.upd fun c =>
      let c := c.tthTook 0x01
      (c.emit (.tth c.tthStatus)).tthEnd Ad.success) :=
  State.tthChip_eq_upd ht rfl

theorem execTthSelect_takes (w : Word) {pec : Option Bool} (ht : s.tthTakes pec false) :
    execTthSelect w pec s = .next (s.upd fun c =>
      let c := c.tthTook 0x02
      if w.toNat % 4 ≠ 0 ∨ 0x2000000 ≤ w.toNat then c.tthEnd Ad.invalidParam
      else (c.updTth fun x => { x with sel := w.toNat }).tthEnd Ad.success) :=
  State.tthChip_eq_upd ht rfl

theorem execTthRegdataRead_takes (ht : s.tthTakes noPec false) :
    execTthRegdataRead s = .next (s.upd fun c =>
      let c := c.tthTook 0x03
      let r := c.tthDwords s.locks s.otp c.tth.sel 8
      ((r.2.emit (.tth (wordsBytes r.1))).updTth Tth.advance).tthEnd
        (if (List.range 8).any fun i => !c.regRuns (c.tth.sel + 4 * i) then 0x0B else Ad.success)) :=
  State.tthChip_eq_upd ht rfl

/-- A write to the power block or to the Tether's own block, the mailbox apart, goes the way of a write by PF0. -/
theorem execTthRegdataWrite_allowed (w : Word) {pec : Option Bool} (ht : s.tthTakes pec true)
    (hb : s.chip.tth.sel / 0x10000 = 0x04 ∨ s.chip.tth.sel / 0x10000 = 0x1D) (hm : s.chip.tth.sel ≠ 0x1D000C) :
    execTthRegdataWrite w pec s = .next (
      let s := s.upd fun c => c.tthTook 0x03
      (s.upd fun c => c.tthEnd Ad.success).bar0Write 0 s.chip.tth.sel w) :=
  (State.tthRun_takes ht).trans (congrArg _ ((if_neg fun h => hb.elim h.1 h.2).trans (if_neg hm)))

theorem execTthResult_awake (ha : s.alive) (hw : s.chip.pwr.window = false) :
    execTthResult s = .next (s.upd fun c =>
      c.emit (.tth [BitVec.ofNat 8 c.tth.lastCmd, BitVec.ofNat 8 c.tth.lastStat, 0, 0])) :=
  State.run_eq_upd ha (if_neg (by simp [hw]))

/-! ### POWER, WAKE and RETRY (R447, R454, R463) -/

theorem execTthPower_takes (st k : Byte) {pec : Option Bool} (ht : s.tthTakes pec true) :
    execTthPower st k pec s = .next (s.upd fun c =>
      let c := c.tthTook 0x10
      if powerParamBad st.toNat k.toNat then c.tthEnd Ad.invalidParam
      else if c.powerRefused st.toNat k.toNat then c.tthEnd Ad.badState
      else c.powerStart .tether st.toNat k.toNat) :=
  State.tthChip_eq_upd ht rfl

theorem execTthWake_takes {pec : Option Bool} (ht : s.tthTakes pec false) :
    execTthWake pec s = .next (s.upd fun c => let c := c.tthTook 0x11; (c.wakeOn 0 true).tthEnd Ad.success) :=
  State.tthChip_eq_upd ht rfl

theorem execTthRetry_takes {pec : Option Bool} (ht : s.tthTakes pec true) :
    execTthRetry pec s = .next (s.upd fun c => let c := c.tthTook 0x12; c.powerRetry.2.tthEnd c.powerRetry.1) :=
  State.tthChip_eq_upd ht rfl

/-! ### CLEAR, DOORBELL, MAILBOX and RESET (R485, R532, R535; logs 211 and 212) -/

theorem execTthClear_takes (n : Fin 65536) {pec : Option Bool} (ht : s.tthTakes pec true) :
    execTthClear n pec s = .next (s.upd fun c =>
      let c := c.tthTook 0x13
      if !c.lnyFabric then c.tthEnd 0x0B
      else match c.wakeFabric.clearNamed n with
        | some d => d.tthEnd Ad.success
        | none => c.tthEnd Ad.invalidParam) :=
  State.tthChip_eq_upd ht rfl

theorem execTthDoorbell_takes (w : Word) {pec : Option Bool} (ht : s.tthTakes pec false) :
    execTthDoorbell w pec s = .next (s.upd fun c =>
      let c := c.tthTook 0x14
      let d := c.updTth fun x => { x with doorbell := w }
      (if d.lnyFabric then d.wakeFabric.shPulse 37 else d.updTth fun x => { x with dbWaits := true }).tthEnd
        Ad.success) :=
  State.tthChip_eq_upd ht rfl

theorem execTthMailboxRead_takes (ht : s.tthTakes noPec false) :
    execTthMailboxRead s = .next (s.upd fun c =>
      let c := c.tthTook 0x15
      let d := (c.emit (.tth (wordBytes c.tth.mailbox))).updTth fun x => { x with mbfull := false }
      (if d.faultN then d else d.alert false).tthEnd Ad.success) :=
  State.tthChip_eq_upd ht rfl

theorem execTthReset_takes (b : Byte) {pec : Option Bool} (ht : s.tthTakes pec true) :
    execTthReset b pec s = .next (
      let s := s.upd fun c => c.tthTook 0x16
      if b = 0x5A#8 then s.deviceReset else s.upd fun c => c.tthEnd Ad.invalidParam) :=
  State.tthRun_takes ht

theorem execMailboxWrite_reached (w : Word) (hu : s.up) (hr : s.chip.hostReach = true) :
    execMailboxWrite w s = .next (s.upd fun c => c.mailbox w) :=
  State.live_eq_upd hu (if_pos hr)

/-! ### The alert and the timeouts (R534, R535; logs 208 and 210) -/

theorem execTthAlertResponse_low (ha : s.alive) (hl : s.chip.tth.alertLow = true) :
    execTthAlertResponse s = .next (s.upd fun c =>
      (c.emit (.tth [BitVec.ofNat 8 (c.tth.addr * 2)])).alert false) :=
  State.run_eq_upd ha (if_pos hl)

/-- Only a register that runs behind the fabric can be late (R534); whether it was read is a free value (log 210). -/
theorem execTthFabricTimeout_late {k : Fin 8} (ht : s.tthTakes noPec false)
    (ho : regAlwaysOn (s.chip.tth.sel + 4 * k.val) = false) (hr : s.chip.regRuns (s.chip.tth.sel + 4 * k.val) = true) :
    execTthFabricTimeout k s = .next (s.upd fun c =>
      let c := c.tthTook 0x03
      let r := c.tthDwords s.locks s.otp c.tth.sel k
      let d :=
        if Config.freeNat r.2.fresh.1 % 2 = 1 then
          (r.2.fresh.2.tthDword s.locks s.otp (s.chip.tth.sel + 4 * k.val)).2
        else r.2.fresh.2
      ((d.emit (.tth (wordsBytes (r.1 ++ List.replicate (8 - k) 0xFFFFFFFF#32)))).updTth Tth.advance).tthEnd 0x0D) :=
  (if_neg (by simp [ho, hr])).trans (State.tthChip_eq_upd ht rfl)

theorem execTthSclTimeout_alive (ha : s.alive) :
    execTthSclTimeout s = .next (s.upd fun c => c.updTth fun x => { x with timeouts := satAdd 0xFF x.timeouts 1 }) :=
  State.run_alive ha

end

/-- Settles O32, one command after another. -/
theorem tetherReadsAndPowerComplete : Obligations.TetherReadsAndPowerComplete :=
  ⟨fun _ _ => execTetherAddressMatch_own, fun _ => execTthStatus_takes, fun _ w _ => execTthSelect_takes w,
    fun _ => execTthRegdataRead_takes, fun _ w _ => execTthRegdataWrite_allowed w, fun _ => execTthResult_awake,
    fun _ st k _ => execTthPower_takes st k, fun _ _ => execTthWake_takes⟩

/-- Settles O33, one command after another, then the timeouts and the host's side of the mailbox. -/
theorem tetherActionsComplete : Obligations.TetherActionsComplete :=
  ⟨fun _ _ => execTthRetry_takes, fun _ n _ => execTthClear_takes n, fun _ w _ => execTthDoorbell_takes w,
    fun _ => execTthMailboxRead_takes, fun _ b _ => execTthReset_takes b, fun _ => execTthAlertResponse_low,
    fun _ _ => execTthFabricTimeout_late, fun _ => execTthSclTimeout_alive, fun _ w => execMailboxWrite_reached w⟩

end Sys2Proof.Machine
end
